-- ==== Sys2Proof/Word.lean ====
section
/-!
DEFINITION. The words of the XM5120 model: bytes, the numbers that name units, and the sparse table that holds per-unit state.
-/

namespace Sys2Proof

/-- A byte (R7). -/
abbrev Byte := BitVec 8

/-- A Global Endpoint ID: switch ID in [19:8], local endpoint index in [7:0] (Table 0.2). -/
abbrev Geid := BitVec 20

/-- Mailbox MB0 to MB63 (R370). -/
abbrev Mb := Fin 64
/-- A port or PCIe sub-port by its index 2 × lead quad + sub-port (R237). -/
abbrev PortNo := Fin 256
/-- A quad (Table 0.2). -/
abbrev QuadNo := Fin 128
/-- A data lane by its global number 4q + l (R13). -/
abbrev LaneNo := Fin 512
/-- A port unit, a Carousel input or a Carousel output (Table 0.2). -/
abbrev PuNo := Fin 128
/-- A middle buffer of the Carousel (R181). -/
abbrev MidNo := Fin 128
/-- An input under R20 in the numbering of SRC of Table 5.1: 0 to 255 an ingress port, 256 + q the injection input of PU q. -/
abbrev SrcNo := Fin 384
/-- A virtual channel VC0 to VC7. -/
abbrev VcNo := Fin 8
/-- A Juggler engine (R277). -/
abbrev JugglerNo := Fin 512
/-- A Ring (Table 1.3). -/
abbrev RingNo := Fin 16
/-- A slot-power channel (R341). -/
abbrev ChanNo := Fin 48
/-- A core-die rail in the order of Table 14.2. -/
abbrev RailNo := Fin 5
/-- A virtual hierarchy (R242). -/
abbrev VhNo := Fin 128
/-- A virtual downstream port of a virtual hierarchy (R242). -/
abbrev VdspNo := Fin 32

/-- The 240-byte payload of a link block as one word, byte 0 in bits [7:0] (R7, R88). -/
abbrev BlockPayload := BitVec 1920

/-- State held per unit, by unit number.
A unit that is not listed holds its default, the state after reset.
The canonical form is: numbers strictly rising, and no entry that equals the default. -/
abbrev Tab (α : Type) := List (Nat × α)

end Sys2Proof
end

