-- ==== Sys2Proof/Syntax.lean ====
section
/-!
DEFINITION. The commands and events of the XM5120, one constructor for each row of spec/opcode_table.json, and the data they carry.
A mailbox command carries the mailbox whose CMD buffer holds it.
-/

namespace Sys2Proof

/-- The frame header of Table 4.2, fields in the table's order. -/
structure Hdr where
  dst     : Geid := 0
  src     : Geid := 0
  type    : BitVec 6 := 0
  cls     : BitVec 3 := 0
  tag     : BitVec 12 := 0
  poison  : Bool := false
  colour  : BitVec 2 := 0
  length  : BitVec 13 := 0
  part    : BitVec 8 := 0
  inst    : BitVec 12 := 0xFFF
  epoch   : BitVec 2 := 0
  hops    : BitVec 5 := 0
  status  : BitVec 4 := 0
  subtype : BitVec 8 := 0
  addr    : BitVec 64 := 0
  tw      : BitVec 64 := 0
  deriving DecidableEq, Repr

/-- The kinds of PCI Express TLP that the manual's rules tell apart (Table 7.7, R247). -/
inductive TlpKind where
  | memRead | memWrite | ioRead | ioWrite | cfgRead | cfgWrite | completion | msgById | msgBroadcast | msgOther
  deriving DecidableEq, Repr

/-- A PCI Express TLP, held decoded: its layout is that of the PCI Express Base Specification, outside the manual. -/
structure Tlp where
  kind   : TlpKind
  tc     : BitVec 3 := 0
  addr   : BitVec 64 := 0
  /-- Bytes of data carried, or bytes requested by a read. -/
  len    : Nat := 0
  /-- Requester ID, or completer ID of a completion: bus in [15:8]. -/
  reqId  : BitVec 16 := 0
  /-- Routing ID of a configuration request, a completion or an ID-routed message. -/
  target : BitVec 16 := 0
  reg    : BitVec 12 := 0
  tag    : BitVec 14 := 0
  at2    : BitVec 2 := 0
  relaxed : Bool := false
  ep     : Bool := false
  td     : Bool := false
  /-- The ECRC of a TLP with TD set is correct (R248). -/
  ecrcOk : Bool := true
  /-- Completion status of the PCI Express Base Specification: 0 SC, 1 UR, 4 CA. -/
  status : BitVec 3 := 0
  /-- Byte Count of a completion: bytes of the request still to be returned, including this TLP's data. -/
  byteCount : Nat := 0
  hdrDw  : BitVec 5 := 4
  data   : List Byte := []
  deriving DecidableEq, Repr

/-- A frame: the 32-byte header and its payload (R131).
A PCIE_TUNNEL frame holds its TLP decoded in `tlp`, and `payload` is then empty. -/
structure Frame where
  hdr     : Hdr
  payload : List Byte := []
  tlp     : Option Tlp := none
  deriving DecidableEq, Repr

/-- A page of host-visible registers: the global page of Table 11.2 or a mailbox page of Table 11.3. -/
inductive Page where
  | global
  | mailbox (mb : Mb)
  deriving DecidableEq, Repr

/-- What one receiver-detection attempt found (Table 2.7, DETECT). -/
inductive Detection where
  | allLanes | someLanes | noLane
  deriving DecidableEq, Repr

/-- The five tables with epochs (R149), in the bit order of TABLES of Table 4.13. -/
inductive TableKind where
  | route | group | endpoint | window | policy
  deriving DecidableEq, Repr

/-- A Patchwork port (R306). -/
inductive PwPort where
  | a | b
  deriving DecidableEq, Repr

/-- How a bus cycle ended (Table 9.6, without YIELDED). -/
inductive BusStatus where
  | ok | busError | noResponse | parity
  deriving DecidableEq, Repr

/-- A cycle of a heritage bus as a master of that bus starts it.
`space` is SPACE of Table 9.5; `am` is the VMEbus address modifier, ignored on PCI. -/
structure BusCycle where
  space   : BitVec 2 := 0
  am      : BitVec 6 := 0
  write   : Bool := false
  rmw     : Bool := false
  addr    : BitVec 64 := 0
  len     : Nat := 1
  /-- BLOCK of Table 9.5: the cycle is part of a block transfer or burst. -/
  block   : Bool := false
  /-- The block transfer is an MBLT. -/
  mblt    : Bool := false
  /-- BEAT of Table 9.5. -/
  beat    : BitVec 2 := 0
  /-- The write data failed parity (R427). -/
  badParity : Bool := false
  /-- A later beat of a block transfer or burst that is already open (R326, R329). -/
  continued : Bool := false
  data    : List Byte := []
  deriving DecidableEq, Repr

/-- A side-band pin (R334). -/
inductive SidebandPin where
  | host (n : BitVec 6)
  | heritage (n : BitVec 6)
  deriving DecidableEq, Repr

/-- The samples of a slot channel (R363): VIN, OUT and VGS in 10 mV, VSENSE signed in 10 µV. -/
structure SlotSample where
  vin    : BitVec 16 := 0
  out    : BitVec 16 := 0
  vgs    : BitVec 16 := 0
  vsense : BitVec 16 := 0
  deriving DecidableEq, Repr

/-- A unit by the kind and INDEX of Table 12.7. -/
structure UnitId where
  kind  : BitVec 4
  index : BitVec 16
  deriving DecidableEq, Repr

/-- What a test engine holds at its end (Table 13.3, R444). -/
structure EngineResult where
  signature  : BitVec 64
  /-- Every compare, including the lane error limit, has passed. -/
  comparesOk : Bool
  failPart   : BitVec 2 := 0
  failAddr   : BitVec 32 := 0
  deriving DecidableEq, Repr

/-- An emulated function of a virtual switch (Table 7.4). -/
inductive EmulatedFn where
  | upstream
  | management
  | vdsp (k : VdspNo)
  | instanceFn (k : VdspNo)
  deriving DecidableEq, Repr

/-- A neighbour entry of a LINK_STATE record (R146). -/
structure Neighbour where
  sw    : BitVec 12
  quad  : BitVec 7
  width : BitVec 5
  deriving DecidableEq, Repr

/-- The contents of a LINK_STATE frame (R146). -/
structure LinkStateRec where
  sw    : BitVec 12
  uid   : BitVec 64
  seq   : BitVec 32
  nbrs  : List Neighbour
  deriving DecidableEq, Repr

/-- A completed exchange of TIME messages with a neighbour (R162): the four time stamps in ps, the neighbour's
fabric time in ns at `t3`, and the grandmaster that the neighbour follows. -/
structure TimeMsg where
  t1     : Int
  t2     : Int
  t3     : Int
  t4     : Int
  timeNs : Nat
  gmPrio : BitVec 8
  gmId   : BitVec 12
  hops   : Nat
  deriving DecidableEq, Repr

/-- The commands and events of the XM5120: one constructor for each row of the table of operations. -/
inductive Instr where
  /-- R374: A write of 1 to DOORBELL of a mailbox page submits the command in CMD, sets BUSY and locks CMD, or sets COLLISION if BUSY is already 1. -/
  | doorbell (mb : Mb)
  /-- R8: A write to a host-visible register field without behaviour of its own acts according to its access code. -/
  | registerWrite (pg : Page) (off : BitVec 12) (v : BitVec 64)
  /-- R375: A write to EVQ_HEAD takes effect only when the new value lies cyclically between the current head and tail. -/
  | evqHeadWrite (mb : Mb) (v : BitVec 6)
  /-- R384: Writing 1 to EVQ_OVERFLOW clears it and zeroes EVQ_LOST. -/
  | evqOverflowClear (mb : Mb)
  /-- R429: Writing 1 to FORCE_STOP stops ALIVE and is classified as a Fatal fault with cause MANAGER_STOP. -/
  | forceStop
  /-- R372: A MEM_READ or MEM_WRITE frame to local endpoint index 0x00 accesses the global page or a mailbox page, or is refused and counted in MB_ACCESS_DENY. -/
  | mailboxFrameAccess (entry : Option PortNo) (f : Frame)
  /-- R390: An SMBus Block Write on the management serial port writes from the pointer into the MB63 or global page, and is discarded if its PEC is wrong. -/
  | serialBlockWrite (ptr : BitVec 16) (data : List Byte) (pecOk : Bool)
  /-- R391: An SMBus Send Byte rings the MB63 doorbell, or requests a wake in Intermission. -/
  | serialSendByte (pecOk : Bool)
  /-- R390: An SMBus Write Word sets the read pointer of the management serial port. -/
  | serialWriteWord (ptr : BitVec 16) (pecOk : Bool)
  /-- R390: An SMBus Block Read returns 240 bytes from the read pointer and advances it by 240. -/
  | serialBlockRead
  /-- R389: A REMOTE_MAILBOX frame at index 0x00 runs its command on the named mailbox or is answered with NOT_PERMITTED or BUSY. -/
  | remoteMailboxReceive (f : Frame)
  /-- R381: A session whose lease runs out closes and raises EV_SESSION_END. -/
  | sessionLeaseExpiry (mb : Mb)
  /-- R408: Returns identity, boot status, switch ID, ID_DEFAULT, uptime and MB_ACCESS_DENY. -/
  | sysQuery (mb : Mb)
  /-- R21: Moves the Ringmaster's home PU. -/
  | sysHomeSet (mb : Mb)
  /-- R373: Adds or removes an entry of the MB0 port list or switch list, optionally saving both to the directory. -/
  | mbAccessSet (mb : Mb)
  /-- R408: Returns entries of the always-on event log from a given ESEQ. -/
  | eventLogRead (mb : Mb)
  /-- R408: Returns the session, lease, subscriptions and notification state of the issuing mailbox. -/
  | mbQuery (mb : Mb)
  /-- R380: Opens a session on the mailbox and returns its token, replacing an open one only with FORCE. -/
  | sessionOpen (mb : Mb)
  /-- R381: Closes the mailbox's session and raises EV_SESSION_END. -/
  | sessionClose (mb : Mb)
  /-- R383: Sets the event groups delivered to the issuing mailbox. -/
  | eventSubscribe (mb : Mb)
  /-- R386: Arms or disarms the notification write of the mailbox. -/
  | notifySet (mb : Mb)
  /-- R77: Sets the mode, width and PCIe settings of a port, or removes it, passing changed quads through Quad Off. -/
  | portConfigure (mb : Mb)
  /-- R66: Brings a port up, down, or retrains it to LOCK or to DETECT. -/
  | portAdmin (mb : Mb)
  /-- R513: Returns a port's stage, width, rate, failure count, last failure reason and LTSSM state. -/
  | portQuery (mb : Mb)
  /-- R85: Returns a lane's FIR taps, phase offset, deskew delay, signal-to-noise estimate, polarity and LIP. -/
  | laneStatus (mb : Mb)
  /-- R69: Fixes a lane's transmit FIR coefficients or returns it to adaptation at the next TRAIN. -/
  | laneFirSet (mb : Mb)
  /-- R78: Controls the PRBS generators and checkers of a lane or port, entering or leaving TEST. -/
  | lanePrbs (mb : Mb)
  /-- R82: Sets or clears a loopback on all lanes of a port. -/
  | laneLoopback (mb : Mb)
  /-- R80: Returns the four lane error counters, optionally clearing them in one receive-clock cycle. -/
  | laneCountersRead (mb : Mb)
  /-- R81: Sets the symbol-error alarm threshold of a lane or all lanes. -/
  | laneAlarmSet (mb : Mb)
  /-- R106: Sets the replay timer, replay limit, leak threshold and NP expiry of a port. -/
  | linkConfig (mb : Mb)
  /-- R113: Sets the VC pools a port advertises at its next EXCHANGE. -/
  | linkCreditSet (mb : Mb)
  /-- R127: Returns a port's link-layer state. -/
  | linkQuery (mb : Mb)
  /-- R125: Returns the link-layer counters, optionally clearing them. -/
  | linkCountersRead (mb : Mb)
  /-- R127: Damages the CRC of a chosen number of outgoing blocks of a chosen kind for test. -/
  | linkErrorInject (mb : Mb)
  /-- R145: Sets switch ID, routing mode, lifetime limit, completion timeout and hash seed. -/
  | fabricConfig (mb : Mb)
  /-- R149: Stages route table entries in managed mode. -/
  | routeWrite (mb : Mb)
  /-- R141: Stages a multipath group's members and buckets in managed mode. -/
  | groupWrite (mb : Mb)
  /-- R144: Stages an address window. -/
  | windowWrite (mb : Mb)
  /-- R130: Stages local endpoint table entries. -/
  | endpointWrite (mb : Mb)
  /-- R149: Commits the staged writes of the named tables and advances their epochs, or is refused with BUSY. -/
  | tableCommit (mb : Mb)
  /-- R149: Drops the staged writes of the named tables. -/
  | tableDiscard (mb : Mb)
  /-- R152: Reports whether an epoch has drained and otherwise arms EV_EPOCH_DRAINED. -/
  | epochWait (mb : Mb)
  /-- R167: Returns committed or staged table entries. -/
  | tableRead (mb : Mb)
  /-- R160: Returns a port's partner record. -/
  | partnerQuery (mb : Mb)
  /-- R146: Returns the LINK_STATE records held and the root. -/
  | topologyQuery (mb : Mb)
  /-- R162: Sets GM_PRIORITY, PPS_IN enable, seconds and per-port ASYM. -/
  | fabricTimeConfig (mb : Mb)
  /-- R163: Returns fabric time, its state, source port and hops to the grandmaster. -/
  | fabricTimeQuery (mb : Mb)
  /-- R165: Returns the fabric counters of a PU, optionally clearing them. -/
  | fabricCountersRead (mb : Mb)
  /-- R160: Maps a port to a slot-power channel in its partner record. -/
  | partnerSlotSet (mb : Mb)
  /-- R199: Returns the state of every middle buffer and the period count. -/
  | carouselQuery (mb : Mb)
  /-- R175: Sets VOQ_LIMIT of a port for chosen VCs. -/
  | voqLimitSet (mb : Mb)
  /-- R183: Sets RES and MAX of every VC in the middle-buffer queues from the next period. -/
  | middleShareSet (mb : Mb)
  /-- R178: Sets P_SHARE and NP_SHARE of a PCIe-mode port for its next link training. -/
  | pcieStoreSet (mb : Mb)
  /-- R197: Returns the Carousel counters of a PU, optionally clearing them. -/
  | carouselCountersRead (mb : Mb)
  /-- R198: Returns a port's buffer high-water marks, optionally resetting them to current occupancy. -/
  | bufferHwmRead (mb : Mb)
  /-- R207: Sets band and weight of the egress queues of a port. -/
  | schedConfig (mb : Mb)
  /-- R212: Sets a queue shaper or the port shaper. -/
  | shaperSet (mb : Mb)
  /-- R221: Configures a meter, taking effect at its next refill. -/
  | meterSet (mb : Mb)
  /-- R213: Maps an input and classes to a meter or removes the mapping. -/
  | meterMapSet (mb : Mb)
  /-- R219: Sets the limit of a penalty queue. -/
  | penaltyQueueSet (mb : Mb)
  /-- R226: Stages a gate list and schedules its start at a cycle boundary at least 10 µs ahead. -/
  | gateListSet (mb : Mb)
  /-- R231: Returns the operational and pending gate lists, current entry and cycle count. -/
  | gateQuery (mb : Mb)
  /-- R231: Returns a meter's levels and counters, optionally clearing the counters. -/
  | meterRead (mb : Mb)
  /-- R230: Returns a port's scheduling counters, optionally clearing them. -/
  | schedCountersRead (mb : Mb)
  /-- R229: Returns the queue or penalty-queue high-water marks, optionally resetting them. -/
  | hwmRead (mb : Mb)
  /-- R511: Makes a partition usable. -/
  | partitionCreate (mb : Mb)
  /-- R235: Returns a partition's resources to partition 0 and clears its grants, staged. -/
  | partitionDestroy (mb : Mb)
  /-- R235: Moves a port, Patchwork port or mailbox to a partition. -/
  | partitionAssign (mb : Mb)
  /-- R272: Sets a partition's isolation level to RESULT or TIMING. -/
  | partitionConfig (mb : Mb)
  /-- R240: Sets or clears GRANT(a, b), staged. -/
  | partitionGrant (mb : Mb)
  /-- R236: Sets a port's TRUST, staged. -/
  | portTrustSet (mb : Mb)
  /-- R275: Returns a partition's resources, level and lapse state. -/
  | partitionQuery (mb : Mb)
  /-- R242: Creates a virtual hierarchy on an upstream PCIe-mode port, staged. -/
  | vhCreate (mb : Mb)
  /-- R275: Removes a VH that has no bindings, staged. -/
  | vhDestroy (mb : Mb)
  /-- R245: Binds or unbinds a vDSP to a target, staged. -/
  | vhBind (mb : Mb)
  /-- R275: Returns a VH's bindings and emulated register state. -/
  | vhQuery (mb : Mb)
  /-- R252: Declares a native port a shared endpoint after reading INSTANCE_CAP, staged. -/
  | sharedEndpointSet (mb : Mb) (cap : Option (BitVec 64))
  /-- R258: Creates an instance with its resource shares, staged. -/
  | instanceCreate (mb : Mb)
  /-- R264: Starts the removal of a QUIESCED or FAILED instance. -/
  | instanceDestroy (mb : Mb)
  /-- R259: Changes an instance's resource shares from the next PUCLK cycle. -/
  | instanceShareSet (mb : Mb)
  /-- R263: Writes QUIESCE_REQ and sets the instance QUIESCING. -/
  | instanceQuiesce (mb : Mb)
  /-- R263: Clears QUIESCE_REQ and returns a quiescing or quiesced instance to ACTIVE. -/
  | instanceResume (mb : Mb)
  /-- R264: Writes RESET_REQ to a QUIESCED instance and sets it RESETTING. -/
  | instanceReset (mb : Mb)
  /-- R265: Puts an instance into RESETTING at once, ending its frames and aborting its outstanding requests. -/
  | instanceResetForce (mb : Mb)
  /-- R257: Writes translation entries of an instance. -/
  | instanceXlateSet (mb : Mb)
  /-- R275: Returns an instance's state, shares, counts and ICB contents. -/
  | instanceQuery (mb : Mb)
  /-- R274: Returns the partition and instance counters of a PU, optionally clearing them. -/
  | partCountersRead (mb : Mb)
  /-- R284: Sets the owning partition of a range of Jugglers, moving foreign descriptor rings off them. -/
  | jugglerAlloc (mb : Mb)
  /-- R304: Returns a Juggler's owner, state, rings and queued work. -/
  | jugglerQuery (mb : Mb)
  /-- R290: Configures a descriptor ring of an instance and places it on a Juggler. -/
  | moverRingSet (mb : Mb)
  /-- R297: Starts, stops or resets a descriptor ring. -/
  | moverRingControl (mb : Mb)
  /-- R304: Returns a descriptor ring's state, HEAD, TAIL, Juggler and work in progress. -/
  | moverRingQuery (mb : Mb)
  /-- R290: Moves a ring to a named eligible Juggler at its next descriptor boundary. -/
  | moverPlace (mb : Mb)
  /-- R303: Returns the counters of a ring or a Juggler, optionally clearing them. -/
  | moverCountersRead (mb : Mb)
  /-- R306: Sets the personality, role and bus settings of a DISABLED Patchwork port, or disables it. -/
  | pwConfig (mb : Mb)
  /-- R308: Moves a Patchwork port's home PU. -/
  | pwHomeSet (mb : Mb)
  /-- R314: Writes a Patchwork window, discarding its prefetch buffers. -/
  | pwWindowSet (mb : Mb)
  /-- R339: Returns Patchwork windows. -/
  | pwWindowRead (mb : Mb)
  /-- R306: Returns a Patchwork port's personality, VDD_HB level, bus state and occupancy. -/
  | pwQuery (mb : Mb)
  /-- R336: Routes a side-band wire or sets a WARN drive, releasing the wire's outputs until the new routing applies. -/
  | sidebandSet (mb : Mb)
  /-- R336: Returns the routing and sampled levels of all side-band wires. -/
  | sidebandQuery (mb : Mb)
  /-- R332: Drives SYSRESET* or RST# for 200 ms and ends the port's outstanding work. -/
  | pwBusReset (mb : Mb)
  /-- R338: Returns the Patchwork counters of a port, optionally clearing them. -/
  | pwCountersRead (mb : Mb)
  /-- R366: Sets a slot channel's settings. -/
  | slotConfig (mb : Mb)
  /-- R367: Applies ON, OFF, CLEAR, CLEAR_LOCKOUT or RETRY_NOW to a slot channel. -/
  | slotPower (mb : Mb)
  /-- R365: Returns a slot channel's state, cause, retry count, timers, outputs and samples. -/
  | slotQuery (mb : Mb)
  /-- R368: Sets WARN_LEVEL, RESET_LEVEL, START_LIMIT and STAGGER_GAP. -/
  | slotBusConfig (mb : Mb)
  /-- R365: Returns VFEED, the lowest VFEED since the last query, and warning and cut state. -/
  | slotBusQuery (mb : Mb)
  /-- R361: Sets Attention Button Pressed of the vDSP mapped to a channel. -/
  | slotAttention (mb : Mb)
  /-- R369: Saves all channel and bus settings to the slot profile in flash. -/
  | slotProfileSave (mb : Mb)
  /-- R363: Returns a channel's or the bus counters, optionally clearing them. -/
  | slotCountersRead (mb : Mb)
  /-- R434: Returns the first-fault record, FIRST_FATAL, FFR_LEVEL and log summary. -/
  | faultQuery (mb : Mb)
  /-- R420: Returns fault records from a given FRSEQ. -/
  | faultLogRead (mb : Mb)
  /-- R421: Re-arms the first-fault record, clears the log or sets FFR_LEVEL. -/
  | faultClear (mb : Mb)
  /-- R413: Sets the severity of one error for later classifications. -/
  | faultSeveritySet (mb : Mb)
  /-- R424: Fences a unit as a MANAGER_FENCE error. -/
  | faultFence (mb : Mb)
  /-- R426: Re-initialises a fenced unit, restores its tables and returns it to service. -/
  | faultRelease (mb : Mb)
  /-- R434: Lists fenced units with the source and error that fenced them. -/
  | fenceQuery (mb : Mb)
  /-- R416: Returns an unsupervised source to supervision. -/
  | faultSupervise (mb : Mb)
  /-- R435: Raises an error at a source for test, with or without a report. -/
  | faultInject (mb : Mb)
  /-- R423: Sets a fault forward GEID. -/
  | faultForwardSet (mb : Mb)
  /-- R433: Returns the safety-net counters, optionally clearing them. -/
  | faultCountersRead (mb : Mb)
  /-- R439: Starts a self-test of a named unit, which begins isolating it. -/
  | bistStart (mb : Mb)
  /-- R445: Aborts a test in progress with cause COMMAND. -/
  | bistAbort (mb : Mb)
  /-- R443: Returns the result record of a unit. -/
  | bistQuery (mb : Mb)
  /-- R447: Removes an unusable mark, re-initialises the unit and returns it to service. -/
  | bistUnmark (mb : Mb)
  /-- R458: Lists units marked unusable or under test. -/
  | bistList (mb : Mb)
  /-- R451: Writes performance-monitor counter control words and PRELOAD values. -/
  | pmonConfig (mb : Mb)
  /-- R458: Returns a monitor's live values, optionally clearing them. -/
  | pmonRead (mb : Mb)
  /-- R455: Freezes or unfreezes named monitors on arrival. -/
  | pmonFreeze (mb : Mb)
  /-- R456: Schedules a timed snapshot of all monitors and marks at a fabric time T. -/
  | pmonSnapshot (mb : Mb)
  /-- R457: Returns a monitor's or a port's snapshot bank. -/
  | pmonSnapshotRead (mb : Mb)
  /-- R453: Returns and removes the oldest sample records of a monitor. -/
  | pmonSampleRead (mb : Mb)
  /-- R482: Sleeps, wakes, powers off or on a port, quad or Ring, or enters Intermission. -/
  | pwrStateSet (mb : Mb)
  /-- R481: Returns a power state and sleep counters. -/
  | pwrQuery (mb : Mb)
  /-- R461: Completes and schedules a warm reset 1 ms later. -/
  | sysReset (mb : Mb)
  /-- R463: Moves work out of a Ring, takes its ports down, drains and resets it and restores it. -/
  | ringReset (mb : Mb)
  /-- R465: Takes a port down with ADMIN and resets its lanes and link layer. -/
  | portReset (mb : Mb)
  /-- R464: Performs a virtual-hierarchy reset of a VH. -/
  | vhReset (mb : Mb)
  /-- R460: Restarts the booth controller by command. -/
  | boothRestart (mb : Mb)
  /-- R476: Sets the enabled wake sources and WAKE_TIMER. -/
  | wakeConfig (mb : Mb)
  /-- R481: Sets IDLE_SLEEP and NO_SLEEP of a native port. -/
  | sleepConfig (mb : Mb)
  /-- R408: Returns the state of both images, ACTIVE, TRIAL_IMAGE and the fused minimum SVN. -/
  | fwQuery (mb : Mb)
  /-- R403: Erases an image slot for a new image. -/
  | fwWriteBegin (mb : Mb)
  /-- R403: Programs the next piece of an image. -/
  | fwWrite (mb : Mb)
  /-- R403: Reads back and verifies the written image. -/
  | fwWriteEnd (mb : Mb)
  /-- R402: Restarts into the checked image or marks it for trial at the next reset. -/
  | fwActivate (mb : Mb)
  /-- R404: Makes the running trial image ACTIVE, optionally burning its SVN. -/
  | fwConfirm (mb : Mb)
  /-- R398: Starts a weft reset into the running image. -/
  | fwRestart (mb : Mb)
  /-- R408: Returns bytes of the calibration store. -/
  | calRead (mb : Mb)
  /-- R406: Writes bytes within one calibration section and recomputes its CRC. -/
  | calWrite (mb : Mb)
  /-- R407: Returns a piece of the signed calibration blob, snapshotting at offset 0. -/
  | calExport (mb : Mb)
  /-- R407: Takes a piece of a calibration blob and on the last piece verifies and writes the store. -/
  | calImport (mb : Mb)
  /-- R61: A receiver detection attempt on every lane of a native port, every 12 ms or after 1 s waits, entering TRAIN when all detect. -/
  | detectAttempt (p : PortNo) (found : Detection)
  /-- R68: A valid training control word is acted on: tap or preset requests applied and RX_READY tracked toward LOCK. -/
  | trainingFrameReceive (ln : LaneNo) (w : BitVec 128)
  /-- R61: The forwarded clock is not locked within 1 ms of TRAIN and the port returns to DETECT with CLOCK_LANE_NO_LOCK. -/
  | forwardedClockLockTimeout (p : PortNo)
  /-- R61: TRAIN exceeds 40 ms and the port returns to DETECT. -/
  | trainTimeout (p : PortNo)
  /-- R62: Eight consecutive correctable codewords declare FEC lock on a lane. -/
  | fecLock (ln : LaneNo)
  /-- R59: A marker codeword places and deskews its lane, or ends LOCK on skew or lane order. -/
  | alignmentMarkerReceive (ln : LaneNo) (lip : BitVec 4) (arrival : Nat)
  /-- R61: Locked, deskewed and RETRAIN 0 in 16 codewords, LOCK moves to EXCHANGE or ACTIVE. -/
  | lockComplete (p : PortNo)
  /-- R54: LOCK exceeds 2 ms and the port returns to DETECT with the failure reason. -/
  | lockTimeout (p : PortNo)
  /-- R62: Four consecutive uncorrectable codewords lose FEC lock and retrain the port. -/
  | fecLockLoss (ln : LaneNo)
  /-- R58: Four consecutive codewords failing the CWIDX checks retrain the port with SKEW_EXCEEDED. -/
  | deskewLoss (ln : LaneNo)
  /-- R54: No clock-lane edge for 10 ns retrains the port and reports a lane error. -/
  | clockLaneLoss (q : QuadNo)
  /-- R61: Loss of signal on a data lane for 1 µs ends TRAIN, LOCK or EXCHANGE with DETECT_PARTIAL. -/
  | lossOfSignal (ln : LaneNo)
  /-- R63: RETRAIN = 1 in two consecutive correctable codewords in ACTIVE retrains the port. -/
  | retrainSignalReceive (p : PortNo)
  /-- R70: Every 1 µs in EXCHANGE, and after ACTIVE until a non-exchange block arrives, the port sends its exchange record. -/
  | exchangeRecordSend (p : PortNo)
  /-- R71: A valid partner record is checked for compatibility and self-loop and, with PEER_SEEN, moves the port to ACTIVE. -/
  | exchangeBlockReceive (p : PortNo) (pl : BlockPayload)
  /-- R61: EXCHANGE exceeds 1 ms and the port returns to DETECT. -/
  | exchangeTimeout (p : PortNo)
  /-- R123: After a link down, entry to ACTIVE waits until lifetime/255 has passed since the incarnation changed. -/
  | linkUpHoldoffEnd (p : PortNo)
  /-- R97: No non-exchange block within 1 ms of ACTIVE takes the link down with PROTOCOL. -/
  | firstBlockTimeout (p : PortNo)
  /-- R65: After 16 consecutive failures, the port waits 1 s in DETECT before each further attempt. -/
  | trainFailWaitEnd (p : PortNo) (found : Detection)
  /-- R81: At the end of each 1 s window a lane compares symbol errors with its threshold and raises or clears the alarm. -/
  | serAlarmWindow (ln : LaneNo)
  /-- R73: Fast retrain not reaching ACTIVE within 120 µs sends the port to LOCK as a retrain. -/
  | fastRetrainTimeout (p : PortNo)
  /-- R73: Both sides show RETRAIN 0 for 16 codewords and the port returns to ACTIVE from Quad Sleep. -/
  | fastRetrainComplete (p : PortNo)
  /-- R78: The PRBS checker compares received symbols with the pattern and counts errors. -/
  | prbsCheck (ln : LaneNo) (errs : List Nat)
  /-- R76: The PCI Express data link layer reports link down or training fails on a PCIe-mode port. -/
  | pcieLinkDown (p : PortNo) (training : Bool) (ltssm : BitVec 6)
  /-- R110: Before each block slot the sender chooses and sends the first eligible block of Table 3.7. -/
  | transmitBlockSlot (p : PortNo)
  /-- R101: A good DATA block is stored, discarded as duplicate or out of window, and in-order blocks move to VC buffers. -/
  | dataBlockReceive (p : PortNo) (h : BitVec 64) (pl : BlockPayload)
  /-- R90: A block with bad CRC or flagged words is discarded whole and counted. -/
  | badBlockReceive (p : PortNo)
  /-- R104: A good IDLE block's ACKSEQ, credit return, VC_EMPTY and HIGH are acted on. -/
  | idleBlockReceive (p : PortNo) (h : BitVec 64)
  /-- R105: A NAK queues retransmissions of requested SEQs still unacknowledged. -/
  | nakBlockReceive (p : PortNo) (h : BitVec 64) (pl : BlockPayload)
  /-- R114: A CREDIT block adds returned credits or, with SYNC, resets counts and triggers the post-retrain resend. -/
  | creditBlockReceive (p : PortNo) (h : BitVec 64) (pl : BlockPayload)
  /-- R91: A good block of a reserved type is discarded and counted. -/
  | reservedTypeBlockReceive (p : PortNo) (h : BitVec 64)
  /-- R106: The replay timer expires and the oldest unacknowledged block is queued for retransmission or the port retrains at the limit. -/
  | replayTimerExpiry (p : PortNo)
  /-- R112: A credit return pending for 100 ns makes a CREDIT block due. -/
  | creditReturnDue (p : PortNo)
  /-- R117: After a retrain each side sends a CREDIT block with SYNC every 1 µs until it sees SYNC_SEEN. -/
  | syncSend (p : PortNo)
  /-- R117: No SYNC within 100 µs of return to ACTIVE retrains again, or takes the link down on the second time. -/
  | syncTimeout (p : PortNo)
  /-- R121: An outstanding-request entry older than NP expiry is removed and counted. -/
  | npExpiry (p : PortNo) (req : Geid) (tag : BitVec 12)
  /-- R137: A tag in use for the completion timeout ends its request with a TIMEOUT completion. -/
  | completionTimeout (requester : Geid) (tag : BitVec 12)
  /-- R138: A completion reaching its requester ends or continues the request, or is discarded as unexpected. -/
  | completionReceive (f : Frame)
  /-- R140: When a frame's FIRST block reaches the cell store the ingress pipeline sets PARTITION, routes, checks and meters it. -/
  | frameLookup (src : SrcNo) (vc : VcNo)
  /-- R174: A looked-up frame is admitted to its VOQ once its LAST block has arrived and the VOQ has room. -/
  | voqAdmit (src : SrcNo) (vc : VcNo)
  /-- R26: A table commit takes effect in a PU between two lookups. -/
  | commitInEffect (pu : PuNo)
  /-- R179: In each Carousel slot each input sends at most one eligible cell to the middle buffer it faces. -/
  | firstStageSlot
  /-- R171: In each slot each middle buffer sends the oldest cell for the open output it faces, marking its STATE. -/
  | secondStageSlot
  /-- R185: At each period start the outputs of each egress port open or close by pool room. -/
  | periodStart
  /-- R188: A cell at an output is discarded, held or released by the resequencer and frames go to the egress scheduler. -/
  | outputCellArrival (o : PuNo)
  /-- R191: A gap not filled within 16 open periods is skipped and its frames ended as FENCED, with overrun reported if applicable. -/
  | reseqGapSkip (p : PortNo) (src : SrcNo) (vc : VcNo)
  /-- R194: A draining middle buffer becomes skipped when empty or after 16 periods. -/
  | middleBufferDrainEnd (m : MidNo)
  /-- R195: A skipped middle buffer returns to service at a period start. -/
  | middleBufferReturn (m : MidNo)
  /-- R425: 16 periods after an input is fenced, egress PUs discard its incomplete frames and reset its flows. -/
  | fencedInputCleanup (pu : PuNo)
  /-- R204: At each frame boundary the scheduler chooses the next frame by MQ, shapers, bands and round robin. -/
  | egressFrameBoundary (p : PortNo) (fc : BitVec 3)
  /-- R209: Every 256 PUCLK cycles each shaper and meter bucket is refilled. -/
  | bucketRefill
  /-- R219: A frame waiting at its ingress VC head joins a penalty queue when room frees. -/
  | penaltyQueueAdmit (src : SrcNo) (vc : VcNo)
  /-- R222: A gate list entry interval ends and the next entry's bitmap takes effect. -/
  | gateEntryChange (p : PortNo)
  /-- R227: At its start time a pending gate list replaces the operational one and EV_GATE_STARTED is raised. -/
  | gateListStart (p : PortNo)
  /-- R249: A held tunnel completion or non-posted frame enters its egress queue on LASTP, a newer posted frame or ORDER_WAIT. -/
  | orderHoldRelease (p : PortNo) (uid : Nat)
  /-- R147: 10 ms after the last topology change Efnuquin computes up*/down* routes and commits them. -/
  | routeComputation
  /-- R147: A route commit refused with BUSY is retried every 1 ms. -/
  | routeCommitRetry
  /-- R146: A switch floods LINK_STATE frames on each change and every 1 s. -/
  | linkStateSend
  /-- R146: A received LINK_STATE frame is stored and forwarded if newer, or flags a switch ID conflict. -/
  | linkStateReceive (p : PortNo) (r : LinkStateRec)
  /-- R146: A LINK_STATE record not renewed for 3.5 s is aged out. -/
  | linkStateAgeOut (sw : BitVec 12)
  /-- R152: The last frame of an awaited epoch leaves or ends and EV_EPOCH_DRAINED is raised. -/
  | epochDrained (tab : TableKind) (e : BitVec 2)
  /-- R162: Every 1 ms each native link exchanges sync and delay messages. -/
  | timeSyncExchange (p : PortNo)
  /-- R163: A TIME message updates link delay and steps or slews fabric time toward the source. -/
  | timeMessageReceive (p : PortNo) (m : TimeMsg)
  /-- R164: A PPS_IN rising edge steps or steers a grandmaster's time, or wakes the module if enabled. -/
  | ppsInEdge
  /-- R164: PPS_OUT rises at each whole second of fabric time for 100 ms. -/
  | ppsOutSecond
  /-- R280: A Juggler carries out a step of at most 512 JCLK cycles of its highest-priority work. -/
  | jugglerStep (j : JugglerNo)
  /-- R288: A 4-byte MEM_WRITE to index 0x03 sets a ring's TAIL or is discarded. -/
  | moverDoorbell (f : Frame)
  /-- R294: A completion to index 0x03 ends a descriptor fetch, chunk read or flush read and advances or fails the descriptor. -/
  | moverCompletionReceive (f : Frame)
  /-- R263: Every 10 µs Efnuquin checks the quiesce conditions and sets QUIESCED or reports QUIESCE_TIMEOUT. -/
  | quiesceCheck (p : PortNo) (id : BitVec 8) (icbQuiesced : Bool) (timedOut : Bool)
  /-- R264: The endpoint clears RESET_REQ and the instance's configuration, translations and counts reset. -/
  | resetReqCleared (p : PortNo) (id : BitVec 8)
  /-- R266: RESET_REQ not cleared within RESET_TIMEOUT puts the instance in FAILED and fences it. -/
  | resetTimeout (p : PortNo) (id : BitVec 8)
  /-- R265: Once RESET_REQ is cleared and the lifetime limit has passed, a forced reset instance proceeds to ACTIVE. -/
  | resettingLifetimePass (p : PortNo) (id : BitVec 8)
  /-- R246: A TLP from a host is wrapped and routed by the vDSP windows and bindings of its VH. -/
  | hostTlpWrap (p : PortNo) (t : Tlp)
  /-- R247: A TLP from a bound target is wrapped and routed peer-to-peer or to the upstream port under ACS. -/
  | targetTlpWrap (p : PortNo) (inst : BitVec 12) (t : Tlp)
  /-- R244: A configuration request to an emulated function is completed, forwarded or refused by the vDSP binding. -/
  | configEmulation (vh : VhNo) (fn : EmulatedFn) (reg : BitVec 12) (wr : Option (BitVec 32)) (poison : Bool)
  /-- R361: A host Slot Control write acts on the mapped slot channel and sets Command Completed. -/
  | slotControlWrite (vh : VhNo) (k : VdspNo) (v : BitVec 16)
  /-- R251: A Secondary Bus Reset on a vDSP resets that vDSP's target. -/
  | secondaryBusReset (vh : VhNo) (k : VdspNo)
  /-- R464: A hot reset or link down on an upstream port causes a virtual-hierarchy reset. -/
  | hotResetReceive (p : PortNo)
  /-- R250: A non-SUCCESS completion for a host becomes a PCI Express completion and is logged in AER. -/
  | completionUnwrap (p : PortNo) (f : Frame)
  /-- R310: A frame at a Patchwork port enters the cycle store, answers an inbound request or is ended. -/
  | patchworkFrameReceive (x : PwPort) (f : Frame)
  /-- R319: The head record of the cycle store runs as bus cycles once the port wins the bus. -/
  | outboundCycleRun (x : PwPort)
  /-- R321: A bus cycle of a sequence ends, continuing the sequence or ending it on error. -/
  | busCycleEnd (x : PwPort) (st : BusStatus) (data : List Byte)
  /-- R316: A bus cycle claimed by an inbound window becomes a fabric request or tunnel record. -/
  | inboundCycleClaim (x : PwPort) (c : BusCycle)
  /-- R329: An inbound write is acknowledged once in the inbound buffer and merged into a MEM_WRITE. -/
  | inboundWrite (x : PwPort) (c : BusCycle)
  /-- R325: An inbound read takes a transaction entry and issues a fabric read, holding DTACK* or signalling Retry. -/
  | inboundRead (x : PwPort) (c : BusCycle)
  /-- R324: An inbound VMEbus RMW is carried as a MEM_READ then a posted MEM_WRITE. -/
  | inboundRmw (x : PwPort) (c : BusCycle)
  /-- R325: A PCI master repeating a delayed read receives its data. -/
  | pciDelayedRepeat (x : PwPort) (c : BusCycle)
  /-- R325: Delayed read data not collected within 2^15 PBCLK cycles is discarded. -/
  | delayedDiscardTimeout (x : PwPort) (entry : BitVec 8)
  /-- R330: A VMEbus port blocked for YIELD_TIME ends the inbound read with BERR* or raises EV_PW_CROSSING. -/
  | yieldTimeout (x : PwPort) (blockedNs : BitVec 32)
  /-- R327: A prefetch buffer older than PREFETCH_HOLD is discarded. -/
  | prefetchHoldExpiry (x : PwPort) (buf : BitVec 5)
  /-- R327: A bus write overlapping a prefetch buffer discards it. -/
  | busWriteObserved (x : PwPort) (space : BitVec 2) (addr : BitVec 64) (len : Nat)
  /-- R332: SYSRESET* or RST# on the bus ends the port's outstanding work and raises EV_PW_BUS_RESET. -/
  | heritageBusReset (x : PwPort)
  /-- R332: The 200 ms drive of SYSRESET* or RST# by PW_BUS_RESET ends. -/
  | pwBusResetEnd (x : PwPort)
  /-- R332: Loss of VDD_HB ends the port's outstanding work and raises EV_PW_SUPPLY. -/
  | vddHbLoss (x : PwPort)
  /-- R334: A side-band input level change propagates to the routed output within 15 ns. -/
  | sidebandInputChange (pin : SidebandPin) (asserted : Bool)
  /-- R352: PRSNT_N changes level, moving INSERTING and EMPTY, asserting PFW_N and starting absence or debounce counts. -/
  | presenceChange (c : ChanNo) (high : Bool)
  /-- R348: PRSNT_N low for 250 ms with hold-off expired moves INSERTING to READY with PRESENT 1. -/
  | insertionDebounceEnd (c : ChanNo)
  /-- R352: PRSNT_N high for 100 ms declares absence, turns gates off and sets the hold-off. -/
  | absenceDeclared (c : ChanNo)
  /-- R352: PFW_N is released 2 ms after PRSNT_N returns low before absence. -/
  | pfwReleaseDelayEnd (c : ChanNo)
  /-- R353: The hold-off of a re-inserted channel expires. -/
  | holdOffExpiry (c : ChanNo)
  /-- R358: A pending start request is granted and the channel enters PRECHARGE. -/
  | startGrant
  /-- R348: VIN − OUT reaches 2 V and the channel enables QM and enters GATE_RISE. -/
  | prechargeComplete (c : ChanNo)
  /-- R348: PRECHARGE_MAX passes and the channel trips. -/
  | prechargeTimeout (c : ChanNo)
  /-- R348: VGS reaches 7 V and the channel turns QP off and enters STABILISING. -/
  | gateRiseComplete (c : ChanNo)
  /-- R351: VGS fails to reach 7 V within 2 ms and the channel enters LOCKOUT. -/
  | gateNoRise (c : ChanNo)
  /-- R349: The stable count reaches PG_DELAY and PG is asserted. -/
  | powerGood (c : ChanNo)
  /-- R348: STABILISING exceeds PG_DELAY + BREAKER + 100 ms and the channel trips. -/
  | stabiliseTimeout (c : ChanNo)
  /-- R349: VSENSE exceeds V_LIM, starting the breaker timer and dropping PG from ON. -/
  | breakerTimerStart (c : ChanNo)
  /-- R344: VSENSE below 0.9 × V_LIM stops the breaker timer. -/
  | breakerReset (c : ChanNo)
  /-- R348: The breaker timer reaches BREAKER and the channel trips. -/
  | breakerExpiry (c : ChanNo)
  /-- R342: VSENSE at 2 × V_LIM turns both gates off within 1 µs. -/
  | fastTrip (c : ChanNo)
  /-- R348: VGS below 7 V for 100 µs in ON trips the channel. -/
  | gateLoss (c : ChanNo)
  /-- R355: PFW_LEAD passes in WARN_OFF and the gates turn off. -/
  | pfwLeadExpiry (c : ChanNo)
  /-- R350: The off-time passes and the channel enters READY and requests a start. -/
  | retryWaitExpiry (c : ChanNo)
  /-- R351: PG high for 10 s clears the retry count. -/
  | retryCountClear (c : ChanNo)
  /-- R356: VFEED below WARN_LEVEL for 20 µs asserts the input-bus warning. -/
  | inputBusWarning (vfeed : BitVec 16)
  /-- R356: VFEED at or above WARN_LEVEL + 1 V for 2 ms releases the warning. -/
  | warningRelease (vfeed : BitVec 16)
  /-- R357: VFEED below RESET_LEVEL for 5 µs cuts every starting or ON channel. -/
  | busCut (vfeed : BitVec 16)
  /-- R357: VFEED held for 100 ms moves BUS_CUT channels to READY. -/
  | busRecovery (vfeed : BitVec 16)
  /-- R363: Every 100 µs VIN, OUT, VSENSE, VGS and VFEED are sampled. -/
  | slotSample (c : ChanNo) (x : SlotSample) (vfeed : BitVec 16)
  /-- R359: The booth controller resumes after a restart and resolves each channel's state. -/
  | boothResume (prsnt : BitVec 48) (vfeed : BitVec 16)
  /-- R359: 50 ms into a booth restart the gate latches release and all gates turn off. -/
  | latchRelease
  /-- R466: The booth watchdog not refreshed for 20 ms restarts the booth controller. -/
  | boothWatchdogExpiry
  /-- R414: An error source detects an error, drives its pair to 0b10 and queues or merges a report. -/
  | errorDetect (src : BitVec 12) (code : BitVec 8) (detail : BitVec 64)
  /-- R418: The collector sees a pair change to 0b10 and takes the record time. -/
  | pairChangeSeen (src : BitVec 12)
  /-- R418: A fault report arriving over the weft is classified, logged and reacted to. -/
  | faultReportClassify (src : BitVec 12) (code : BitVec 8)
  /-- R418: No report within 500 ns of a pair change is classified PAIR_ONLY at the fallback severity. -/
  | pairOnlyTimeout (src : BitVec 12)
  /-- R416: A pair invalid for more than 2 WCLK cycles logs WIRE_FAULT and makes the source unsupervised. -/
  | wireFault (src : BitVec 12)
  /-- R420: 1 ms after a record, merged occurrences are written as one record. -/
  | mergeIntervalEnd (src : BitVec 12) (code : BitVec 8)
  /-- R423: A FAULT frame at index 0x00 raises EV_REMOTE_FAULT. -/
  | faultFrameReceive (f : Frame)
  /-- R430: Every 12,500 ACLK cycles a running ALIVE changes level. -/
  | aliveToggle
  /-- R432: Efnuquin refreshes the liveness watchdog at least every 10 ms. -/
  | livenessRefresh
  /-- R432: The liveness watchdog expires after 100 ms, logs LIVENESS_EXPIRED and stops ALIVE. -/
  | livenessExpiry
  /-- R439: Isolation of a test target completes and the test engine starts. -/
  | bistIsolationComplete (u : UnitId)
  /-- R444: The test engine ends and the signature is compared, giving PASS or FAIL. -/
  | bistEngineEnd (u : UnitId) (r : EngineResult)
  /-- R439: Re-initialisation completes, isolation is lifted and EV_BIST_DONE is raised. -/
  | bistReinitComplete (u : UnitId)
  /-- R438: A PU target not empty within the lifetime limit plus 1 ms ends ABORTED with NOT_IDLE. -/
  | bistNotIdleTimeout (u : UnitId)
  /-- R453: A programmable counter wraps, sets OVF, reloads and optionally writes a sample record. -/
  | pmonCounterWrap (mon : BitVec 9) (k : BitVec 3) (cycles : BitVec 64) (ctx : BitVec 128)
  /-- R456: At time T every monitor and mark is captured into the snapshot bank. -/
  | snapshotCapture
  /-- R460: VDD_AO and VDD_SV reach regulation and the module starts the power-on sequence. -/
  | powerOn
  /-- R460: PWRON_RST_N low for 10 µs resets the core die, chiplets and Selvedge logic. -/
  | coldReset
  /-- R461: SYS_RST_N low or a scheduled SYS_RESET resets the core die and lane chiplets. -/
  | warmReset
  /-- R495: VDD_AO or VDD_SV below 90 % for 5 µs holds the Selvedge in reset. -/
  | supplyBrownout
  /-- R2: Every 1 s an XM5120-LC-C checks the Selvedge temperature and starts sequencing at 0 °C or above. -/
  | coldHoldCheck (temp : Int)
  /-- R469: Every 1 s the pre-heat step checks the temperature and ends at 0 °C or above. -/
  | preheatCheck (temp : Int)
  /-- R469: Pre-heat not ended within 600 s switches rails off and restarts it after 60 s. -/
  | preheatTimeout
  /-- R467: A rail's PWR_OK rises and the next rail is enabled 1 ms later. -/
  | railPowerGood (r : RailNo)
  /-- R468: A rail's PWR_OK not risen within 10 ms ends the sequence and raises EV_PWR_SEQ_FAIL. -/
  | railPowerGoodTimeout (r : RailNo)
  /-- R468: 1 s after a failed or lost sequence the booth controller sequences again. -/
  | railSequenceRetry
  /-- R468: A PWR_OK that falls while the core die runs switches every rail off. -/
  | railPowerFail (r : RailNo)
  /-- R395: With rails up and REFCLK_CORE present the booth controller releases the core die, starting boot. -/
  | coreRelease
  /-- R396: The boot ROM chooses the trial or active image, verifies it and falls back or enters RECOVERY. -/
  | imageSelect (flashOk : Bool)
  /-- R395: Boot completes, AVAILABLE is set, ALIVE starts and EV_BOOT_COMPLETE is raised. -/
  | bootReady
  /-- R400: After a weft reset Efnuquin reads tables back, delivers logged events and raises EV_FW_RESTARTED. -/
  | weftResetEnd
  /-- R463: 16 periods after a Ring leaves reset its PUs stop discarding output cells. -/
  | ringResetDiscardEnd (r : RingNo)
  /-- R474: The data path empties or the lifetime limit passes, the retention store is written and rails switch off. -/
  | intermissionDrainEnd
  /-- R476: A filtered falling edge on WAKE_N wakes the module from Intermission. -/
  | wakeNEdge
  /-- R476: WAKE_TIMER seconds after entry wake the module. -/
  | wakeTimerExpiry
  /-- R471: No DATA block for IDLE_SLEEP makes a side send SLEEP_REQ. -/
  | idleSleepTimeout (p : PortNo)
  /-- R471: A POWER block advances the Quad Sleep handshake. -/
  | powerBlockReceive (p : PortNo) (h : BitVec 64) (pl : BlockPayload)
  /-- R471: No answer within 10 µs or no SLEEP_GO within 100 µs abandons the sleep entry. -/
  | sleepAnswerTimeout (p : PortNo)
  /-- R471: 1 ms after a SLEEP_NAK the requester may send SLEEP_REQ again. -/
  | sleepNakBackoffEnd (p : PortNo)
  /-- R473: A wake pulse on the clock lane starts fast retrain within 2 µs. -/
  | wakePulseDetect (p : PortNo)
  /-- R473: A frame for a sleeping port drives a wake pulse and starts fast retrain. -/
  | sleepWake (p : PortNo)
  /-- R497: Every 20 µs the governor measures power and applies or releases steps. -/
  | governorMeasure (milliwatts : Nat)
  /-- R493: Every 100 ms the governor sets VID from coefficients and temperature. -/
  | vidUpdate
  /-- R499: The governor adds or removes throttle steps by junction temperature and trips at 115 °C. -/
  | thermalCheck (tj : Int)
  /-- R494: A rail more than 5 % outside its range for 10 µs raises Fatal RAIL_FAULT. -/
  | railFault (r : RailNo)
  /-- R503: No REFCLK_AO edge for 2 µs moves ACLK to the RC backup. -/
  | refclkAoLoss
  /-- R503: 1 ms of clean REFCLK_AO edges returns ACLK to it. -/
  | refclkAoReturn
  /-- R503: Loss of a Ring's lane or PCIe reference makes each PU of the Ring raise REFCLK_LOSS. -/
  | refclkLoss (r : RingNo)
  /-- R503: No REFCLK_CORE edge for 10 µs is handled as a falling PWR_OK. -/
  | refclkCoreLoss
  /-- R505: A valid unlock token shifted into the TAP unlocks it until the next power-on or cold reset. -/
  | jtagUnlock (token : BitVec 768)
  /-- R76: The PCI Express data link layer of a PCIe-mode port reports link up, and the port reaches L0 with LINK_UP set, EV_LINK_UP and EV_PARTNER_CHANGE. -/
  | pcieLinkUp (p : PortNo) (width : BitVec 5) (rate : BitVec 3) (ltssm : BitVec 6) (host : Bool)
  /-- R332: The VDD_HB rail of a Patchwork port returns, raising EV_PW_SUPPLY with the rail present and its level. -/
  | vddHbReturn (x : PwPort) (fiveVolt : Bool)
  /-- R332: The VMEbus bus timer of a port that is system controller expires on an unanswered cycle, ending it with BERR* and reporting BUS_TIMER. -/
  | busTimerExpiry (x : PwPort)
  /-- R316: The bus host runs a configuration cycle to the Patchwork port's PCI device function, writing BARs or Memory Space Enable that move or disable the tied inbound windows. -/
  | deviceConfigCycle (x : PwPort) (reg : BitVec 8) (wr : Option (BitVec 32))
  /-- R309: A record in a Patchwork cycle store whose bus cycle has not started reaches the lifetime limit and is ended as lifetime. -/
  | cycleStoreLifetimeExpiry (x : PwPort)
  /-- R467: During orderly power-down a rail's PWR_OK falls, and the booth controller disables the next rail 1 ms later, the last one leaving the core die off. -/
  | railPwrOkFall (r : RailNo)
  /-- R469: 60 s after a pre-heat timeout the booth controller starts the pre-heat step again. -/
  | preheatRetry
  /-- R503: REFCLK_CORE is still absent 100 ms after the last rail's PWR_OK, and the booth controller treats it as a failed sequence. -/
  | refclkCoreStartTimeout
  deriving DecidableEq, Repr

end Sys2Proof
end

