-- ==== Sys2Proof/Config.lean ====
section
/-!
DEFINITION. What the manual leaves open, as constants without a body: nothing can be proved of their values.
Each is named in a log entry; a statement that holds of the machine holds for every value of them.
-/

namespace Sys2Proof

/-- The n-th free value: a value that the manual does not fix, drawn by a step that counts `State.free` up (log entry 2).
No body: DESIGN CHOICE that it is free; safe. -/
opaque Config.freeWord : Nat → BitVec 64

/-- SHA-384 of a byte string (R394, R407). The algorithm is outside the manual; safe. -/
opaque Config.sha384 : List Byte → BitVec 384

/-- ECDSA P-384 verification of a signature (second) over a digest (third) under a public key (first) (R394, R407, R505). Safe. -/
opaque Config.ecdsaVerify : BitVec 768 → BitVec 384 → BitVec 768 → Bool

/-- ECDSA P-384 signature of a digest by the module's device key (R407). Safe. -/
opaque Config.deviceSign : BitVec 384 → BitVec 768

/-- The public half of the module's device key (R407). Safe. -/
opaque Config.deviceKey : BitVec 768
/-- The digest of the image signing key, fused at manufacture (R394). Safe. -/
opaque Config.imageKeyHash : BitVec 384
/-- The Sahxus calibration key, whose hash is fused (R407). Safe. -/
opaque Config.calibrationKey : BitVec 768
/-- The Sahxus key that signs JTAG unlock tokens (R505). Safe. -/
opaque Config.unlockKey : BitVec 768

/-- The byte offsets of the fields of an image header within its 4 KiB (R394): the manual lists the fields and gives no places.
0 MAGIC, 1 FORMAT, 2 VERSION, 3 SVN, 4 LENGTH, 5 HITLESS_MIN, 6 BODY_HASH, 7 PUBKEY, 8 SIGNATURE. Safe. -/
opaque Config.imageField : Fin 9 → Nat

/-- The byte of the calibration store at an address as manufacture wrote it (R405). Safe. -/
opaque Config.calFactory : Nat → Byte

/-- The calibration blob's 256-byte header for a NODE_UID and write count (R407): the manual gives its contents and no layout. Safe. -/
opaque Config.calHeader : BitVec 64 → Nat → List Byte

/-- The CRC-32 of a byte string (R405): the manual does not give the polynomial. Safe. -/
opaque Config.crc32 : List Byte → BitVec 32

/-- The TLP that a byte string spells: a layout of the PCI Express Base Specification. Safe. -/
opaque Config.tlpOfBytes : List Byte → Option Tlp
/-- The bytes of a TLP, header first. Safe. -/
opaque Config.tlpBytes : Tlp → List Byte

/-- The payload of a LINK_STATE frame (R146): the manual lists its fields and gives no layout. Safe. -/
opaque Config.linkStateBytes : LinkStateRec → List Byte
/-- The payload of a TIME frame that is sent at a fabric time in ns (R162): the manual gives no layout. Safe. -/
opaque Config.timeBytes : Nat → List Byte

/-- A read-only register of an emulated function, by the kind of the function and the register, whose contents the manual does not give:
the Revision ID and the link registers (Table 7.4, log entry 22). Safe. -/
opaque Config.cfgFixed : Nat → Nat → BitVec 32

/-- The expected signature of a self-test by unit kind and stepping, taken from the Efnuquin image (Table 13.3). Safe. -/
opaque Config.bistExpected : BitVec 4 → BitVec 8 → BitVec 64

/-- The VID code that the governor coefficients and a junction temperature ask for (R493). Safe. -/
opaque Config.vidTarget : List Byte → Int → BitVec 4

end Sys2Proof
end

