-- ==== Sys2Proof/Machine/State.lean ====
section
/-!
DEFINITION. The state of the XM5120 as plain data, the reasons a step can stop, and the state after reset.
Each structure's default field values are the values after power reaches regulation, so that `State.reset` lists nothing.
A field that a rule of the manual names cites it; a field of the model's own says so.
-/

namespace Sys2Proof.Machine

/-- Why the machine stops with a fault. -/
inductive Fault where
  /-- Raised by a command whose operands no command of the hardware can carry (`Sys2Proof.Instr.wellFormed` is false of it).
  Safe: the hardware never receives such a command. -/
  | illFormed
  deriving DecidableEq, Repr

/-- Why a command is refused. -/
inductive Refusal where
  /-- Raised by an arm of `exec` whose command has no meaning yet. Safe: nothing can be proved of a run through it. -/
  | notModelled (mnemonic : String)
  deriving DecidableEq, Repr

/-! ### Ports, lanes and links -/

/-- The stages of a port, in the numbering of STAGE of Table 2.18. -/
inductive Stage where
  | disabled | detect | train | lock | exchange | active | test | loopback | sleep | pcieTraining | pcieL0 | pcieL1
  deriving DecidableEq, Repr

/-- A port or PCIe sub-port: its settings (Table 2.17) and its bring-up state (Table 2.7). -/
structure Port where
  configured : Bool := false
  pcie       : Bool := false
  /-- Width in lanes. -/
  width      : Nat := 4
  maxRate    : BitVec 3 := 0
  upstream   : Bool := false
  clocking   : BitVec 2 := 0
  autoUp     : Bool := false
  stage      : Stage := .disabled
  /-- The port is in LOCK as a retrain, and whether it came from EXCHANGE (R63). -/
  retrain    : Bool := false
  fromExchange : Bool := false
  /-- The port has reached ACTIVE, or PCIe link up, since its last link down (R64). -/
  reached    : Bool := false
  failCount  : Nat := 0
  lastFail   : BitVec 8 := 0
  ltssm      : BitVec 6 := 0
  rate       : BitVec 3 := 0
  /-- No failure has been seen since PORT_ADMIN UP or the last link down (R65). -/
  firstFail  : Bool := true
  /-- Consecutive attempts of DETECT with some lanes detected and some not. -/
  partials   : Nat := 0
  /-- The port waits 1 s before each further attempt (R65). -/
  waiting    : Bool := false
  /-- The forwarded clock has been lost in LOCK and has not returned (R54). -/
  clockLost  : Bool := false
  /-- TYPE of Table 2.15, 0 for none. -/
  loopback   : BitVec 3 := 0
  /-- A sleeping port is leaving Quad Sleep by fast retrain (R73). -/
  waking     : Bool := false
  /-- Time in ns at which the incarnation last changed (R123), 0 before any change. -/
  incSince   : Nat := 0
  /-- The hold-off of R123 has not yet ended. -/
  holdOff    : Bool := false
  /-- A PCI Express hot reset has been sent on the link and the link has not come down since (R251). -/
  hotReset   : Bool := false
  deriving DecidableEq, Repr

/-- Preset P3 of Table 2.10. -/
def presetP3 : List Int := [0, 2, -10, 52, 0, 0]

/-- A data lane (R67 to R81, LANE_STATUS of Table 2.18). -/
structure Lane where
  /-- c(−3) to c(+2) in 1/64. -/
  taps       : List Int := presetP3
  /-- Coefficients that LANE_FIR_SET has fixed, from the next TRAIN on (R69). -/
  fixed      : Option (List Int) := none
  /-- The taps in force are fixed. -/
  fixedNow   : Bool := false
  phase      : Int := 0
  deskew     : Nat := 0
  snr        : Nat := 0
  inverted   : Bool := false
  lip        : BitVec 4 := 0
  lastReq    : Option (BitVec 8) := none
  ackSeq     : BitVec 8 := 0
  tapSts     : BitVec 12 := 0
  /-- Consecutive valid training frames with the partner's RX_READY. -/
  readyRun   : Nat := 0
  fecLock    : Bool := false
  /-- Arrival time of the lane's marker in ps in this LOCK (R59). -/
  marker     : Option Nat := none
  prbs       : BitVec 2 := 0
  genEn      : Bool := false
  chkEn      : Bool := false
  precode    : Bool := false
  prbsSync   : Bool := false
  /-- Error-free symbols since synchronisation was sought. -/
  prbsRun    : Nat := 0
  /-- The last 128 symbols at a synchronised checker, newest first: in error or not. -/
  prbsHist   : List Bool := []
  symErr     : Nat := 0
  bitErr     : Nat := 0
  cwCorr     : Nat := 0
  cwUncorr   : Nat := 0
  /-- SYM_ERR increments in the current 1 s window (R81). -/
  window     : Nat := 0
  threshold  : Nat := 212500
  alarm      : Bool := false
  deriving DecidableEq, Repr

/-- An exchange record (Table 2.11). -/
structure ExchangeRec where
  ver     : BitVec 16
  kind    : BitVec 8
  width   : BitVec 8
  geid    : Geid
  vcMask  : BitVec 8
  /-- The pool of each VC, VC0 first. -/
  credit  : List Nat
  features : BitVec 32
  depth   : BitVec 16
  uid     : BitVec 64
  portNum : BitVec 8
  peerSeen : Bool
  deriving DecidableEq, Repr

/-- A DATA block in the replay buffer (R99, R109). -/
structure TxData where
  seq     : BitVec 16
  vc      : Nat
  first   : Bool
  last    : Bool
  payload : BlockPayload
  /-- The frame, for Table 3.10. -/
  uid     : Nat
  replays : Nat := 0
  /-- A retransmission of the block is queued. -/
  queued  : Bool := false
  deriving DecidableEq, Repr

/-- A DATA block in the receive reorder window (R101). -/
structure RxData where
  seq     : BitVec 16
  vc      : Nat
  first   : Bool
  last    : Bool
  payload : BlockPayload
  deriving DecidableEq, Repr

/-- A frame sent on a port and not yet acknowledged or, for a request, not yet completed (R121, Table 3.10). -/
structure SentFrame where
  uid   : Nat
  frame : Frame
  deriving DecidableEq, Repr

/-- An entry of the outstanding-request table (R121). -/
structure OutReq where
  requester : Geid
  tag       : BitVec 12
  hdr       : Hdr
  /-- Time in ns of the first transmission, and the NP expiry in ms that applies. -/
  since     : Nat
  expiryMs  : Nat
  /-- The TLP of a tunnelled request, by which its PCI Express completion is known. -/
  tlp       : Option Tlp := none
  deriving DecidableEq, Repr

/-- The block that a port last sent (Table 3.1), with the correctness of its CRC. -/
structure SentBlock where
  hdr     : BitVec 64
  payload : BlockPayload
  crcOk   : Bool := true
  deriving DecidableEq, Repr

/-- The link-layer counters (Table 3.11). -/
structure LinkCounters where
  txData : Nat := 0
  txReplayNak : Nat := 0
  txReplayTimer : Nat := 0
  rxData : Nat := 0
  rxBad  : Nat := 0
  rxDup  : Nat := 0
  rxOow  : Nat := 0
  rxRsvType : Nat := 0
  nakTx  : Nat := 0
  nakRx  : Nat := 0
  ackInvalid : Nat := 0
  framingErr : Nat := 0
  creditOverflow : Nat := 0
  creditLeakMax  : Nat := 0
  retrainReplay  : Nat := 0
  retrainLeak    : Nat := 0
  retrainSync    : Nat := 0
  retrainOther   : Nat := 0
  linkDown   : Nat := 0
  postedDrop : Nat := 0
  cplDrop    : Nat := 0
  npLinkDown : Nat := 0
  rxPartialDrop : Nat := 0
  staleDrop  : Nat := 0
  npExpired  : Nat := 0
  deriving DecidableEq, Repr

/-- The Quad Sleep handshake of a side (R471). -/
structure SleepState where
  idleUs   : Nat := 0
  noSleep  : Bool := false
  reqSent  : Bool := false
  ackSent  : Bool := false
  ackRcvd  : Bool := false
  goSent   : Bool := false
  goRcvd   : Bool := false
  /-- A good block with every VC_EMPTY bit set has arrived since U became empty in the handshake; IDLE blocks sent after both SLEEP_GO blocks. -/
  emptySeen : Bool := false
  idles    : Nat := 0
  /-- After a SLEEP_NAK no SLEEP_REQ is sent for 1 ms. -/
  backoff  : Bool := false
  /-- A wake arose after SLEEP_GO was sent: it completes the entry and starts at once (R473). -/
  wakePending : Bool := false
  /-- POWER blocks that wait to be sent: OP and NAK_REASON (Table 14.5). -/
  due      : List (BitVec 8 × BitVec 8) := []
  entries  : Nat := 0
  abandoned : Nat := 0
  deriving DecidableEq, Repr

/-- A frame that is open in a VC receive buffer (R96): its uid, the blocks that its header gives and those received. -/
structure RxOpen where
  uid    : Nat
  blocks : Nat
  got    : Nat
  deriving DecidableEq, Repr

/-- The link layer of a port. -/
structure Link where
  inc      : BitVec 8 := 0
  next     : BitVec 16 := 0
  high     : BitVec 16 := 0xFFFF
  u        : List TxData := []
  e        : BitVec 16 := 0
  window   : List RxData := []
  naked    : List (BitVec 16) := []
  nakDue   : List (BitVec 16) := []
  /-- The frame that is open in each VC receive buffer (R96). -/
  openRx   : Tab (Option RxOpen) := []
  credits  : List Nat := [0, 0, 0, 0, 0, 0, 0, 0]
  /-- The pools advertised at the last EXCHANGE, and those set for the next one (R113). -/
  pool     : List Nat := [0, 0, 0, 0, 0, 0, 0, 0]
  poolSet  : Option (List Nat) := none
  partnerPool : List Nat := [0, 0, 0, 0, 0, 0, 0, 0]
  /-- Pending credit returns per VC, and the VCs with one pending, oldest first. -/
  pending  : List Nat := [0, 0, 0, 0, 0, 0, 0, 0]
  pendOrder : List Nat := []
  creditDue : Bool := false
  /-- Slots that the due CREDIT block has waited (Table 3.7). -/
  creditWait : Nat := 0
  w        : Nat := 0
  vcs      : BitVec 8 := 0
  peer     : Option ExchangeRec := none
  /-- A good block of a type other than EXCHANGE has arrived since ACTIVE (R97). -/
  sawOther : Bool := false
  recordDue : Bool := false
  /-- The exchange record last sent, which the port repeats between fresh ones (R97). -/
  sentRec  : Option ExchangeRec := none
  syncing  : Bool := false
  syncRcvd : Bool := false
  syncDue  : Bool := false
  seenDue  : Bool := false
  syncTimeouts : Nat := 0
  /-- DATA is not sent until a SYNC has been received after a retrain (R117). -/
  awaitSync : Bool := false
  timerOn  : Bool := false
  reason   : BitVec 8 := 0
  /-- Time in ns of the return to ACTIVE from a REPLAY_LIMIT retrain (R118). -/
  replayReturn : Option Nat := none
  replayTimer : Nat := 16
  replayLimit : Nat := 4
  leakThresh  : Nat := 8
  npExpiry    : Nat := 1000
  outReqs  : List OutReq := []
  /-- Frames sent whose blocks are not all acknowledged. -/
  unacked  : List SentFrame := []
  /-- The frame being sent on each VC, with the index of its next block. -/
  sending  : Tab (Option (Nat × Nat)) := []
  /-- Blocks whose CRC is to be damaged, by TARGET (Table 3.16). -/
  inject   : List Nat := [0, 0, 0, 0]
  lastSent : Option SentBlock := none
  sleep    : SleepState := {}
  counters : LinkCounters := {}
  deriving DecidableEq, Repr

/-! ### Frames, tables and fabric time -/

/-- Where a frame leaves the Carousel: PU of the first output and the EGRESS code of Table 5.1.
0 and 1 name a port or PCIe sub-port by its lead quad; 2 the Jugglers of the PU, 3 the Ringmaster, 4 and 5 Patchwork A and B. -/
structure Egress where
  pu   : Nat
  code : Nat
  deriving DecidableEq, Repr

/-- How a frame is to end when its cells reach the egress or its end is due (Tables 3.10, 4.7, 7.x and R155). -/
inductive EndCause where
  | linkDown | fenced | instanceReset | partitionDeny | lifetime | hopLimit | malformed | noRoute | windowMiss
  | completerAbort | poisoned | unsupported
  /-- Non-completions to an instance in QUIESCING or QUIESCED (Table 7.11), requests over an instance's CREDITS (R260), and frames to index 0x03 that R512 ends. -/
  | quiescing | creditOver | moverDeny
  deriving DecidableEq, Repr

/-- The place of a frame in the device. -/
inductive Place where
  /-- In the cell store of its ingress, before lookup (R174). -/
  | arriving
  /-- Looked up; waiting for its LAST block, for VOQ room or for an instance's rate (R174, R262). -/
  | lookedUp
  /-- Held at its ingress VC head by a full penalty queue (R219). -/
  | penaltyFull
  /-- In a penalty queue of its PU (R217). -/
  | penalty
  /-- Admitted to its VOQ; cells leave in VOQ order (R174). -/
  | admitted
  /-- Every cell has left the first stage. -/
  | carousel
  /-- Held at the egress under R249. -/
  | orderHeld
  /-- Released to an egress queue (R201). -/
  | queued
  /-- Delivered to an internal target, which has not yet acted on it. -/
  | inbox
  /-- Its end waits for room in the synthesis queue of a PU (R281). -/
  | ending
  deriving DecidableEq, Repr

/-- A frame in the device. -/
structure FrameRec where
  frame    : Frame
  /-- The input under R20, in the numbering of SRC of Table 5.1. -/
  src      : Nat
  vc       : Nat
  /-- The time in ns at which the age under R153 starts, and the period count then (BORN). -/
  born     : Nat
  bornPeriod : BitVec 24 := 0
  /-- The blocks of the frame that have reached the cell store. -/
  blocksIn : Nat := 1
  /-- The LAST block has arrived. -/
  whole    : Bool := true
  place    : Place := .arriving
  egress   : Egress := ⟨0, 0⟩
  /-- INC: the incarnation of the egress port at lookup (R120). -/
  inc      : BitVec 8 := 0
  /-- The epoch of each table matched at lookup, by `TableKind` (R151). -/
  epochs   : List (TableKind × BitVec 2) := []
  /-- Cells that have left the first stage. -/
  sent     : Nat := 0
  /-- CSEQ of cell 0, once it has left, and the PU whose output received it (R190). -/
  cseq0    : BitVec 16 := 0
  firstAt  : Option Nat := none
  /-- The colour on arrival, for a colour-aware meter (R215). -/
  arrivalColour : BitVec 2 := 0
  /-- The meter that coloured or holds the frame (R213). -/
  meter    : Option Nat := none
  /-- The destination instance's port and ID, when the frame addresses an instance. -/
  inst     : Option (Nat × Nat) := none
  /-- The port and ID of the instance on whose behalf a shared endpoint sent the frame. -/
  fromInst : Option (Nat × Nat) := none
  /-- A meter has demoted the frame (R220). -/
  demoted  : Bool := false
  /-- The frame has been counted in INST_WAITS (R259). -/
  instWaited : Bool := false
  /-- The frame has been counted in VOQ_WAITS (R197). -/
  waited   : Bool := false
  /-- A cause that ends the frame when its cells are released or at its next check point. -/
  ending   : Option EndCause := none
  /-- The PU whose synthesis queue the end of the frame waits for, or the penalty queue (64 × PU + queue) that holds it at its VC head. -/
  endPu    : Nat := 0
  /-- The Juggler that formed the frame, and the descriptor ring whose data, record or request it carries. -/
  maker    : Option Nat := none
  mover    : Option Nat := none
  /-- The index of the descriptor that the frame serves. -/
  desc     : Option Nat := none
  /-- The place of the frame in the order of lookups (R512). -/
  order    : Nat := 0
  /-- The time in ns at which the frame reached the egress scheduler or was held (sojourn marks, R229, R249). -/
  queuedAt : Nat := 0
  deriving DecidableEq, Repr

/-- A local endpoint table entry (Table 4.13, ENDPOINT_WRITE). -/
inductive EndpointEntry where
  | unassigned
  | port (quad : Nat) (sub : Nat)
  | internal (target : Nat)
  deriving DecidableEq, Repr

/-- A route table entry (Table 4.6). -/
inductive RouteEntry where
  | invalid
  | port (quad : Nat)
  | group (g : Nat)
  deriving DecidableEq, Repr

/-- A multipath group (R141): member lead quads in list order and the member index of each of 64 buckets. -/
structure GroupEntry where
  members : List Nat := []
  buckets : List Nat := []
  deriving DecidableEq, Repr

/-- An address window (R144). -/
structure Window where
  valid      : Bool := false
  partition  : BitVec 8 := 0
  sizeLog2   : Nat := 0
  base       : BitVec 64 := 0
  target     : Geid := 0
  instValid  : Bool := false
  inst       : BitVec 12 := 0
  targetBase : BitVec 64 := 0
  deriving DecidableEq, Repr

/-! ### Partitions, virtual hierarchies and instances -/

/-- A shared-endpoint record (R252). -/
structure SharedRec where
  cap       : Nat
  vendor    : BitVec 16
  device    : BitVec 16
  classCode : BitVec 24
  deriving DecidableEq, Repr

/-- An instance record of the policy table (R237, R258). -/
structure InstRec where
  owner    : BitVec 8
  log2     : Nat
  base     : BitVec 64
  buffer   : Nat
  credits  : Nat
  /-- The meter allocated, by number (R261). -/
  meter    : Option Nat
  mover    : Nat
  xlate    : Nat
  /-- The first of its translation entries. -/
  firstXlate : Nat
  deriving DecidableEq, Repr

/-- A virtual hierarchy (R242). -/
structure VhRec where
  /-- The upstream port by port index. -/
  port      : Nat
  vdsps     : Nat
  orderWait : Nat := 100
  deriving DecidableEq, Repr

/-- What a vDSP is bound to (Table 7.6). -/
inductive Binding where
  | endpoint (geid : Geid)
  | inst (geid : Geid) (id : BitVec 8)
  deriving DecidableEq, Repr

/-- The policy table (R237). -/
structure Policy where
  /-- Owner of each port; partition 0 where not listed. -/
  owner  : Tab (BitVec 8) := []
  /-- TRUST of each port (Table 7.2); AUTO where not listed. -/
  trust  : Tab (BitVec 2) := []
  ownerA : BitVec 8 := 0
  ownerB : BitVec 8 := 0
  /-- GRANT(a, b) at 256 × a + b. -/
  grant  : Tab Bool := []
  shared : Tab (Option SharedRec) := []
  /-- Instance records at 256 × port + ID. -/
  inst   : Tab (Option InstRec) := []
  vh     : Tab (Option VhRec) := []
  /-- vDSP bindings at 32 × VH + vDSP. -/
  bind   : Tab (Option Binding) := []
  deriving DecidableEq, Repr

/-- A staged write of the policy table. -/
inductive PolicyWrite where
  | owner (port : Nat) (p : BitVec 8)
  | pwOwner (portB : Bool) (p : BitVec 8)
  | destroy (p : BitVec 8)
  | grant (a b : BitVec 8) (v : Bool)
  | trust (port : Nat) (t : BitVec 2)
  | shared (port : Nat) (r : SharedRec)
  | inst (port id : Nat) (r : InstRec)
  | instRemove (port id : Nat)
  | vh (v : Nat) (r : Option VhRec)
  | bind (v k : Nat) (b : Option Binding)
  deriving DecidableEq, Repr

/-- The tables with epochs (R149), with the epoch of each. -/
structure Tables where
  /-- By switch ID; an entry not listed is invalid (R140). -/
  route    : Tab RouteEntry := []
  group    : Tab GroupEntry := []
  /-- By local endpoint index; an entry not listed holds its value of Table 4.1. -/
  endpoint : Tab (Option EndpointEntry) := []
  window   : Tab Window := []
  policy   : Policy := {}
  epoch    : Tab (BitVec 2) := []
  deriving DecidableEq, Repr

/-- Staged writes (R149): the last write of each entry. -/
structure Staged where
  route    : Tab (Option RouteEntry) := []
  group    : Tab (Option GroupEntry) := []
  endpoint : Tab (Option EndpointEntry) := []
  window   : Tab (Option Window) := []
  /-- Staged writes of the policy table, in order. -/
  policy   : List PolicyWrite := []
  deriving DecidableEq, Repr

/-- A LINK_STATE record held (R146). -/
structure LinkRec where
  record  : LinkStateRec
  /-- A NODE_UID of the same switch ID that conflicts with the one held (R148). -/
  conflict : Option (BitVec 64) := none
  deriving DecidableEq, Repr

/-- The partner record of a port (Table 4.9), without LINK_UP, PRESENT and INCARNATION, which other state gives. -/
structure Partner where
  kind  : BitVec 4 := 0
  geid  : Geid := 0xFFFFF
  port  : BitVec 8 := 0
  slot  : BitVec 6 := 0x3F
  width : BitVec 5 := 0
  rate  : BitVec 3 := 0
  uid   : BitVec 64 := 0
  deriving DecidableEq, Repr

/-- A tag in use at a requester of this switch (R137). -/
structure TagUse where
  /-- The destination to which the request was finally routed (R138), once known. -/
  dst       : Geid
  cls       : BitVec 3
  partition : BitVec 8
  inst      : BitVec 12 := 0xFFF
  /-- Bytes of the request still to be returned. -/
  left      : Nat := 0
  /-- Time in ns at which the request was sent, and its completion timeout in ms. -/
  since     : Nat := 0
  timeoutMs : Nat := 500
  addr      : BitVec 64 := 0
  frame     : Option Frame := none
  deriving DecidableEq, Repr

/-- Fabric time states (R163). -/
inductive TimeState where
  | freeRun | acquiring | locked | holdover
  deriving DecidableEq, Repr

/-- Fabric time (R162 to R164). -/
structure FabricTime where
  seconds : BitVec 48 := 0
  ns      : BitVec 30 := 0
  frac    : BitVec 16 := 0
  state   : TimeState := .freeRun
  gmPriority : BitVec 8 := 128
  ppsInEn : Bool := false
  /-- The seconds count that the next PPS_IN edge marks (R164). -/
  presetSec : Option (BitVec 48) := none
  /-- ASYM of each native port in ps, by port index. -/
  asym    : Tab Int := []
  /-- The last 16 link-delay samples of each port in ps, newest first. -/
  delays  : Tab (List Int) := []
  /-- What the last exchange with each port's neighbour said of its grandmaster: priority, switch ID, hops from here. -/
  offers  : Tab (Option (BitVec 8 × BitVec 12 × Nat)) := []
  source  : Option Nat := none
  hops    : Nat := 0
  ppsOut  : Bool := false
  /-- The error in 2^-16 ns that is still to be slewed out (R163). -/
  slew    : Int := 0
  deriving DecidableEq, Repr

/-- The fabric counters of a PU (Table 4.10). -/
structure FabricCounters where
  malformed   : Nat := 0
  noRoute     : Nat := 0
  windowMiss  : Nat := 0
  hopLimit    : Nat := 0
  lifetimeNp  : Nat := 0
  lifetimeDrop : Nat := 0
  cplTimeout  : Nat := 0
  unexpectedCpl : Nat := 0
  failover    : Nat := 0
  deriving DecidableEq, Repr

/-- Settings and state of routing, tables, discovery and time. -/
structure Fabric where
  switchId   : BitVec 12 := 0
  idDefault  : Bool := true
  hashSeed   : BitVec 16 := 0
  /-- HASH_SEED given with SET_SEED, applied at the next commit of the group table. -/
  seedPending : Option (BitVec 16) := none
  managed    : Bool := false
  lifetimeMs : Nat := 50
  cplTimeoutMs : Nat := 500
  tables     : Tables := {}
  staged     : Staged := {}
  /-- PUs in which the newest commit is not yet in effect, with the tables they still use (R26). -/
  stale      : Tab (Option Tables) := []
  /-- Epochs awaited by EPOCH_WAIT (R152). -/
  waits      : List (TableKind × BitVec 2) := []
  /-- Buckets that are failed over, as 64 × group + bucket: they return to their member only through a commit (R142). -/
  failed     : List Nat := []
  /-- Tags in use by requester GEID × 4096 + tag (R137). -/
  tags       : Tab (Option TagUse) := []
  links      : Tab (Option LinkRec) := []
  ownLinkSeq : BitVec 32 := 0
  /-- A topology change waits for its computation (R147); a refused commit waits for its retry. -/
  topoPending : Bool := false
  commitRetry : Bool := false
  partners   : Tab Partner := []
  counters   : Tab FabricCounters := []
  time       : FabricTime := {}
  deriving DecidableEq, Repr

/-! ### The Carousel -/

/-- A cell (Table 5.1) of the frame `uid`. -/
structure Cell where
  uid    : Nat
  out    : Nat
  egress : Nat
  src    : Nat
  vc     : Nat
  first  : Bool
  last   : Bool
  cidx   : Nat
  /-- 0 NORMAL, 1 EXPIRED, 2 PAYLOAD_ERR, 3 STALE. -/
  state  : Nat := 0
  cseq   : BitVec 16
  prevMid : Nat
  inc    : BitVec 8
  born   : BitVec 24
  /-- The slot, counted from reset, in which the cell entered its middle buffer: it leaves in a later one (R171). -/
  entered : Nat := 0
  /-- The payload holds an uncorrectable memory error (R190). -/
  bad    : Bool := false
  deriving DecidableEq, Repr

/-- The flow from one input to one egress on one VC, at the input: its VOQ (R174) and count (R187). -/
structure Voq where
  /-- The admitted frames with cells still to leave, by uid, oldest first. -/
  frames  : List Nat := []
  count   : BitVec 16 := 0
  prevMid : Nat := 0
  /-- The egress incarnation recorded with the flow. -/
  inc     : BitVec 8 := 0
  deriving DecidableEq, Repr

/-- The state of a middle buffer (R194, R195, Table 5.11). -/
inductive MidState where
  | inService | draining | skippedFenced | skippedOff
  deriving DecidableEq, Repr

/-- A middle buffer (R181). -/
structure MidBuf where
  state    : MidState := .inService
  /-- Periods since draining began. -/
  drained  : Nat := 0
  /-- A draining buffer becomes skipped in a powered-off Ring, not while fenced. -/
  forOff   : Bool := false
  /-- The queue of each output, oldest cell first. -/
  queues   : Tab (List Cell) := []
  hwm      : Nat := 0
  /-- Departures of the last two slots, which the room map does not yet count (R180): slot counted from reset, output, VC. -/
  recent   : List (Nat × Nat × Nat) := []
  /-- An uncorrectable payload error has been found in the memory: the next cell read holds it (log entry 52). -/
  bad      : Bool := false
  deriving DecidableEq, Repr

/-- The resequencer of one flow to a port or internal target (R188). -/
structure Reseq where
  next    : BitVec 16 := 0
  /-- Held cells with the open-period count of the port at their arrival. -/
  held    : List (Cell × Nat) := []
  /-- The frame whose cells are being released, with the index of the next cell, or `none` between frames. -/
  current : Option (Nat × Nat) := none
  deriving DecidableEq, Repr

/-- One side's arbitration history at a Carousel input (R179, R22). -/
structure InputArb where
  /-- Slots that the link side took in a row while both sides had an eligible cell. -/
  linkRun  : Nat := 0
  /-- The injection side took the last slot in which both sides had an eligible VC7 cell. -/
  vc7Inj   : Bool := false
  deriving DecidableEq, Repr

/-- The shares of a VC in the middle-buffer queues (R182). -/
structure Share where
  res : Nat
  max : Nat
  deriving DecidableEq, Repr

/-- The Carousel counters of a PU (Table 5.7). -/
structure CarouselCounters where
  cellsSent    : Nat := 0
  injCellsSent : Nat := 0
  slotNoCell   : Nat := 0
  slotNoRoom   : Nat := 0
  slotSkipped  : Nat := 0
  cellsRcvd    : Nat := 0
  periodsClosed : Nat := 0
  expiredCells : Nat := 0
  payloadErrCells : Nat := 0
  staleCells   : Nat := 0
  reseqSkipped : Nat := 0
  reseqOverrun : Nat := 0
  reseqFrameLost : Nat := 0
  reseqOld     : Nat := 0
  voqWaits     : Nat := 0
  deriving DecidableEq, Repr

/-- The high-water marks of a port (Table 5.8). -/
structure PortHwm where
  voq      : List Nat := [0, 0, 0, 0, 0, 0, 0, 0]
  store    : Nat := 0
  held     : Nat := 0
  pool     : Nat := 0
  displace : Nat := 0
  deriving DecidableEq, Repr

/-- The shares of Table 5.4. -/
def defaultShares : List Share :=
  [⟨1, 6⟩, ⟨1, 6⟩, ⟨1, 6⟩, ⟨1, 6⟩, ⟨1, 6⟩, ⟨1, 6⟩, ⟨2, 8⟩, ⟨2, 4⟩]

/-- The Carousel with the frames in the device. -/
structure Carousel where
  slot     : Nat := 0
  period   : BitVec 24 := 0
  /-- Slots counted from reset, to tell a cell's arrival slot from later ones. -/
  slots    : Nat := 0
  /-- The frames in the device by uid. -/
  frames   : Tab (Option FrameRec) := []
  nextUid  : Nat := 0
  /-- Frames looked up so far. -/
  lookups  : Nat := 0
  /-- Frames of each input and VC that are not yet admitted, by uid in the order of their FIRST blocks; key 8 × SRC + VC. -/
  waiting  : Tab (List Nat) := []
  voqs     : Tab Voq := []
  /-- The flow key that round robin served last (R179), of the link side of input q at q and of its injection side at 256 + q. -/
  lastVoq  : Tab (Option Nat) := []
  arb      : Tab InputArb := []
  /-- PUs in whose cell store an uncorrectable payload error has been found: the next cell sent holds it (log entry 52). -/
  badIn    : Tab Bool := []
  mids     : Tab MidBuf := []
  shares   : List Share := defaultShares
  sharesPending : Option (List Share) := none
  /-- Outputs that are closed in this period (R185). -/
  closed   : Tab Bool := []
  /-- Open periods of each egress (R191), by lead PU. -/
  openPeriods : Tab Nat := []
  /-- Cells that have left the second stage and stand at each output. -/
  arrivals : Tab (List Cell) := []
  reseqs   : Tab Reseq := []
  counters : Tab CarouselCounters := []
  hwm      : Tab PortHwm := []
  /-- Frames delivered to each internal target, by egress key, oldest first. -/
  inboxes  : Tab (List Nat) := []
  /-- VOQ_LIMIT of each ingress port and VC that VOQ_LIMIT_SET has set; key 8 × port + VC (R175). -/
  voqLimit : Tab (Option Nat) := []
  /-- P_SHARE and NP_SHARE of PCIe-mode ports: in force, and set for the next link training (R178). -/
  pcieShare : Tab (Nat × Nat) := []
  pcieSharePending : Tab (Option (Nat × Nat)) := []
  deriving DecidableEq, Repr

/-! ### Scheduling, metering and time gates -/

/-- A token bucket (R209 to R211): rate in 1/256 frame/s, burst in frames, level in 2^-32 frame.
`carry` is the part of the refill below 2^-32 of a frame, in 10^-9 of it. -/
structure Bucket where
  rate  : Nat := 0
  burst : Nat := 0
  level : Int := 0
  carry : Nat := 0
  /-- Rate and burst that take effect at the next refill (R211). -/
  pending : Option (Nat × Nat) := none
  deriving DecidableEq, Repr

/-- The counters of an egress queue (Table 6.6). -/
structure QueueCounters where
  framesSent : Nat := 0
  blocksSent : Nat := 0
  gateWaits  : Nat := 0
  gateOversize : Nat := 0
  shaperWaits : Nat := 0
  deriving DecidableEq, Repr

/-- An egress queue of a port, RQ0 to RQ7, CQ or MQ (Table 6.2). -/
structure EgressQueue where
  /-- Frames in release order by uid; the SRC lists of R201 are its parts by SRC. -/
  frames   : List Nat := []
  band     : BitVec 2 := 1
  weight   : Nat := 1
  committed : Bucket := {}
  peak     : Bucket := {}
  counters : QueueCounters := {}
  occHwm   : Nat := 0
  sojHwm   : Nat := 0
  /-- Frames already counted in GATE_WAITS, and in GATE_OVERSIZE. -/
  gateWaited : List Nat := []
  gateOver : List Nat := []
  deriving DecidableEq, Repr

/-- A gate list (R222, Table 6.9). `base` and `start` are in ns of fabric time. -/
structure GateList where
  guard   : Nat := 0
  base    : Nat := 0
  cycle   : Nat := 0
  /-- Gate bitmap and interval in ns of each entry. -/
  entries : List (BitVec 9 × Nat) := []
  start   : Nat := 0
  deriving DecidableEq, Repr

/-- A pending start (R226, R227): a list, or `none` to disable gating. -/
structure PendingGate where
  list  : Option GateList
  start : Nat
  base  : Nat
  cycle : Nat
  deriving DecidableEq, Repr

/-- The scheduler of an egress port. -/
structure Sched where
  /-- RQ0 to RQ7 are 0 to 7, CQ is 8, MQ is 9. A queue not listed holds its defaults, with CQ in band 0. -/
  queues    : Tab EgressQueue := []
  portPeak  : Bucket := {}
  portShaperWaits : Nat := 0
  /-- The current queue and count of each band (R205). -/
  rrQueue   : List Nat := [0, 0, 0, 0]
  rrCount   : List Nat := [0, 0, 0, 0]
  ageHwm    : Nat := 0
  gate      : Option GateList := none
  gatePending : Option PendingGate := none
  /-- Current entry of the operational list, and cycles since its start. -/
  gateEntry : Nat := 0
  gateCycles : Nat := 0
  /-- The frame of VC0 to VC6 in transmission (R206), and the VC7 frame chosen. -/
  current   : Option Nat := none
  /-- The PCI Express TLP that the port last sent, for a PCIe-mode port. -/
  lastTlp   : Option Tlp := none
  deriving DecidableEq, Repr

/-- A meter (R213 to R221). -/
structure Meter where
  enable   : Bool := false
  aware    : Bool := false
  /-- RED_ACTION is DEMOTE. -/
  demote   : Bool := false
  pq       : Nat := 0
  committed : Bucket := {}
  peak     : Bucket := {}
  /-- ENABLE, COLOUR_AWARE, RED_ACTION and PQ that take effect at the next refill (R221). -/
  pending  : Option (Bool × Bool × Bool × Nat) := none
  green    : Nat := 0
  yellow   : Nat := 0
  red      : Nat := 0
  held     : Nat := 0
  released : Nat := 0
  demoted  : Nat := 0
  deriving DecidableEq, Repr

/-- A penalty queue (R217 to R219). -/
structure PenaltyQueue where
  limit    : Nat := 64
  frames   : List Nat := []
  fullWaits : Nat := 0
  occHwm   : Nat := 0
  sojHwm   : Nat := 0
  /-- It has been full since it was last below its limit, and when EV_PENALTY_FULL was last raised. -/
  wasFull  : Bool := false
  lastEvent : Option Nat := none
  deriving DecidableEq, Repr

/-- Scheduling, shaping and metering. -/
structure Scheduling where
  ports    : Tab Sched := []
  meters   : Tab Meter := []
  /-- Meter of an input and class, key 8 × SRC + class (R213). -/
  meterMap : Tab (Option Nat) := []
  /-- Penalty queues by 64 × PU + queue. -/
  penalty  : Tab PenaltyQueue := []
  deriving DecidableEq, Repr

/-- The states of an instance (Table 7.11). -/
inductive InstState where
  | active | quiescing | quiesced | resetting | failed
  deriving DecidableEq, Repr

/-- The instance control block that Efnuquin writes (Table 7.9). -/
structure Icb where
  enable     : Bool := false
  quiesceReq : Bool := false
  resetReq   : Bool := false
  npCredits  : BitVec 16 := 0
  log2       : BitVec 6 := 0
  base       : BitVec 64 := 0
  msiData    : BitVec 32 := 0
  msiVecLog2 : BitVec 3 := 0
  msiEn      : Bool := false
  msiAddr    : BitVec 64 := 0
  deriving DecidableEq, Repr

/-- The running state of an instance (R262 to R266), outside the policy table. -/
structure InstRun where
  state     : InstState := .active
  /-- The requests of R260 that are outstanding: requester GEID, tag and time of lookup in ns. -/
  count     : List (Geid × BitVec 12 × Nat) := []
  /-- The instance's own requests at a forced reset, whose completions are discarded (R265). -/
  lost      : List (Geid × BitVec 12) := []
  /-- INSTANCE_DESTROY has ended the instance: its record goes at the next policy commit (R264, R266). -/
  gone      : Bool := false
  /-- Requests sent to the instance whose entries a forced reset aborted: requester and tag (R265). -/
  aborted   : List (Geid × BitVec 12) := []
  icb       : Icb := {}
  timeoutMs : Nat := 100
  /-- The reset in progress was forced; it destroys the instance; the endpoint has cleared RESET_REQ; the lifetime limit has passed. -/
  forced    : Bool := false
  destroy   : Bool := false
  reqCleared : Bool := false
  lifePassed : Bool := false
  deriving DecidableEq, Repr

/-- A translation entry (R256). -/
structure Xlate where
  valid      : Bool := false
  readEn     : Bool := false
  writeEn    : Bool := false
  sizeLog2   : BitVec 6 := 0
  base       : BitVec 64 := 0
  target     : Geid := 0
  targetBase : BitVec 64 := 0
  deriving DecidableEq, Repr

/-- The partition and instance counters of a PU (Table 7.12). -/
structure PartCounters where
  partDeny  : Nat := 0
  vhMiss    : Nat := 0
  orderHolds : Nat := 0
  orderTimeout : Nat := 0
  orderUntracked : Nat := 0
  instWaits : Nat := 0
  instCreditOver : Nat := 0
  instQuiesceDrop : Nat := 0
  instResetDrop : Nat := 0
  deriving DecidableEq, Repr

/-- A configuration request that a Juggler of a VH forwarded or that Efnuquin answered: the completion for the host. -/
structure CfgReply where
  status : BitVec 3
  data   : BitVec 32
  deriving DecidableEq, Repr

/-- Partitions, virtual hierarchies and instances, outside the policy table. -/
structure Partitions where
  usable   : Tab Bool := []
  /-- Isolation level TIMING (R267), and the partitions with a lapse in force (R272). -/
  timing   : Tab Bool := []
  lapsed   : Tab Bool := []
  insts    : Tab InstRun := []
  xlate    : Tab Xlate := []
  /-- Configuration registers that hosts have programmed, by function: 128 × VH + function number, then register offset. -/
  config   : Tab (Tab (BitVec 32)) := []
  /-- The posted count of R249 of each wrapping PU, destination GEID and CLASS. -/
  pseq     : Tab (BitVec 16) := []
  /-- LASTP of each egress port: source GEID, CLASS and PSEQ, at most 64 sources. -/
  lastp    : Tab (List (Geid × BitVec 3 × BitVec 16)) := []
  /-- Tunnel frames held under R249 at each egress port, oldest first. -/
  held     : Tab (List Nat) := []
  counters : Tab PartCounters := []
  /-- When EV_PARTITION_DENY was last raised for each PU (R241). -/
  denyAt   : Tab (Option Nat) := []
  /-- The last completion of an emulated configuration request. -/
  cfgReply : Option CfgReply := none
  deriving DecidableEq, Repr

/-! ### Jugglers and the data mover -/

/-- Work of a Juggler (Table 8.1). -/
inductive Work where
  /-- Form a synthetic completion for a request with this header, with this status (R154). -/
  | synth (req : Hdr) (status : BitVec 4)
  /-- Log an error in AER of a function of a VH: function key and status bit. -/
  | aer (fn : Nat) (bit : Nat)
  /-- Complete a configuration request of the host on port `p` to function `n` of VH `v`. -/
  | config (p v n : Nat) (t : Tlp)
  deriving DecidableEq, Repr

/-- A descriptor (Table 8.3). -/
structure Desc where
  op      : BitVec 4 := 0
  fence   : Bool := false
  irq     : Bool := false
  quiet   : Bool := false
  noFlush : Bool := false
  cls     : BitVec 3 := 0
  userTag : BitVec 32 := 0
  length  : BitVec 32 := 0
  srcGeid : Geid := 0
  srcInst : BitVec 12 := 0
  srcAddr : BitVec 64 := 0
  dstGeid : Geid := 0
  dstInst : BitVec 12 := 0
  dstAddr : BitVec 64 := 0
  /-- A reserved field is not 0. -/
  reserved : Bool := false
  deriving DecidableEq, Repr

/-- A chunk of a COPY whose read is outstanding or whose data waits to be written, in address order (R291, R292). -/
structure Chunk where
  off    : Nat
  len    : Nat
  data   : List Byte := []
  done   : Bool := false
  poison : Bool := false
  deriving DecidableEq, Repr

/-- A descriptor that a ring has fetched and whose record is not yet written. -/
structure DescRun where
  index   : Nat
  desc    : Desc
  started : Bool := false
  /-- The next byte to read, and the bytes whose writes have been sent. -/
  readOff : Nat := 0
  wrote   : Nat := 0
  chunks  : List Chunk := []
  flush   : Bool := false
  flushed : Bool := false
  /-- The end reached: STATUS of Table 8.5. -/
  status  : Option (BitVec 8) := none
  portEvent : Bool := false
  /-- Ports of this switch to which the descriptor's frames were routed (Table 8.4). -/
  ports   : List Nat := []
  deriving DecidableEq, Repr

/-- What an outstanding read of the mover is for. -/
inductive MoverRead where
  | fetch (first count : Nat)
  | chunk (index off len : Nat)
  | flush (index : Nat)
  deriving DecidableEq, Repr

/-- A tag of a Juggler in use by the mover (R293). -/
structure MoverTag where
  ring  : Nat
  read  : MoverRead
  data  : List Byte := []
  poison : Bool := false
  /-- The completion is to be discarded (R299). -/
  dead  : Bool := false
  deriving DecidableEq, Repr

/-- The states of a descriptor ring (Table 8.6). -/
inductive RingState where
  | disabled | stopped | running | stopping | error
  deriving DecidableEq, Repr

/-- A descriptor ring (R286 to R300). -/
structure MoverRing where
  port    : Nat := 0
  inst    : Nat := 0
  ring    : Nat := 0
  n       : Nat := 4
  stopOnError : Bool := false
  irqEn   : Bool := false
  cls     : BitVec 3 := 0
  descGeid : Geid := 0
  descInst : BitVec 12 := 0
  descAddr : BitVec 64 := 0
  cplGeid : Geid := 0
  cplInst : BitVec 12 := 0
  cplAddr : BitVec 64 := 0
  irqGeid : Geid := 0
  irqInst : BitVec 12 := 0
  irqAddr : BitVec 64 := 0
  irqData : BitVec 32 := 0
  state   : RingState := .disabled
  head    : Nat := 0
  tail    : Nat := 0
  phase   : Bool := true
  juggler : Nat := 0
  /-- A Juggler named by MOVER_PLACE, to which the ring moves at its next descriptor boundary. -/
  moveTo  : Option Nat := none
  wasRunning : Bool := false
  /-- The place in lookup order of the doorbell that set TAIL (R512). -/
  doorbell : Nat := 0
  cause   : BitVec 8 := 0
  /-- Fetched descriptors whose records are not written, in ring order. -/
  descs   : List DescRun := []
  descDone : Nat := 0
  descErr  : Nat := 0
  bytesMoved : Nat := 0
  deriving DecidableEq, Repr

/-- A Juggler (R277 to R283). -/
structure Juggler where
  owner    : BitVec 8 := 0
  /-- Queued work of priorities 1 to 5. -/
  work     : List (List Work) := [[], [], [], [], []]
  synthCpl : Nat := 0
  steps    : List Nat := [0, 0, 0, 0, 0]
  /-- The 8 tags of R293 in use. -/
  tags     : Tab (Option MoverTag) := []
  /-- The ring that it served last (R294). -/
  lastRing : Option Nat := none
  deriving DecidableEq, Repr

/-- Jugglers and descriptor rings. -/
structure Jugglers where
  engines  : Tab Juggler := []
  rings    : Tab (Option MoverRing) := []
  synthWaits : Tab Nat := []
  moverDbDeny : Nat := 0
  /-- The PU to which the work of a PU has moved (R282). -/
  movedTo  : Tab (Option Nat) := []
  deriving DecidableEq, Repr

/-! ### Patchwork bridge and side-band wires -/

/-- Personalities of a Patchwork port (Table 9.1), in the numbering of PERSONALITY. -/
inductive Personality where
  | disabled | vme | pci
  deriving DecidableEq, Repr

/-- A Patchwork window (Table 9.8). -/
structure PwWindow where
  valid    : Bool := false
  dirIn    : Bool := false
  space    : BitVec 2 := 0
  priv     : Bool := false
  width    : BitVec 2 := 0
  block    : BitVec 2 := 0
  lanes    : BitVec 2 := 0
  sef      : Bool := false
  prefetch : BitVec 4 := 0
  tunnel   : Bool := false
  cls      : BitVec 3 := 0
  bar      : BitVec 3 := 0
  sizeLog2 : BitVec 6 := 0
  base     : BitVec 64 := 0
  xlate    : BitVec 64 := 0
  target   : Geid := 0
  inst     : BitVec 12 := 0
  deriving DecidableEq, Repr

/-- What a record of the cycle store is to do on the bus (R311, R323). -/
inductive PwOp where
  | read | write | rmw (op : BitVec 3)
  deriving DecidableEq, Repr

/-- A beat of a bus sequence: bus address and width in bytes (R319). -/
structure Beat where
  addr : Nat
  len  : Nat
  deriving DecidableEq, Repr

/-- A record in the cycle store (R309), from a frame of the fabric. -/
structure PwRecord where
  frame   : Frame
  born    : Nat
  op      : PwOp
  /-- The window that matched, and the offset and length of the bytes addressed from the window start. -/
  window  : Nat
  off     : Nat
  len     : Nat
  data    : List Byte
  /-- The widest beat in log2 bytes, and BLOCK of the record (R313). -/
  beat    : Nat
  block   : Bool
  /-- Bytes that prefetch adds to a read (R326). -/
  extra   : Nat := 0
  /-- The transaction entry that a non-posted record holds (R325). -/
  entry   : Option Nat := none
  tunnel  : Bool := false
  deriving DecidableEq, Repr

/-- The bus sequence in progress (R319 to R321). -/
structure PwSeq where
  record  : PwRecord
  /-- The window as it stood when the sequence started (R314). -/
  win     : PwWindow
  beats   : List Beat
  /-- Bytes of the whole access by bus address, read so far. -/
  got     : List Host.Cell := []
  cycles  : Nat := 0
  deriving DecidableEq, Repr

/-- How an inbound read stands (R325). -/
inductive InboundState where
  /-- VMEbus: DTACK* is withheld. -/
  | held
  /-- PCI: Retry was signalled; the request is a delayed transaction. -/
  | delayed
  /-- The data, or an error, has arrived and waits for the PCI master. -/
  | ready (err : Bool)
  /-- The port gave the read up, or a bus event ended it: the completion is discarded, counted in YIELD_DISCARD after a yield. -/
  | dropped (yielded : Bool)
  deriving DecidableEq, Repr

/-- A transaction entry in use by an inbound read, by entry number (R325). -/
structure PwEntry where
  cycle  : BusCycle
  window : Nat
  state  : InboundState
  data   : List Byte := []
  /-- Bytes of the fabric read still to come. -/
  left   : Nat := 0
  /-- The whole length of the fabric read, prefetch included. -/
  total  : Nat := 0
  deriving DecidableEq, Repr

/-- A prefetch buffer (R326, R327). -/
structure PwPrefetch where
  window : Nat
  /-- Outbound: the requester and partition that may use it, and the target-side address of its first byte. -/
  src    : Geid
  partition : BitVec 8
  addr   : Nat
  busAddr : Nat
  data   : List Byte
  /-- Offsets of the bytes that have not been delivered. -/
  fresh  : List Nat := []
  /-- The buffer serves an inbound burst. -/
  inbound : Bool := false
  deriving DecidableEq, Repr

/-- An inbound block write that is still being merged (R329): the window's number and contents, the offset of its first byte in the window on the bus side, and its bytes in bus order. -/
structure PwInbound where
  window  : Nat
  win     : PwWindow
  base    : Nat
  cycle   : BusCycle
  off     : Nat
  data    : List Byte
  poison  : Bool := false
  deriving DecidableEq, Repr

/-- The counters of a Patchwork port (Table 9.9). -/
structure PwCounters where
  outReads  : Nat := 0
  outWrites : Nat := 0
  outRmw    : Nat := 0
  inReads   : Nat := 0
  inWrites  : Nat := 0
  outMiss   : Nat := 0
  unsuppFrames : Nat := 0
  splitCycles : Nat := 0
  outWriteErr : Nat := 0
  busErr    : Nat := 0
  inAbort   : Nat := 0
  prefetchBytes : Nat := 0
  prefetchDiscard : Nat := 0
  delayedDiscard : Nat := 0
  yields    : Nat := 0
  yieldDiscard : Nat := 0
  entryWaits : Nat := 0
  deriving DecidableEq, Repr

/-- How the port answered the last bus cycle that a master started (R316, R325, R329). -/
inductive BusAnswer where
  | none_ | acknowledged | held | retry | busError | data (bytes : List Byte)
  deriving DecidableEq, Repr

/-- A Patchwork port. -/
structure Patchwork where
  personality : Personality := .disabled
  syscon   : Bool := false
  hostBridge : Bool := false
  bus64    : Bool := false
  m66      : Bool := false
  brLevel  : BitVec 2 := 0
  ror      : Bool := false
  arbMode  : BitVec 2 := 0
  yieldOn  : Bool := false
  yieldTime : BitVec 3 := 2
  busTimer : Nat := 32
  reqEn    : BitVec 7 := 0
  secBus   : BitVec 8 := 0
  prefetchHold : Nat := 50
  /-- VDD_HB is present, and its level is 5 V (R306). -/
  vddHb    : Bool := true
  fiveVolt : Bool := true
  /-- SYSRESET* or RST# is being driven by PW_BUS_RESET (R332). -/
  driving  : Bool := false
  windows  : Tab PwWindow := []
  /-- BAR0 to BAR5 as the bus host wrote them, and Memory Space Enable (R316). -/
  bars     : List (BitVec 32) := [0, 0, 0, 0, 0, 0]
  memEnable : Bool := false
  store    : List PwRecord := []
  sequence : Option PwSeq := none
  /-- Transaction entries held by outbound records, by number. -/
  outEntries : List Nat := []
  entries  : Tab (Option PwEntry) := []
  openWrite : Option PwInbound := none
  prefetch : List PwPrefetch := []
  /-- EV_PW_CROSSING has been raised for the blocked period in progress (R330). -/
  crossed  : Bool := false
  answer   : BusAnswer := .none_
  counters : PwCounters := {}
  deriving DecidableEq, Repr

/-- A side-band wire (R334). -/
structure SbWire where
  enable : Bool := false
  toHeritage : Bool := false
  hpin   : BitVec 6 := 0
  deriving DecidableEq, Repr

/-- The side-band wires and pins. -/
structure Sideband where
  wires  : Tab SbWire := []
  warnEn : BitVec 64 := 0
  /-- Pins asserted from outside, host side and heritage side. -/
  hostIn : BitVec 64 := 0
  herIn  : BitVec 64 := 0
  deriving DecidableEq, Repr

/-! ### Slot power -/

/-- The states of a slot channel (Table 10.3), in the numbering of the table. -/
inductive ChanState where
  | disabled | empty | inserting | ready | precharge | gateRise | stabilising | on | warnOff | retryWait | latched
  | lockout | busCut
  deriving DecidableEq, Repr

/-- The counters of a slot channel (Table 10.6). -/
structure ChanCounters where
  attempts     : Nat := 0
  tripsFast    : Nat := 0
  tripsBreaker : Nat := 0
  tripsOther   : Nat := 0
  latches      : Nat := 0
  lockouts     : Nat := 0
  insertions   : Nat := 0
  removals     : Nat := 0
  shortAbsences : Nat := 0
  deriving DecidableEq, Repr

/-- The settings of a slot channel (Table 10.9, Table 10.2). -/
structure ChanSettings where
  enable    : Bool := false
  autoOn    : Bool := false
  hostPower : Bool := false
  vLim      : Nat := 100
  breaker   : Nat := 10
  prechargeMax : Nat := 200
  pgDelay   : Nat := 50
  pfwLead   : Nat := 5
  retryMax  : Nat := 7
  deriving DecidableEq, Repr

/-- A slot channel. -/
structure Chan where
  set      : ChanSettings := {}
  state    : ChanState := .disabled
  cause    : BitVec 8 := 0
  tripCause : BitVec 8 := 0
  retry    : Nat := 0
  present  : Bool := false
  /-- The level of PRSNT_N. -/
  prsntHigh : Bool := true
  /-- Absence has been declared for the present high level of PRSNT_N. -/
  absent   : Bool := true
  /-- PRSNT_N has been low for 250 ms in INSERTING; the hold-off still runs (R353). -/
  debounced : Bool := false
  /-- PFW_N is asserted by the presence rule R352. -/
  pfwPresence : Bool := false
  /-- The drives of QP and QM. -/
  qp       : Bool := false
  qm       : Bool := false
  pg       : Bool := false
  breakerOn : Bool := false
  /-- Limits in force for the current state, taken at its entry (R366). -/
  prechargeNow : Nat := 200
  pgDelayNow : Nat := 50
  pfwLeadNow : Nat := 5
  /-- The turn-off in progress ends in DISABLED, and its cause. -/
  offCause : BitVec 8 := 0
  /-- ENABLE was set to 0 during WARN_OFF or LOCKOUT. -/
  disableAfter : Bool := false
  /-- A fence turns the channel off: WARN_OFF ends in LOCKOUT (Table 12.7). -/
  lockAfter : Bool := false
  /-- A fast trip has acted on the latches during a booth restart (R359). -/
  fastLatched : Bool := false
  /-- Time in ns of the entry to PRECHARGE, of the end of the off-time, and of the end of the hold-off. -/
  onSince  : Nat := 0
  offEnd   : Nat := 0
  holdOffEnd : Nat := 0
  /-- A start request is pending, with its order number. -/
  request  : Option Nat := none
  sample   : SlotSample := {}
  /-- Power Controller Control as the host last wrote it, and the slot status bits set (Table 10.5). -/
  attention : Bool := false
  pcc      : Bool := false
  cmdCompleted : Bool := false
  powerFault : Bool := false
  presenceChanged : Bool := false
  dllChanged : Bool := false
  counters : ChanCounters := {}
  deriving DecidableEq, Repr

/-- The bus settings of slot power, in 0.25 V and ms. -/
structure BusSettings where
  warnLevel  : Nat := 176
  resetLevel : Nat := 152
  startLimit : Nat := 4
  staggerGap : Nat := 10
  deriving DecidableEq, Repr

/-- The slot profile in the configuration flash (R369). -/
structure SlotProfile where
  bus  : BusSettings := {}
  chans : Tab ChanSettings := []
  seq  : Nat := 0
  deriving DecidableEq, Repr

/-- Slot power. -/
structure Slots where
  bus      : BusSettings := {}
  chans    : Tab Chan := []
  warning  : Bool := false
  cut      : Bool := false
  vfeed    : BitVec 16 := 0
  vfeedMin : BitVec 16 := 0xFFFF
  /-- The lowest VFEED during the warning, and when it was asserted. -/
  warnMin  : BitVec 16 := 0
  warnSince : Nat := 0
  busWarnings : Nat := 0
  busCuts  : Nat := 0
  /-- The next order number of a start request, and the time of the last grant. -/
  nextReq  : Nat := 0
  lastGrant : Option Nat := none
  /-- The booth controller is restarting; the gate latches have released; when the restart began. -/
  restarting : Bool := false
  released : Bool := false
  restartAt : Nat := 0
  profile  : Option SlotProfile := none
  deriving DecidableEq, Repr

/-! ### Mailboxes, events and firmware -/

/-- An event entry (Table 11.7). -/
structure EvEntry where
  code    : BitVec 16 := 0
  eseq    : BitVec 16 := 0
  seconds : BitVec 32 := 0
  ns      : BitVec 30 := 0
  data    : BitVec 160 := 0
  deriving DecidableEq, Repr

/-- An open session (R380, R381). -/
structure Session where
  token    : BitVec 32
  /-- The lease in s. -/
  lease    : Nat
  /-- The time in ns at which the lease runs out. -/
  leaseEnd : Nat
  deriving DecidableEq, Repr

/-- The notification of a mailbox (R386). -/
structure Notify where
  enable  : Bool := false
  onDone  : Bool := false
  onEvent : Bool := false
  geid    : Geid := 0
  addr    : BitVec 64 := 0
  data    : BitVec 32 := 0
  deriving DecidableEq, Repr

/-- The last completed command of a mailbox and its response (R378). -/
structure StoredResp where
  opcode  : BitVec 16
  tag     : BitVec 16
  session : BitVec 32
  resp    : List Host.Cell
  deriving DecidableEq, Repr

/-- The requester of a remote command that is running on a mailbox (R389). -/
structure RemoteReq where
  geid      : Geid
  remoteId  : BitVec 32
  partition : BitVec 8
  deriving DecidableEq, Repr

/-- A mailbox and its page (R370, Table 11.3). -/
structure Mailbox where
  cmd         : List Host.Cell := []
  resp        : List Host.Cell := []
  busy        : Bool := false
  done        : Bool := false
  evqOverflow : Bool := false
  collision   : Bool := false
  owner       : BitVec 8 := 0
  evqHead     : BitVec 6 := 0
  evqTail     : BitVec 6 := 0
  evqLost     : BitVec 16 := 0
  /-- The 64 entries of EVQ by entry number. -/
  evq         : Tab EvEntry := []
  session     : Option Session := none
  /-- Bit g: subscribed to group 0x0g (R383). -/
  subs        : BitVec 16 := 0
  notify      : Notify := {}
  stored      : Option StoredResp := none
  remote      : Option RemoteReq := none
  /-- GEIDs that have sent remote commands to the mailbox; events are copied to one that NOTIFY_GEID names (R389). -/
  requesters  : List Geid := []
  deriving DecidableEq, Repr

/-- An event of the always-on log with the partitions that it concerns (R383).
`owners` lists the partitions that own a resource concerned. -/
structure LogEntry where
  entry  : EvEntry
  owners : List (BitVec 8) := []
  deriving DecidableEq, Repr

/-- A copy of the flash directory (R393). -/
structure DirCopy where
  valid       : Bool := false
  seq         : BitVec 32 := 0
  /-- ACTIVE: false is image A, true is image B. -/
  activeB     : Bool := false
  trialImage  : Option Bool := none
  fastRead    : Bool := false
  portList    : List Nat := []
  switchList  : List (BitVec 12) := []
  savedSwitch : Option (BitVec 12) := none
  deriving DecidableEq, Repr

/-- What verification of an image under R394 finds, without the comparison of SVN with the fused minimum.
`err` is a code of Table 11.14. -/
structure ImageInfo where
  err        : BitVec 8 := 0
  version    : BitVec 24 := 0
  svn        : BitVec 6 := 0
  length     : BitVec 32 := 0
  hitlessMin : BitVec 24 := 0
  deriving DecidableEq, Repr

/-- An image slot of the flash.
`factory` is what verification finds of the image that manufacture left there, until the slot is first erased; `bytes` holds what FW_WRITE has programmed since. -/
structure ImageSlot where
  factory : Option ImageInfo := none
  bytes   : List Host.Cell := []
  /-- FW_WRITE_END has returned SUCCESS for what the slot holds (R403). -/
  checked : Bool := false
  deriving DecidableEq, Repr

/-- An update in progress: slot B or A, the length given and the bytes written so far (R403). -/
structure FwUpdate where
  slotB   : Bool
  length  : Nat
  written : Nat
  deriving DecidableEq, Repr

/-- The calibration store (R405).
A byte that is not listed holds its value of manufacture, which reads through `Config.calFactory`. -/
structure CalStore where
  bytes      : List Host.Cell := []
  /-- Sections of Table 11.15 whose CRC fails, by their order in the table: 0 header, 1 lanes, 2 slot channels, 3 monitors, 4 governor. -/
  invalid    : List Nat := []
  writeCount : Nat := 0
  /-- The snapshot of CAL_EXPORT (R407): bytes listed, write count. -/
  snapshot   : Option (List Host.Cell × Nat) := none
  /-- The bytes of a CAL_IMPORT in progress and their number. -/
  importBytes : List Host.Cell := []
  importCount : Nat := 0
  deriving DecidableEq, Repr

/-- The stages of STAGE (Table 11.2). -/
abbrev stageRom : BitVec 4 := 0
/-- STAGE VERIFY. -/
abbrev stageVerify : BitVec 4 := 1
/-- STAGE LOAD. -/
abbrev stageLoad : BitVec 4 := 2
/-- STAGE READY. -/
abbrev stageReady : BitVec 4 := 3
/-- STAGE RESTARTING. -/
abbrev stageRestarting : BitVec 4 := 4
/-- STAGE RECOVERY. -/
abbrev stageRecovery : BitVec 4 := 5
/-- STAGE FAILED. -/
abbrev stageFailed : BitVec 4 := 6
/-- STAGE INTERMISSION. -/
abbrev stageIntermission : BitVec 4 := 7
/-- STAGE HELD. -/
abbrev stageHeld : BitVec 4 := 8

/-- The Ringmaster: global page, mailboxes, event log, homes, flash and calibration store. -/
structure Mgmt where
  stage      : BitVec 4 := 0
  image      : Bool := false
  fallback   : Bool := false
  trial      : Bool := false
  preheat    : Bool := false
  bootErr    : BitVec 8 := 0
  bootMs     : BitVec 16 := 0
  fwVersion  : BitVec 24 := 0
  /-- AVAILABLE of every mailbox page: Efnuquin serves the mailboxes. -/
  available  : Bool := false
  /-- The time in ns at which AVAILABLE last became 0; leases do not run from then (R381). -/
  unavailableAt : Nat := 0
  mbox       : Tab Mailbox := []
  /-- The always-on event log, oldest first, at most 512 entries (R383). -/
  log        : List LogEntry := []
  eseq       : BitVec 16 := 0
  /-- Events logged since the weft reset in progress began (R400). -/
  loggedSinceWeft : Nat := 0
  /-- Staged writes were discarded at the start of the weft reset in progress (R399). -/
  stagedDropped : Bool := false
  /-- The MB0 port list by port index, and the MB0 switch list (R373). -/
  portList   : List Nat := []
  switchList : List (BitVec 12) := []
  /-- MB_ACCESS_DENY of SYS_QUERY (R372). -/
  accessDeny : Nat := 0
  /-- Time of the start of boot in ns (R395). -/
  bootStart  : Nat := 0
  /-- Home PU of the Ringmaster, Patchwork A and Patchwork B (R21). -/
  homeRm     : Nat := 32
  homeA      : Nat := 0
  homeB      : Nat := 64
  serialPtr  : BitVec 16 := 0
  /-- The bytes that the last Block Read of the management serial port returned (Table 11.11). -/
  serialData : List Byte := []
  /-- The last transaction of the management serial port was acknowledged (R390). -/
  serialAck  : Bool := false
  dir0       : DirCopy := { valid := true }
  dir1       : DirCopy := {}
  /-- Manufacture leaves a valid image 1.4.0 in slot A and no image in slot B (DESIGN CHOICE, log entry 12). -/
  imageA     : ImageSlot := { factory := some { version := 0x010400, length := 0x00AFF000, hitlessMin := 0x010400 } }
  imageB     : ImageSlot := { factory := some { err := 3 } }
  fusedSvn   : BitVec 6 := 0
  update     : Option FwUpdate := none
  /-- The image that FW_WRITE_END verified last: false image A, true image B (R403). -/
  lastChecked : Bool := false
  cal        : CalStore := {}
  /-- A weft reset is in progress, and the restart is into a new image (R398, R401). -/
  weftReset  : Bool := false
  newImage   : Bool := false
  deriving DecidableEq, Repr

/-! ### The safety net -/

/-- A fault record (Table 12.5). -/
structure FaultRec where
  source  : BitVec 12
  error   : BitVec 8
  severity : BitVec 3
  pairOnly : Bool := false
  unsupervised : Bool := false
  first   : Bool := false
  injected : Bool := false
  multi   : Bool := false
  count   : BitVec 16 := 1
  frseq   : BitVec 16 := 0xFFFF
  seconds : BitVec 32 := 0
  ns      : BitVec 30 := 0
  detail  : BitVec 64 := 0
  unit    : BitVec 20 := 0xFFFFF
  deriving DecidableEq, Repr

/-- A waiting report of a source (R415). -/
structure Report where
  code   : BitVec 8
  count  : BitVec 16 := 1
  detail : BitVec 64 := 0
  injected : Bool := false
  deriving DecidableEq, Repr

/-- The pair of an error source (Table 12.4). -/
inductive Pair where
  | idle | pending | invalid
  deriving DecidableEq, Repr

/-- An error source (R410, R414 to R418). -/
structure Source where
  reports  : List Report := []
  pair     : Pair := .idle
  unsupervised : Bool := false
  /-- The collector has seen the pair change: the record time in fabric seconds and ns, and no report has arrived since. -/
  seenAt   : Option (BitVec 32 × BitVec 30) := none
  noReport : Bool := false
  /-- FAULT_INJECT has raised the pair without a report. -/
  pairInjected : Bool := false
  correctable : Nat := 0
  deriving DecidableEq, Repr

/-- The merge interval of a source and error code (R420): the pending total, with the DETAIL, severity and flags of the latest occurrence. -/
structure Merge where
  total  : Nat := 0
  detail : BitVec 64 := 0
  injected : Bool := false
  severity : BitVec 3 := 0
  unsupervised : Bool := false
  deriving DecidableEq, Repr

/-- A fenced unit with the source and error that fenced it (R424, FENCE_QUERY). -/
structure Fence where
  unit   : UnitId
  source : BitVec 12
  error  : BitVec 8
  deriving DecidableEq, Repr

/-- The safety net. -/
structure Faults where
  /-- Severities that FAULT_SEVERITY_SET has set, by source class × 256 + code. -/
  severity : Tab (Option (BitVec 3)) := []
  sources  : Tab Source := []
  /-- The fault log, oldest first, at most 1,024 records. -/
  log      : List FaultRec := []
  frseq    : BitVec 16 := 0
  merges   : Tab (Option Merge) := []
  ffr      : Option FaultRec := none
  firstFatal : Option FaultRec := none
  ffrLevel : BitVec 3 := 2
  /-- The booth record store, oldest first, and the records lost from it (R417). -/
  booth    : List FaultRec := []
  boothLost : Nat := 0
  boothMerges : Tab (Option Merge) := []
  fences   : List Fence := []
  forward0 : Option Geid := none
  forward1 : Option Geid := none
  poisonSet : Tab Nat := []
  poisonRx : Tab Nat := []
  pairOnly : Nat := 0
  merged   : Nat := 0
  logOverwritten : Nat := 0
  fenceDrop : Nat := 0
  /-- The stopped state after a Fatal classification (R429). -/
  stopped  : Bool := false
  aliveRunning : Bool := false
  aliveLevel : Bool := false
  stopCause : BitVec 2 := 0
  /-- The time of the last refresh of the liveness watchdog, and its suspension (R432). -/
  refreshed : Nat := 0
  suspended : Bool := true
  /-- PUs fenced whose incomplete frames are not yet discarded (R425). -/
  cleanup  : List Nat := []
  deriving DecidableEq, Repr

/-! ### Self-test and performance monitors -/

/-- A BIST result record (Table 13.3), without UNUSABLE, which the marks give. -/
structure BistRec where
  unit      : UnitId
  result    : BitVec 3 := 0
  sigValid  : Bool := false
  verified  : Bool := false
  abortCause : BitVec 4 := 0
  failPart  : BitVec 2 := 0
  signature : BitVec 64 := 0
  expected  : BitVec 64 := 0
  failAddr  : BitVec 32 := 0
  startSec  : BitVec 32 := 0
  startNs   : BitVec 30 := 0
  durationUs : BitVec 32 := 0
  /-- Time in ns at which PENDING began. -/
  since     : Nat := 0
  /-- The test is still to be re-initialised; isolation holds. -/
  active    : Bool := false
  /-- The quad was in Quad Off and returns to it (Table 13.1). -/
  wasOff    : Bool := false
  deriving DecidableEq, Repr

/-- A programmable counter of a monitor (R451). -/
structure PmonCounter where
  ctl     : BitVec 32 := 0
  preload : BitVec 48 := 0
  count   : BitVec 48 := 0
  ovf     : Bool := false
  /-- Wraps of a counter whose event the model counts, until PMON_COUNTER_WRAP has acted on them. -/
  wraps   : Nat := 0
  deriving DecidableEq, Repr

/-- A sample record (R453). -/
structure PmonSample where
  cycles : BitVec 64
  k      : BitVec 8
  event  : BitVec 16
  ctx    : BitVec 128
  deriving DecidableEq, Repr

/-- A performance monitor (R448). -/
structure Pmon where
  cycles   : BitVec 64 := 0
  counters : Tab PmonCounter := []
  frozen   : Bool := false
  samples  : List PmonSample := []
  samplesLost : Nat := 0
  lastEvent : Option Nat := none
  deriving DecidableEq, Repr

/-- What a snapshot captured of a monitor (R456, R457). -/
structure PmonSnap where
  valid    : Bool := false
  cycles   : BitVec 64 := 0
  counters : List (BitVec 48) := [0, 0, 0, 0, 0, 0, 0, 0]
  ovf      : BitVec 8 := 0
  lost     : Nat := 0
  deriving DecidableEq, Repr

/-- The marks of a port that a snapshot captured, in the form of the two responses of R457. -/
structure MarkSnap where
  bytes : List Byte := []
  deriving DecidableEq, Repr

/-- Self-test and monitors. -/
structure Bist where
  /-- Result records by unit key: 65,536 × kind + INDEX. -/
  records  : Tab (Option BistRec) := []
  /-- Units marked unusable, by unit key in increasing order (R446). -/
  marks    : List Nat := []
  pmons    : Tab Pmon := []
  /-- A snapshot pending at fabric time in ns, and CLEAR_MARKS. -/
  pending  : Option (Nat × Bool) := none
  snapSeq  : BitVec 16 := 0
  snapTime : Nat := 0
  skewOk   : Bool := false
  snaps    : Tab PmonSnap := []
  marksSnap : Tab MarkSnap := []
  deriving DecidableEq, Repr

/-! ### Resets, power and clocks -/

/-- Why the rails are being switched off, or off (R467 to R469, R474). -/
inductive RailPlan where
  /-- Off, and nothing in progress. -/
  | idle
  /-- Off, until the Selvedge temperature has been read (Table 14.3, R2, R3). -/
  | check
  /-- The rails are being switched on; after a failure or loss the sequence starts again 1 s later. -/
  | up
  /-- The pre-heat step is running with VDD_IO, VDD_SRAM and VDD_CORE (R469). -/
  | preheat
  /-- The hold of R2. -/
  | hold
  /-- The rails are being switched off for Intermission, after a failed sequence, after the loss of a rail, or at the end of pre-heat. -/
  | downIntermission | downFailed | downLost | downPreheat | downPreheatTimeout
  /-- Every rail is up and the core die waits for REFCLK_CORE, or has been released. -/
  | upDone
  /-- Off, waiting 1 s for the next sequence; or after three failures, waiting for a wake source. -/
  | retry | gaveUp
  /-- Off, waiting 60 s for the next pre-heat step. -/
  | preheatWait
  deriving DecidableEq, Repr

/-- How a boot in progress was caused, which decides what survives (Table 14.8). -/
inductive BootKind where
  | powerOn | cold | warm | wake
  deriving DecidableEq, Repr

/-- Where the module stands with Intermission (R474). -/
inductive Intermission where
  | no | entering | railsFalling | asleep | waking
  deriving DecidableEq, Repr

/-- What the retention store holds (R478): the R entries of Table 14.8. -/
structure Retention where
  severity : Tab (Option (BitVec 3))
  ffrLevel : BitVec 3
  forward0 : Option Geid
  forward1 : Option Geid
  fences   : List Fence
  fabric   : Fabric
  ports    : Tab Port
  lanes    : Tab Lane
  links    : Tab Link
  carousel : Carousel
  sched    : Scheduling
  part     : Partitions
  jugglers : Jugglers
  pwA      : Patchwork
  pwB      : Patchwork
  homeRm   : Nat
  homeA    : Nat
  homeB    : Nat
  quadOn   : Tab Bool
  ringOff  : Tab Bool
  deriving DecidableEq, Repr

/-- The power governor (R497 to R499). -/
structure Governor where
  /-- Measurements of 20 µs, newest first, as runs of above or not above 1,350 W; at most 100,000 in all. -/
  history  : List (Bool × Nat) := []
  /-- Measurements since the last change of the power step count and since the last change of the ladder applied, each up to 500, and measurements in a row at or below 1,300 W. -/
  sinceStep : Nat := 500
  sinceLadder : Nat := 500
  lowRun   : Nat := 0
  step     : Nat := 0
  throttle : Nat := 0
  /-- The temperature has been at or above 105 °C without a return below it; checks below 100 °C in a row. -/
  hot      : Bool := false
  coolRun  : Nat := 0
  vid      : BitVec 4 := 5
  /-- The junction temperature in °C at the last check (R493). -/
  tj       : Int := 0
  deriving DecidableEq, Repr

/-- Rails, resets, power states, clocks and JTAG. -/
structure Power where
  /-- PWR_EN and PWR_OK of each rail in the order of Table 14.2. -/
  en       : List Bool := [false, false, false, false, false]
  ok       : List Bool := [false, false, false, false, false]
  plan     : RailPlan := .idle
  seqFails : Nat := 0
  boot     : BootKind := .powerOn
  /-- The core die has been released from reset. -/
  coreOn   : Bool := false
  /-- The booth controller runs (POWER_ON has been taken). -/
  started  : Bool := false
  holdSince : Option Nat := none
  preheatSince : Option Nat := none
  preheatN : Bool := false
  quadOn   : Tab Bool := []
  ringOff  : Tab Bool := []
  /-- Rings whose PUs still discard output cells after a Ring reset (R463). -/
  ringDiscard : Tab Bool := []
  inter    : Intermission := .no
  interSince : Nat := 0
  retention : Option Retention := none
  /-- Bits in the order of Table 14.6: PRESENCE, WAKE_N, SERIAL, PPS, TIMER. -/
  wakeMask : BitVec 5 := 0b00111
  wakeTimer : Nat := 0
  /-- The wake source seen, as its place in Table 14.6. -/
  wakeSrc  : Option Nat := none
  /-- A warm reset that SYS_RESET scheduled is to begin (R461). -/
  warmDue  : Bool := false
  gov      : Governor := {}
  refclkAo : Bool := true
  refclkCore : Bool := true
  jtagUnlocked : Bool := false
  jtagNonce : BitVec 32 := 0
  deriving DecidableEq, Repr

/-- What manufacture fixes of a part: no command writes it but FW_CONFIRM with BURN, which `Mgmt.fusedSvn` holds. -/
structure Part where
  nodeUid  : BitVec 64 := 0
  stepping : BitVec 8 := 0x10
  /-- The part is an XM5120-LC-X (R1). -/
  lcX      : Bool := false
  /-- MS_ADDR[2:0] pins (R390). -/
  msAddr   : BitVec 3 := 0
  deriving DecidableEq, Repr

/-! ### The machine -/

/-- The XM5120.
`now`, `free` and `pending` are the model's own: time in ns since power reached regulation, the number of free values used, and the commands that wait, first in first out. -/
structure State where
  pending  : List Instr := []
  now      : Nat := 0
  /-- Counts the free values read so far; `Config.freeWord` applied to it is the next one. Its value at reset is a DESIGN CHOICE (log entry 2). -/
  free     : Nat := 0
  part     : Part := {}
  mgmt     : Mgmt := {}
  ports    : Tab Port := []
  lanes    : Tab Lane := []
  links    : Tab Link := []
  fabric   : Fabric := {}
  car      : Carousel := {}
  sched    : Scheduling := {}
  parts    : Partitions := {}
  jug      : Jugglers := {}
  pwA      : Patchwork := {}
  pwB      : Patchwork := {}
  sideband : Sideband := {}
  slots    : Slots := {}
  faults   : Faults := {}
  bist     : Bist := {}
  power    : Power := {}
  deriving DecidableEq, Repr

/-- The machine at the moment VDD_AO and VDD_SV reach regulation, before POWER_ON: STAGE ROM, every rail off, no command waiting. -/
def State.reset : State := {}

end Sys2Proof.Machine
end

