-- ==== Sys2Proof/Machine/Operands.lean ====
section
/-!
DEFINITION. Operand forms: bytes and fields of structures (R7), payload fields of commands, response layouts (R510), the frame header (Table 4.2), link-block headers (Table 3.2) and cyclic redundancy checks.
-/

namespace Sys2Proof.Machine

/-- The bytes of a number, least significant first (R7). -/
def bytesOf (n v : Nat) : List Byte := (List.range n).map fun i => BitVec.ofNat 8 (v >>> (8 * i))

/-- The number that bytes spell, least significant first (R7). -/
def natOf : List Byte → Nat
  | [] => 0
  | b :: r => b.toNat + 256 * natOf r

/-- Field [lo + w − 1 : lo] of a number. -/
def fld (v lo w : Nat) : Nat := (v >>> lo) % 2 ^ w

/-- A field as a bit vector. -/
def fbv (v lo w : Nat) : BitVec w := BitVec.ofNat w (v >>> lo)

/-- A field of `w` bits as a signed number. -/
def fldSigned (v lo w : Nat) : Int := (fbv v lo w).toInt

/-- Bit `i` of a number. -/
def bitOf (v i : Nat) : Bool := v.testBit i

/-- A flag as a number. -/
def b2n (b : Bool) : Nat := if b then 1 else 0

/-- A structure from its fields: value and width of each, lowest field first. -/
def packBits : List (Nat × Nat) → Nat
  | [] => 0
  | (v, w) :: r => v % 2 ^ w + 2 ^ w * packBits r

/-- A list of values laid out under R510: value and width in bytes of each. -/
def packVals (l : List (Nat × Nat)) : List Byte := l.flatMap fun e => bytesOf e.2 (e.1 % 2 ^ (8 * e.2))

/-- Values of 8 bytes each: counters with [63:48] zero. -/
def packCounters (l : List Nat) : List Byte := packVals (l.map fun v => (v, 8))

/-- A two's complement number of `n` bytes as a Nat. -/
def signedNat (n : Nat) (v : Int) : Nat := (BitVec.ofInt (8 * n) v).toNat

/-- ⌈a / b⌉. -/
def ceilDiv (a b : Nat) : Nat := (a + b - 1) / b

/-! ### Frames -/

end Sys2Proof.Machine

namespace Sys2Proof
open Sys2Proof.Machine

/-- The kinds of Table 4.3 that decide a frame's treatment. -/
inductive FrameKind where
  | nonPosted | posted | completion
  deriving DecidableEq, Repr

/-- Frame type MEM_READ. -/
abbrev tyMemRead : BitVec 6 := 1
/-- Frame type MEM_WRITE. -/
abbrev tyMemWrite : BitVec 6 := 2
/-- Frame type COMPLETION. -/
abbrev tyCompletion : BitVec 6 := 3
/-- Frame type MESSAGE. -/
abbrev tyMessage : BitVec 6 := 4
/-- Frame type ATOMIC. -/
abbrev tyAtomic : BitVec 6 := 5
/-- Frame type CONFIGURATION. -/
abbrev tyConfig : BitVec 6 := 6
/-- Frame type PCIE_TUNNEL. -/
abbrev tyPcie : BitVec 6 := 7
/-- Frame type HERITAGE_TUNNEL. -/
abbrev tyHeritage : BitVec 6 := 8
/-- Frame type MANAGEMENT. -/
abbrev tyManagement : BitVec 6 := 9

/-- The kind of a frame (Table 4.3). A frame of a reserved type or SUBTYPE, which is malformed, counts as posted. -/
def Hdr.kind (h : Hdr) : FrameKind :=
  if h.type = tyMemRead ∨ h.type = tyAtomic ∨ h.type = tyConfig then .nonPosted
  else if h.type = tyCompletion then .completion
  else if h.type = tyPcie ∨ h.type = tyHeritage then
    (if h.subtype.toNat % 4 = 1 then .nonPosted else if h.subtype.toNat % 4 = 2 then .completion else .posted)
  else .posted

/-- The VC of Table 3.4. -/
def Hdr.vc (h : Hdr) : Nat :=
  if h.kind = .completion then 6
  else if h.type = tyManagement then 7
  else if h.cls.toNat ≤ 5 then h.cls.toNat else 5

/-- The frame header of Table 4.2 as a number. -/
def Hdr.toNat (h : Hdr) : Nat :=
  packBits [(h.dst.toNat, 20), (h.src.toNat, 20), (h.type.toNat, 6), (h.cls.toNat, 3), (h.tag.toNat, 12), (b2n h.poison, 1),
    (h.colour.toNat, 2), (h.length.toNat, 13), (h.part.toNat, 8), (h.inst.toNat, 12), (h.epoch.toNat, 2), (h.hops.toNat, 5),
    (h.status.toNat, 4), (h.subtype.toNat, 8), (0, 12), (h.addr.toNat, 64), (h.tw.toNat, 64)]

/-- The frame header that 32 bytes spell (Table 4.2). -/
def Hdr.ofNat (v : Nat) : Hdr :=
  { dst := fbv v 0 20, src := fbv v 20 20, type := fbv v 40 6, cls := fbv v 46 3, tag := fbv v 49 12, poison := bitOf v 61,
    colour := fbv v 62 2, length := fbv v 64 13, part := fbv v 77 8, inst := fbv v 85 12, epoch := fbv v 97 2,
    hops := fbv v 99 5, status := fbv v 104 4, subtype := fbv v 108 8, addr := fbv v 128 64, tw := fbv v 192 64 }

/-- The blocks and cells of a frame with payload length L: ⌈(32 + L) / 240⌉ (R92). -/
def blocksFor (len : Nat) : Nat := ceilDiv (32 + len) 240

/-- The blocks, and cells, of a frame. -/
def Frame.blocks (f : Frame) : Nat := blocksFor f.hdr.length.toNat

/-- REQ_LEN or BYTE_COUNT (Table 4.4). -/
def Hdr.reqLen (h : Hdr) : Nat := fld h.tw.toNat 0 13

/-- The bytes that a memory, atomic or configuration request addresses (R133). -/
def Hdr.span (h : Hdr) : Nat :=
  if h.type = tyMemRead ∨ (h.type = tyConfig ∧ h.subtype = 0) then h.reqLen else h.length.toNat

/-- The bytes of a frame as its blocks carry them: header, then payload. -/
def Frame.bytes (f : Frame) : List Byte :=
  bytesOf 32 f.hdr.toNat ++ (match f.tlp with | none => f.payload | some t => Config.tlpBytes t)

/-- The payload of block or cell `n` of a frame (R92, R168). -/
def Frame.block (f : Frame) (n : Nat) : BlockPayload := BitVec.ofNat 1920 (natOf ((f.bytes.drop (240 * n)).take 240))

end Sys2Proof

namespace Sys2Proof.Machine

/-! ### Link blocks -/

/-- Block types (Table 3.3). -/
abbrev btIdle : Nat := 0
/-- Block type DATA. -/
abbrev btData : Nat := 1
/-- Block type NAK. -/
abbrev btNak : Nat := 2
/-- Block type CREDIT. -/
abbrev btCredit : Nat := 3
/-- Block type EXCHANGE. -/
abbrev btExchange : Nat := 4
/-- Block type POWER. -/
abbrev btPower : Nat := 5

/-- A block header (Table 3.2). -/
def blockHdr (ty vc : Nat) (first last : Bool) (seq ack : BitVec 16) (crVc crInc : Nat) (empty : BitVec 8) : BitVec 64 :=
  BitVec.ofNat 64 (packBits [(ty, 4), (vc, 3), (b2n first, 1), (b2n last, 1), (seq.toNat, 16), (ack.toNat, 16), (crVc, 3),
    (crInc, 12), (empty.toNat, 8)])

/-- SEQ or HIGH of a block header. -/
def bhSeq (h : BitVec 64) : BitVec 16 := fbv h.toNat 9 16
/-- ACKSEQ of a block header. -/
def bhAck (h : BitVec 64) : BitVec 16 := fbv h.toNat 25 16
/-- VC of a block header. -/
def bhVc (h : BitVec 64) : Nat := fld h.toNat 4 3
/-- FIRST of a block header. -/
def bhFirst (h : BitVec 64) : Bool := bitOf h.toNat 7
/-- LAST of a block header. -/
def bhLast (h : BitVec 64) : Bool := bitOf h.toNat 8
/-- CR_VC of a block header. -/
def bhCrVc (h : BitVec 64) : Nat := fld h.toNat 41 3
/-- CR_INC of a block header. -/
def bhCrInc (h : BitVec 64) : Nat := fld h.toNat 44 12
/-- VC_EMPTY of a block header. -/
def bhEmpty (h : BitVec 64) : BitVec 8 := fbv h.toNat 56 8

/-! ### Cyclic redundancy checks -/

/-- One bit into the CRC-16 register of R141 and Table 2.9, polynomial x^16 + x^12 + x^5 + 1. -/
def crc16Bit (reg : BitVec 16) (b : Bool) : BitVec 16 :=
  let fb := (reg.getLsbD 15) != b
  let sh := reg <<< 1
  if fb then sh ^^^ 0x1021 else sh

/-- The CRC-16 of the low `n` bits of a number, bit 0 first. -/
def crc16 (init : BitVec 16) (v n : Nat) : BitVec 16 := (List.range n).foldl (fun r i => crc16Bit r (bitOf v i)) init

/-- The hash of R141 over the key SRC_GEID + DST_GEID × 2^20 + CLASS × 2^40 of 6 bytes. -/
def multipathHash (seed : BitVec 16) (src dst : Geid) (cls : BitVec 3) : BitVec 16 :=
  crc16 seed (src.toNat + dst.toNat * 2 ^ 20 + cls.toNat * 2 ^ 40) 48

/-- One bit into the CRC-64 register of R89. -/
def crc64Bit (reg : BitVec 64) (b : Bool) : BitVec 64 :=
  let fb := (reg.getLsbD 63) != b
  let sh := reg <<< 1
  if fb then sh ^^^ 0x42F0E1EBA9EA3693 else sh

/-- The CRC-64 of a block's bytes 0 to 247 (R89): preset to ones, inverted. -/
def crc64 (hdr : BitVec 64) (pl : BlockPayload) : BitVec 64 :=
  let r := (List.range 64).foldl (fun r i => crc64Bit r (hdr.getLsbD i)) (BitVec.allOnes 64)
  ~~~ ((List.range 1920).foldl (fun r i => crc64Bit r (pl.getLsbD i)) r)

/-! ### Instruction operands that several families read -/

/-- The exchange record that a payload spells (Table 2.11). -/
def ExchangeRec.ofPayload (pl : BlockPayload) : ExchangeRec :=
  let v := pl.toNat
  { ver := fbv v 0 16, kind := fbv v 16 8, width := fbv v 24 8, geid := fbv v 32 20, vcMask := fbv v 56 8,
    credit := (List.range 8).map fun i => fld v (64 + 16 * i) 16,
    features := fbv v 192 32, depth := fbv v 224 16, uid := fbv v 240 64, portNum := fbv v 304 8, peerSeen := bitOf v 1912 }

/-- The payload of an exchange record (Table 2.11). -/
def ExchangeRec.payload (r : ExchangeRec) : BlockPayload :=
  BitVec.ofNat 1920 (packBits [(r.ver.toNat, 16), (r.kind.toNat, 8), (r.width.toNat, 8), (r.geid.toNat, 20), (0, 4),
    (r.vcMask.toNat, 8), (packBits (r.credit.map fun c => (c, 16)), 128), (r.features.toNat, 32), (r.depth.toNat, 16),
    (r.uid.toNat, 64), (r.portNum.toNat, 8), (0, 1600), (b2n r.peerSeen, 1)])

end Sys2Proof.Machine
end

