-- ==== Sys2Proof/Machine/PmonTable.lean ====
section
/-!
DEFINITION. The performance monitors of Table 13.6, the events of Table 13.8 and the control word of Table 13.7.
-/

namespace Sys2Proof.Machine

/-- The monitors (Table 13.6). -/
def pmonMons : List Nat := List.range 0x91 ++ (List.range 0x80).map fun q => 0x100 + q

/-- A MON number exists (Table 13.6). -/
def pmonExists (mon : Nat) : Bool := decide (mon ≤ 0x90 ∨ (0x100 ≤ mon ∧ mon < 0x180))

/-- The Ring of a monitor; the Carousel has none. -/
def pmonRing (mon : Nat) : Option Nat :=
  if mon < 0x80 then some (mon / 8) else if mon < 0x90 then some (mon - 0x80) else if mon = 0x90 then none else some ((mon - 0x100) / 8)

/-- The number of qualifiers of a listed event (Table 13.8): lane 4, VC 8, queue 10, Juggler 4, and 0 for none. -/
def eventQuals (ev : Nat) : Option Nat :=
  if ev ≤ 0x3 ∨ ev = 0x8 ∨ (0x10 ≤ ev ∧ ev ≤ 0x23) then some 0
  else if 0x40 ≤ ev ∧ ev ≤ 0x44 then some 4
  else if ev = 0x60 ∨ ev = 0x64 ∨ ev = 0x6A ∨ (0x108 ≤ ev ∧ ev ≤ 0x10A) then some 8
  else if ev = 0x48 ∨ ev = 0x49 ∨ (0x61 ≤ ev ∧ ev ≤ 0x6C) ∨ (0x70 ≤ ev ∧ ev ≤ 0x73) then some 0
  else if (0x100 ≤ ev ∧ ev ≤ 0x104) ∨ ev = 0x10B ∨ (0x110 ≤ ev ∧ ev ≤ 0x113) ∨ (0x118 ≤ ev ∧ ev ≤ 0x11C) then some 0
  else if 0x140 ≤ ev ∧ ev ≤ 0x145 then some 0
  else if ev = 0x180 ∨ (0x182 ≤ ev ∧ ev ≤ 0x184) ∨ ev = 0x190 ∨ ev = 0x191 then some 10
  else if ev = 0x181 ∨ (0x188 ≤ ev ∧ ev ≤ 0x18E) then some 0
  else if (0x1C0 ≤ ev ∧ ev ≤ 0x1C3) ∨ (0x1C8 ≤ ev ∧ ev ≤ 0x1CC) ∨ (0x1D0 ≤ ev ∧ ev ≤ 0x1D6) then some 4
  else none

/-- The event ranges that a monitor accepts (Table 13.6). -/
def eventRange (mon ev : Nat) : Bool :=
  decide (ev ≤ 0x3F) ||
  (if mon < 0x80 then decide ((0x40 ≤ ev ∧ ev ≤ 0xFF) ∨ (0x100 ≤ ev ∧ ev ≤ 0x13F) ∨ (0x180 ≤ ev ∧ ev ≤ 0x1BF))
   else if mon = 0x90 then decide (0x140 ≤ ev ∧ ev ≤ 0x17F)
   else if 0x100 ≤ mon then decide (0x1C0 ≤ ev ∧ ev ≤ 0x1FF)
   else false)

/-- A monitor accepts an event (R459). -/
def eventOk (mon ev : Nat) : Bool := (eventQuals ev).isSome && eventRange mon ev

/-- The events that the model's steps make, and that it counts itself.
The others count clock cycles, conditions over cycles, and what the weft, the lanes' error correction and the PCI Express logic do out of the model's sight: their counts are free values (log entry 62). -/
def eventCounted (ev : Nat) : Bool :=
  ([0x003, 0x043, 0x048, 0x049, 0x060, 0x061, 0x062, 0x063, 0x064, 0x065, 0x066, 0x067, 0x068, 0x069, 0x070, 0x071, 0x100, 0x101, 0x102, 0x103,
    0x104, 0x108, 0x109, 0x110, 0x111, 0x112, 0x113, 0x118, 0x11A, 0x11C, 0x140, 0x141, 0x142, 0x143, 0x144, 0x145, 0x180, 0x181, 0x182, 0x184, 0x188, 0x189,
    0x18A, 0x18B, 0x18C, 0x18E, 0x191, 0x1C8, 0x1C9, 0x1CA, 0x1CB, 0x1CC, 0x1D0, 0x1D1, 0x1D2, 0x1D3, 0x1D5] : List Nat).contains ev

/-- EVENT of a control word. -/
def PmonCounter.event (c : PmonCounter) : Nat := fld c.ctl.toNat 0 9
/-- ENABLE of a control word. -/
def PmonCounter.enabled (c : PmonCounter) : Bool := bitOf c.ctl.toNat 9
/-- OVF_SAMPLE of a control word. -/
def PmonCounter.samples (c : PmonCounter) : Bool := bitOf c.ctl.toNat 15
/-- RELOAD of a control word. -/
def PmonCounter.reload (c : PmonCounter) : Bool := bitOf c.ctl.toNat 16

/-- The value that a counter takes at a wrap. -/
def PmonCounter.base (c : PmonCounter) : Nat := if c.reload then c.preload.toNat else 0

/-- `n` occurrences with a qualifier: a wrap sets OVF and takes the counter to 0 or PRELOAD (R451). -/
def PmonCounter.add (c : PmonCounter) (ev qual n : Nat) : PmonCounter :=
  if c.enabled ∧ c.event = ev ∧ (bitOf c.ctl.toNat 14 = false ∨ fld c.ctl.toNat 10 4 = qual) then
    let v := c.count.toNat + n
    if v < 2 ^ 48 then { c with count := BitVec.ofNat 48 v }
    else { c with count := BitVec.ofNat 48 (c.base + (v - 2 ^ 48)), ovf := true, wraps := c.wraps + 1 }
  else c

/-- Count `n` occurrences of an event at a monitor; nothing is counted while it is frozen (R455). -/
def State.pmon (s : State) (mon ev qual n : Nat) : State :=
  let m := Tab.get {} s.bist.pmons mon
  if m.frozen ∨ m.counters = [] then s
  else
    { s with bist := { s.bist with
        pmons := Tab.put {} s.bist.pmons mon { m with counters := Tab.mapAll {} m.counters fun c => c.add ev qual n } } }

/-- Count occurrences at the monitor of a Juggler's group. -/
def State.jmon (s : State) (j ev n : Nat) : State := s.pmon (0x100 + j / 4) ev (j % 4) n

end Sys2Proof.Machine
end

