-- ==== Sys2Proof/Machine/Flags.lean ====
section
/-!
DEFINITION. Counters, status bits and status words: saturation, the mailbox STATUS word (Table 11.3), command statuses (Table 11.6), completion statuses (Table 4.5), event codes (Table 11.8).
-/

namespace Sys2Proof.Machine

/-- The greatest value of a 48-bit counter. -/
def max48 : Nat := 2 ^ 48 - 1

/-- A 48-bit counter that saturates, raised by `n`. -/
def satAdd (c n : Nat) : Nat := min (c + n) max48

/-- A 48-bit counter that saturates, raised by one. -/
def inc48 (c : Nat) : Nat := satAdd c 1

/-- EVQ_LOST and other 16-bit counts that saturate. -/
def inc16 (c : BitVec 16) : BitVec 16 := if c = 0xFFFF then c else c + 1

/-- Mailboxes MB0 and MB63 are privileged (R370). -/
def privilegedMb (n : Nat) : Bool := n == 0 || n == 63

/-- EVENT of a mailbox: the event queue is not empty (R375). -/
def Mailbox.event (m : Mailbox) : Bool := decide (m.evqHead ≠ m.evqTail)

/-- The entries that the event queue holds (R375). -/
def Mailbox.queued (m : Mailbox) : Nat := (m.evqTail - m.evqHead).toNat

/-- The word at +0x2008 of a mailbox page (Table 11.3). -/
def Mailbox.statusWord (m : Mailbox) (n : Nat) (available : Bool) : Nat :=
  packBits [(b2n m.busy, 1), (b2n m.done, 1), (b2n m.event, 1), (b2n m.evqOverflow, 1), (b2n available, 1),
    (b2n m.collision, 1), (0, 2), ((if privilegedMb n then 0 else m.owner.toNat), 8), (b2n (privilegedMb n), 1)]

/-- The word at +0x2010 of a mailbox page (Table 11.3). -/
def Mailbox.queueWord (m : Mailbox) : Nat :=
  packBits [(m.evqHead.toNat, 6), (0, 2), (m.evqTail.toNat, 6), (0, 2), (m.evqLost.toNat, 16)]

/-- An event entry as 32 bytes (Table 11.7). -/
def EvEntry.bytes (e : EvEntry) : List Byte :=
  bytesOf 32 (packBits [(e.code.toNat, 16), (e.eseq.toNat, 16), (e.seconds.toNat, 32), (e.ns.toNat, 30), (0, 2), (e.data.toNat, 160)])

/-! ### Command status (Table 11.6) -/

/-- Command status SUCCESS. -/
abbrev stSuccess : Nat := 0x00
/-- Command status INVALID_OPCODE. -/
abbrev stInvalidOpcode : Nat := 0x01
/-- Command status INVALID_FIELD. -/
abbrev stInvalidField : Nat := 0x02
/-- Command status INVALID_LENGTH. -/
abbrev stInvalidLength : Nat := 0x03
/-- Command status NOT_PERMITTED. -/
abbrev stNotPermitted : Nat := 0x04
/-- Command status BAD_STATE. -/
abbrev stBadState : Nat := 0x05
/-- Command status BUSY. -/
abbrev stBusy : Nat := 0x06
/-- Command status NO_RESOURCE. -/
abbrev stNoResource : Nat := 0x07
/-- Command status UNUSABLE. -/
abbrev stUnusable : Nat := 0x08
/-- Command status NO_SESSION. -/
abbrev stNoSession : Nat := 0x09
/-- Command status INTERRUPTED. -/
abbrev stInterrupted : Nat := 0x0A
/-- Command status AUTH_FAIL. -/
abbrev stAuthFail : Nat := 0x0B
/-- Command status WEAR_LIMIT. -/
abbrev stWearLimit : Nat := 0x0C

/-! ### Completion status (Table 4.5) -/

/-- Completion status SUCCESS. -/
abbrev csSuccess : BitVec 4 := 0x0
/-- Completion status UNSUPPORTED. -/
abbrev csUnsupported : BitVec 4 := 0x1
/-- Completion status COMPLETER_ABORT. -/
abbrev csAbort : BitVec 4 := 0x2
/-- Completion status LINK_DOWN. -/
abbrev csLinkDown : BitVec 4 := 0x3
/-- Completion status POISONED. -/
abbrev csPoisoned : BitVec 4 := 0x4
/-- Completion status LIFETIME_EXPIRED. -/
abbrev csLifetime : BitVec 4 := 0x5
/-- Completion status INSTANCE_RESET. -/
abbrev csInstanceReset : BitVec 4 := 0x6
/-- Completion status FENCED. -/
abbrev csFenced : BitVec 4 := 0x7
/-- Completion status TIMEOUT. -/
abbrev csTimeout : BitVec 4 := 0x8
/-- Completion status PARTITION_DENY. -/
abbrev csPartitionDeny : BitVec 4 := 0x9
/-- Completion status HERITAGE_BUS_ERROR. -/
abbrev csHeritage : BitVec 4 := 0xA

/-! ### Severities (Table 12.2) -/

/-- Severity Advisory. -/
abbrev svAdvisory : BitVec 3 := 0
/-- Severity Correctable. -/
abbrev svCorrectable : BitVec 3 := 1
/-- Severity Degraded. -/
abbrev svDegraded : BitVec 3 := 2
/-- Severity Contained. -/
abbrev svContained : BitVec 3 := 3
/-- Severity Fatal. -/
abbrev svFatal : BitVec 3 := 4

/-! ### Stages, states and codes as numbers -/

/-- STAGE of Table 2.18. -/
def Stage.code : Stage → Nat
  | .disabled => 0 | .detect => 1 | .train => 2 | .lock => 3 | .exchange => 4 | .active => 5 | .test => 6 | .loopback => 7
  | .sleep => 8 | .pcieTraining => 9 | .pcieL0 => 10 | .pcieL1 => 11

/-- The state values of Table 10.3. -/
def ChanState.code : ChanState → Nat
  | .disabled => 0 | .empty => 1 | .inserting => 2 | .ready => 3 | .precharge => 4 | .gateRise => 5 | .stabilising => 6
  | .on => 7 | .warnOff => 8 | .retryWait => 9 | .latched => 10 | .lockout => 11 | .busCut => 12

/-- The states of Table 7.11 in the table's order. -/
def InstState.code : InstState → Nat
  | .active => 0 | .quiescing => 1 | .quiesced => 2 | .resetting => 3 | .failed => 4

/-- The states of Table 8.6 in the table's order. -/
def RingState.code : RingState → Nat
  | .disabled => 0 | .stopped => 1 | .running => 2 | .stopping => 3 | .error => 4

/-- MID_STATE of Table 5.11. -/
def MidState.code : MidState → Nat
  | .inService => 0 | .draining => 1 | .skippedFenced => 2 | .skippedOff => 3

/-- The states of fabric time of R163 in the rule's order. -/
def TimeState.code : TimeState → Nat
  | .freeRun => 0 | .acquiring => 1 | .locked => 2 | .holdover => 3

end Sys2Proof.Machine

namespace Sys2Proof

/-- The tables of Table 4.13, TABLES bit order. -/
def TableKind.code : TableKind → Nat
  | .route => 0 | .group => 1 | .endpoint => 2 | .window => 3 | .policy => 4

/-- The unit field of a fault record: kind in [3:0], INDEX in [19:4] (Table 12.5). -/
def UnitId.bits (u : UnitId) : BitVec 20 := BitVec.ofNat 20 (u.kind.toNat + 16 * u.index.toNat)

/-- The key of a unit in tables: 65,536 × kind + INDEX. -/
def UnitId.key (u : UnitId) : Nat := 65536 * u.kind.toNat + u.index.toNat

end Sys2Proof
end

