-- ==== Sys2Proof/Machine/FaultTable.lean ====
section
/-!
DEFINITION. The error sources of Table 12.1 and the errors of Table 12.3.
-/

namespace Sys2Proof.Machine

/-- An error of Table 12.3: default severity, range and whether it names a unit. -/
structure ErrorRow where
  sev  : BitVec 3
  lo   : BitVec 3
  hi   : BitVec 3
  unit : Bool
  deriving DecidableEq, Repr

/-- The source ID exists (Table 12.1). -/
def sourceExists (src : BitVec 12) : Bool :=
  let i := fld src.toNat 0 8
  match fld src.toNat 8 4 with
  | 0x0 | 0x2 | 0x3 | 0x4 | 0x5 | 0x8 => decide (i < 0x80)
  | 0x1 | 0x6 | 0x7 => true
  | 0x9 => decide (i < 2)
  | 0xA => decide (i ≤ 0x30)
  | 0xB => decide (i < 0x10)
  | 0xC => decide (i < 8)
  | 0xD => decide (i ≤ 8)
  | 0xE => decide (i ≤ 4)
  | _ => decide (i < 2)

/-- The errors of a source other than the common ones (Table 12.3). -/
def errorRow (src : BitVec 12) (code : BitVec 8) : Option ErrorRow :=
  let i := fld src.toNat 0 8
  match fld src.toNat 8 4, code.toNat with
  | 0x0, 1 => some ⟨2, 0, 3, true⟩
  | 0x0, 2 => some ⟨2, 0, 3, true⟩
  | 0x0, 3 => some ⟨3, 3, 4, true⟩
  | 0x1, 1 => some ⟨1, 0, 2, false⟩
  | 0x1, 2 => some ⟨0, 0, 2, false⟩
  | 0x1, 3 => some ⟨2, 0, 3, true⟩
  | 0x1, 4 => some ⟨2, 0, 3, true⟩
  | 0x2, 1 => some ⟨2, 0, 3, true⟩
  | 0x2, 2 => some ⟨3, 3, 4, true⟩
  | 0x3, 1 => some ⟨1, 0, 2, false⟩
  | 0x3, 2 => some ⟨3, 3, 4, true⟩
  | 0x4, 1 => some ⟨3, 3, 4, true⟩
  | 0x4, 2 => some ⟨3, 3, 4, true⟩
  | 0x5, 1 => some ⟨1, 0, 2, false⟩
  | 0x5, 2 => some ⟨2, 0, 3, true⟩
  | 0x5, 3 => some ⟨3, 3, 4, true⟩
  | 0x5, 4 => some ⟨2, 0, 3, true⟩
  | 0x6, 1 => some ⟨1, 0, 2, false⟩
  | 0x6, 2 => some ⟨3, 3, 4, true⟩
  | 0x7, 1 => some ⟨1, 0, 2, false⟩
  | 0x7, 2 => some ⟨3, 3, 4, true⟩
  | 0x8, 1 => some ⟨2, 0, 2, false⟩
  | 0x8, 2 => some ⟨2, 0, 3, true⟩
  | 0x8, 3 => some ⟨2, 0, 2, false⟩
  | 0x8, 4 => some ⟨3, 3, 3, true⟩
  | 0x9, 1 => some ⟨2, 0, 2, false⟩
  | 0x9, 2 => some ⟨2, 0, 3, true⟩
  | 0x9, 3 => some ⟨2, 0, 3, true⟩
  | 0x9, 4 => some ⟨1, 0, 2, false⟩
  | 0x9, 5 => some ⟨2, 0, 2, false⟩
  | 0x9, 6 => some ⟨3, 3, 4, true⟩
  | 0xA, 1 => if i < 0x30 then some ⟨2, 0, 2, false⟩ else none
  | 0xA, 2 => if i < 0x30 then some ⟨2, 0, 2, false⟩ else none
  | 0xA, 3 => if i < 0x30 then some ⟨3, 3, 3, true⟩ else none
  | 0xA, 0x10 => if i = 0x30 then some ⟨2, 0, 2, false⟩ else none
  | 0xA, 0x11 => if i = 0x30 then some ⟨2, 0, 2, false⟩ else none
  | 0xB, 1 => some ⟨3, 3, 4, true⟩
  | 0xB, 2 => some ⟨3, 3, 4, true⟩
  | 0xC, 1 =>
    match i with
    | 0 => some ⟨4, 4, 4, false⟩
    | 1 => some ⟨1, 0, 2, false⟩
    | 2 => some ⟨4, 4, 4, false⟩
    | 3 => some ⟨1, 0, 2, false⟩
    | 4 => some ⟨2, 2, 2, false⟩
    | 5 => some ⟨0, 0, 2, false⟩
    | 6 => some ⟨2, 0, 2, false⟩
    | 7 => some ⟨4, 4, 4, false⟩
    | _ => none
  | 0xC, 2 =>
    match i with
    | 1 => some ⟨4, 4, 4, false⟩
    | 3 => some ⟨4, 2, 4, false⟩
    | 6 => some ⟨4, 4, 4, false⟩
    | _ => none
  | 0xD, 1 => some ⟨1, 0, 2, false⟩
  | 0xD, 2 => if i < 8 then some ⟨3, 3, 4, true⟩ else some ⟨2, 2, 2, false⟩
  | 0xE, 1 =>
    match i with
    | 0 => some ⟨2, 0, 2, false⟩
    | 1 => some ⟨0, 0, 2, false⟩
    | 2 => some ⟨2, 0, 2, false⟩
    | 3 => some ⟨2, 0, 2, false⟩
    | _ => some ⟨0, 0, 2, false⟩
  | 0xF, 1 => if i = 0 then some ⟨4, 4, 4, false⟩ else some ⟨3, 3, 3, true⟩
  | _, _ => none

/-- The error codes that Table 12.3 gives for a source, without the common ones. -/
def errorCodes (src : BitVec 12) : List (BitVec 8) :=
  ([1, 2, 3, 4, 5, 6, 0x10, 0x11] : List (BitVec 8)).filter fun c => (errorRow src c).isSome

/-- The key of a severity setting: one for all instances of kinds 0x0 to 0xB, one per source for the others (R413). -/
def severityKey (src : BitVec 12) (code : BitVec 8) : Nat :=
  (if src.toNat < 0xC00 then 256 * fld src.toNat 8 4 else src.toNat) * 256 + code.toNat

/-- The kinds whose sources lie on the Selvedge: 0xA, 0xE and DIE_LINK 0x08 (R417). -/
def selvedgeSource (src : BitVec 12) : Bool :=
  fld src.toNat 8 4 == 0xA || fld src.toNat 8 4 == 0xE || src == 0xD08

/-- The fallback units of a source (Table 12.1). -/
def fallbackUnits (src : BitVec 12) : List UnitId :=
  let i := fld src.toNat 0 8
  let u (k : Nat) (n : Nat) : UnitId := ⟨BitVec.ofNat 4 k, BitVec.ofNat 16 n⟩
  match fld src.toNat 8 4 with
  | 0x0 => [u 1 i]
  | 0x2 | 0x3 => [u 3 i]
  | 0x4 => [u 5 i]
  | 0x5 => [u 3 i]
  | 0x6 => [u 4 i]
  | 0x7 => [u 4 (256 + i)]
  | 0x9 => [u 8 i]
  | 0xA => if i < 0x30 then [u 9 i] else []
  | 0xB => (List.range 8).map fun k => u 3 (8 * i + k)
  | 0xD => if i < 8 then (List.range 16).map fun k => u 1 (16 * i + k) else []
  | _ => []

/-- The units that an error names (Table 12.3), from its source, code and DETAIL, or the unit that FAULT_FENCE named. -/
def errorUnits (src : BitVec 12) (code : BitVec 8) (detail : BitVec 64) (named : Option UnitId) : List UnitId :=
  let i := fld src.toNat 0 8
  let d := detail.toNat
  let u (k : Nat) (n : Nat) : UnitId := ⟨BitVec.ofNat 4 k, BitVec.ofNat 16 n⟩
  match fld src.toNat 8 4, code.toNat with
  | 0x0, 1 => [u 0 (fld d 0 9)]
  | 0x0, _ => [u 1 i]
  | 0x1, _ => [u 2 i]
  | 0x2, _ => [u 3 i]
  | 0x3, _ => [u 3 i]
  | 0x4, _ => [u 5 i]
  | 0x5, _ => [u 6 (4 * i + fld d 0 2)]
  | 0x6, _ => [u 4 i]
  | 0x7, _ => [u 4 (256 + i)]
  | 0x8, _ => [u 7 (256 * i + fld d 0 8)]
  | 0x9, _ => [u 8 i]
  | 0xA, _ => if i < 0x30 then [u 9 i] else []
  | 0xB, 1 => (List.range 8).map fun k => u 3 (8 * i + k)
  | 0xB, _ => (List.range 32).map fun k => u 4 (32 * i + k)
  | 0xD, _ => if i < 8 then (List.range 16).map fun k => u 1 (16 * i + k) else []
  | 0xF, _ => named.toList
  | _, _ => []

end Sys2Proof.Machine
end

