-- ==== Sys2Proof/WellFormed.lean ====
section
/-!
DEFINITION. Which commands the hardware can be sent: operands that no bus, link or register can carry are ill-formed.
-/

namespace Sys2Proof

/-- A TLP's data agrees with its kind and length, and its header length is in range (R133). -/
def Tlp.wellFormed (t : Tlp) : Bool :=
  decide (t.len ≤ 4096 ∧ 3 ≤ t.hdrDw.toNat ∧ t.hdrDw.toNat ≤ 16) &&
    (match t.kind with
     | .memRead | .ioRead | .cfgRead => t.data.isEmpty
     | .memWrite | .ioWrite | .cfgWrite | .completion | .msgById | .msgBroadcast | .msgOther => decide (t.data.length = t.len))

/-- A frame's payload has LENGTH bytes; a tunnelled TLP stands decoded in `tlp` alone (R131, R133). -/
def Frame.wellFormed (f : Frame) : Bool :=
  match f.tlp with
  | none => decide (f.payload.length = f.hdr.length.toNat)
  | some t => f.payload.isEmpty && t.wellFormed && decide (f.hdr.type = 7 ∧ f.hdr.length.toNat = 4 * t.hdrDw.toNat + t.data.length)

/-- A beat that a heritage bus can carry: 1, 2, 4 or 8 bytes, aligned, with data for a write (R307: no unaligned transfers). -/
def BusCycle.wellFormed (c : BusCycle) : Bool :=
  decide (c.len ∈ [1, 2, 4, 8] ∧ c.addr.toNat % c.len = 0) && (if c.write || c.rmw then decide (c.data.length = c.len) else c.data.isEmpty)

/-- An error that Table 12.3 gives for a source that Table 12.1 gives. -/
def errorGiven (src : BitVec 12) (code : BitVec 8) : Bool := Machine.sourceExists src && (Machine.errorRow src code).isSome

/-- An INDEX in the range of its unit's kind (Table 12.7). -/
def UnitId.exists_ (u : UnitId) : Bool :=
  match u.kind.toNat with
  | 0 => decide (u.index.toNat < 512)
  | 1 => decide (u.index.toNat < 128)
  | 2 => decide (u.index.toNat < 256)
  | 3 => decide (u.index.toNat < 128)
  | 4 => decide (u.index.toNat < 512)
  | 5 => decide (u.index.toNat < 128)
  | 6 => decide (u.index.toNat < 512)
  | 7 => decide (u.index.toNat < 32768)
  | 8 => decide (u.index.toNat < 2)
  | 9 => decide (u.index.toNat < 48)
  | _ => false

/-- A unit that self-test can name (Table 13.1). -/
def testable (u : UnitId) : Bool := u.exists_ && decide (u.kind.toNat ∈ [1, 3, 4, 5, 6, 8])

/-- The command is one that the hardware can receive. -/
def Instr.wellFormed : Instr → Bool
  | .mailboxFrameAccess _ f => f.wellFormed
  | .remoteMailboxReceive f => f.wellFormed
  | .prbsCheck _ errs => errs.all fun n => decide (n ≤ 2)
  | .dataBlockReceive _ h _ => decide (h.toNat % 16 = 1)
  | .idleBlockReceive _ h => decide (h.toNat % 16 = 0)
  | .nakBlockReceive _ h _ => decide (h.toNat % 16 = 2)
  | .creditBlockReceive _ h _ => decide (h.toNat % 16 = 3)
  | .reservedTypeBlockReceive _ h => decide (6 ≤ h.toNat % 16)
  | .completionReceive f => f.wellFormed
  | .linkStateReceive _ r => decide (r.nbrs.length ≤ 128)
  | .moverDoorbell f => f.wellFormed
  | .moverCompletionReceive f => f.wellFormed
  | .hostTlpWrap _ t => t.wellFormed
  | .targetTlpWrap _ _ t => t.wellFormed
  | .configEmulation _ _ reg _ _ => decide (reg.toNat % 4 = 0)
  | .completionUnwrap _ f => f.wellFormed
  | .patchworkFrameReceive _ f => f.wellFormed
  | .busCycleEnd _ st data => decide (st = .ok) || data.isEmpty
  | .inboundCycleClaim _ c => c.wellFormed
  | .inboundWrite _ c => c.wellFormed && c.write && !c.rmw
  | .inboundRead _ c => c.wellFormed && !c.write && !c.rmw
  | .inboundRmw _ c => c.wellFormed && c.rmw
  | .pciDelayedRepeat _ c => c.wellFormed && !c.write && !c.rmw
  | .busWriteObserved _ _ _ len => decide (1 ≤ len)
  | .errorDetect src code _ => errorGiven src code
  | .pairChangeSeen src => Machine.sourceExists src
  | .faultReportClassify src code => errorGiven src code
  | .pairOnlyTimeout src => Machine.sourceExists src
  | .wireFault src => Machine.sourceExists src
  | .mergeIntervalEnd src _ => Machine.sourceExists src
  | .faultFrameReceive f => f.wellFormed
  | .bistIsolationComplete u => testable u
  | .bistEngineEnd u _ => testable u
  | .bistReinitComplete u => testable u
  | .bistNotIdleTimeout u => testable u
  | .pmonCounterWrap mon _ _ _ => decide (mon.toNat ≤ 0x90 ∨ (0x100 ≤ mon.toNat ∧ mon.toNat < 0x180))
  | .powerBlockReceive _ h _ => decide (h.toNat % 16 = 5)
  | .pcieLinkUp _ width rate _ _ => decide (width.toNat ∈ [1, 2, 4, 8, 16] ∧ rate.toNat ≤ 5)
  | .deviceConfigCycle _ reg _ => decide (reg.toNat % 4 = 0)
  | .doorbell _ | .registerWrite _ _ _ | .evqHeadWrite _ _ | .evqOverflowClear _ | .forceStop | .serialBlockWrite _ _ _
  | .serialSendByte _ | .serialWriteWord _ _ | .serialBlockRead | .sessionLeaseExpiry _ | .sysQuery _ | .sysHomeSet _
  | .mbAccessSet _ | .eventLogRead _ | .mbQuery _ | .sessionOpen _ | .sessionClose _ | .eventSubscribe _ | .notifySet _
  | .portConfigure _ | .portAdmin _ | .portQuery _ | .laneStatus _ | .laneFirSet _ | .lanePrbs _ | .laneLoopback _
  | .laneCountersRead _ | .laneAlarmSet _ | .linkConfig _ | .linkCreditSet _ | .linkQuery _ | .linkCountersRead _
  | .linkErrorInject _ | .fabricConfig _ | .routeWrite _ | .groupWrite _ | .windowWrite _ | .endpointWrite _ | .tableCommit _
  | .tableDiscard _ | .epochWait _ | .tableRead _ | .partnerQuery _ | .topologyQuery _ | .fabricTimeConfig _
  | .fabricTimeQuery _ | .fabricCountersRead _ | .partnerSlotSet _ | .carouselQuery _ | .voqLimitSet _ | .middleShareSet _
  | .pcieStoreSet _ | .carouselCountersRead _ | .bufferHwmRead _ | .schedConfig _ | .shaperSet _ | .meterSet _ | .meterMapSet _
  | .penaltyQueueSet _ | .gateListSet _ | .gateQuery _ | .meterRead _ | .schedCountersRead _ | .hwmRead _ | .partitionCreate _
  | .partitionDestroy _ | .partitionAssign _ | .partitionConfig _ | .partitionGrant _ | .portTrustSet _ | .partitionQuery _
  | .vhCreate _ | .vhDestroy _ | .vhBind _ | .vhQuery _ | .sharedEndpointSet _ _ | .instanceCreate _ | .instanceDestroy _
  | .instanceShareSet _ | .instanceQuiesce _ | .instanceResume _ | .instanceReset _ | .instanceResetForce _
  | .instanceXlateSet _ | .instanceQuery _ | .partCountersRead _ | .jugglerAlloc _ | .jugglerQuery _ | .moverRingSet _
  | .moverRingControl _ | .moverRingQuery _ | .moverPlace _ | .moverCountersRead _ | .pwConfig _ | .pwHomeSet _
  | .pwWindowSet _ | .pwWindowRead _ | .pwQuery _ | .sidebandSet _ | .sidebandQuery _ | .pwBusReset _ | .pwCountersRead _
  | .slotConfig _ | .slotPower _ | .slotQuery _ | .slotBusConfig _ | .slotBusQuery _ | .slotAttention _ | .slotProfileSave _
  | .slotCountersRead _ | .faultQuery _ | .faultLogRead _ | .faultClear _ | .faultSeveritySet _ | .faultFence _
  | .faultRelease _ | .fenceQuery _ | .faultSupervise _ | .faultInject _ | .faultForwardSet _ | .faultCountersRead _
  | .bistStart _ | .bistAbort _ | .bistQuery _ | .bistUnmark _ | .bistList _ | .pmonConfig _ | .pmonRead _ | .pmonFreeze _
  | .pmonSnapshot _ | .pmonSnapshotRead _ | .pmonSampleRead _ | .pwrStateSet _ | .pwrQuery _ | .sysReset _ | .ringReset _
  | .portReset _ | .vhReset _ | .boothRestart _ | .wakeConfig _ | .sleepConfig _ | .fwQuery _ | .fwWriteBegin _ | .fwWrite _
  | .fwWriteEnd _ | .fwActivate _ | .fwConfirm _ | .fwRestart _ | .calRead _ | .calWrite _ | .calExport _ | .calImport _
  | .detectAttempt _ _ | .trainingFrameReceive _ _ | .forwardedClockLockTimeout _ | .trainTimeout _ | .fecLock _
  | .alignmentMarkerReceive _ _ _ | .lockComplete _ | .lockTimeout _ | .fecLockLoss _ | .deskewLoss _ | .clockLaneLoss _
  | .lossOfSignal _ | .retrainSignalReceive _ | .exchangeRecordSend _ | .exchangeBlockReceive _ _ | .exchangeTimeout _
  | .linkUpHoldoffEnd _ | .firstBlockTimeout _ | .trainFailWaitEnd _ _ | .serAlarmWindow _ | .fastRetrainTimeout _
  | .fastRetrainComplete _ | .pcieLinkDown _ _ _ | .transmitBlockSlot _ | .badBlockReceive _ | .replayTimerExpiry _
  | .creditReturnDue _ | .syncSend _ | .syncTimeout _ | .npExpiry _ _ _ | .completionTimeout _ _ | .frameLookup _ _
  | .voqAdmit _ _ | .commitInEffect _ | .firstStageSlot | .secondStageSlot | .periodStart | .outputCellArrival _
  | .reseqGapSkip _ _ _ | .middleBufferDrainEnd _ | .middleBufferReturn _ | .fencedInputCleanup _ | .egressFrameBoundary _ _
  | .bucketRefill | .penaltyQueueAdmit _ _ | .gateEntryChange _ | .gateListStart _ | .orderHoldRelease _ _ | .routeComputation
  | .routeCommitRetry | .linkStateSend | .linkStateAgeOut _ | .epochDrained _ _ | .timeSyncExchange _ | .timeMessageReceive _ _
  | .ppsInEdge | .ppsOutSecond | .jugglerStep _ | .quiesceCheck _ _ _ _ | .resetReqCleared _ _ | .resetTimeout _ _
  | .resettingLifetimePass _ _ | .slotControlWrite _ _ _ | .secondaryBusReset _ _ | .hotResetReceive _ | .outboundCycleRun _
  | .delayedDiscardTimeout _ _ | .yieldTimeout _ _ | .prefetchHoldExpiry _ _ | .heritageBusReset _ | .pwBusResetEnd _
  | .vddHbLoss _ | .sidebandInputChange _ _ | .presenceChange _ _ | .insertionDebounceEnd _ | .absenceDeclared _
  | .pfwReleaseDelayEnd _ | .holdOffExpiry _ | .startGrant | .prechargeComplete _ | .prechargeTimeout _ | .gateRiseComplete _
  | .gateNoRise _ | .powerGood _ | .stabiliseTimeout _ | .breakerTimerStart _ | .breakerReset _ | .breakerExpiry _
  | .fastTrip _ | .gateLoss _ | .pfwLeadExpiry _ | .retryWaitExpiry _ | .retryCountClear _ | .inputBusWarning _
  | .warningRelease _ | .busCut _ | .busRecovery _ | .slotSample _ _ _ | .boothResume _ _ | .latchRelease
  | .boothWatchdogExpiry | .aliveToggle | .livenessRefresh | .livenessExpiry | .snapshotCapture | .powerOn | .coldReset
  | .warmReset | .supplyBrownout | .coldHoldCheck _ | .preheatCheck _ | .preheatTimeout | .railPowerGood _
  | .railPowerGoodTimeout _ | .railSequenceRetry | .railPowerFail _ | .coreRelease | .imageSelect _ | .bootReady
  | .weftResetEnd | .ringResetDiscardEnd _ | .intermissionDrainEnd | .wakeNEdge | .wakeTimerExpiry | .idleSleepTimeout _
  | .sleepAnswerTimeout _ | .sleepNakBackoffEnd _ | .wakePulseDetect _ | .sleepWake _ | .governorMeasure _ | .vidUpdate
  | .thermalCheck _ | .railFault _ | .refclkAoLoss | .refclkAoReturn | .refclkLoss _ | .refclkCoreLoss | .jtagUnlock _
  | .vddHbReturn _ _ | .busTimerExpiry _ | .cycleStoreLifetimeExpiry _ | .railPwrOkFall _ | .preheatRetry
  | .refclkCoreStartTimeout => true

end Sys2Proof
end

