-- ==== Sys2Proof/Machine/Ops.lean ====
section
/-!
DEFINITION. The named operations over the state: reading and changing one unit, the geometry of ports (R18, R46), units out of service (R28, R424, R446), time, events and notifications (R383 to R386), and the error reports of sources (R414, R415).
-/

namespace Sys2Proof.Machine

/-- The outcome of a command. -/
abbrev Out := Host.Outcome State Fault Refusal

/-- A command that the hardware cannot be sent is a fault of the model. -/
def require (wf : Bool) (o : Out) : Out := if wf then o else .fault .illFormed

/-! ### Free values -/

/-- The free value that is next, and the state that has used it (log entry 2). -/
def State.draw (s : State) : BitVec 64 × State := (Config.freeWord s.free, { s with free := s.free + 1 })

/-! ### Units of the state -/

/-- A port. -/
def State.port (s : State) (p : Nat) : Port := Tab.get {} s.ports p
/-- Change a port. -/
def State.modPort (s : State) (p : Nat) (f : Port → Port) : State := { s with ports := Tab.mod {} s.ports p f }
/-- A lane. -/
def State.lane (s : State) (n : Nat) : Lane := Tab.get {} s.lanes n
/-- Change a lane. -/
def State.modLane (s : State) (n : Nat) (f : Lane → Lane) : State := { s with lanes := Tab.mod {} s.lanes n f }
/-- The link layer of a port. -/
def State.link (s : State) (p : Nat) : Link := Tab.get {} s.links p
/-- Change the link layer of a port. -/
def State.modLink (s : State) (p : Nat) (f : Link → Link) : State := { s with links := Tab.mod {} s.links p f }
/-- Change the counters of a link. -/
def State.countLink (s : State) (p : Nat) (f : LinkCounters → LinkCounters) : State :=
  s.modLink p fun l => { l with counters := f l.counters }

/-- A mailbox after cold reset: MB0 and MB63 are subscribed to every group (R383). -/
def mbDefault (n : Nat) : Mailbox := if privilegedMb n then { subs := 0xFFFF } else {}
/-- A mailbox. -/
def State.mbox (s : State) (n : Nat) : Mailbox := Tab.get (mbDefault n) s.mgmt.mbox n
/-- Write a mailbox. -/
def State.setMbox (s : State) (n : Nat) (m : Mailbox) : State :=
  { s with mgmt := { s.mgmt with mbox := Tab.put (mbDefault n) s.mgmt.mbox n m } }
/-- Change a mailbox. -/
def State.modMbox (s : State) (n : Nat) (f : Mailbox → Mailbox) : State := s.setMbox n (f (s.mbox n))

/-- Change the Ringmaster. -/
def State.modMgmt (s : State) (f : Mgmt → Mgmt) : State := { s with mgmt := f s.mgmt }
/-- Change the fabric settings and tables. -/
def State.modFab (s : State) (f : Fabric → Fabric) : State := { s with fabric := f s.fabric }
/-- Change the Carousel. -/
def State.modCar (s : State) (f : Carousel → Carousel) : State := { s with car := f s.car }
/-- Change the safety net. -/
def State.modFaults (s : State) (f : Faults → Faults) : State := { s with faults := f s.faults }
/-- Change rails, power states and clocks. -/
def State.modPower (s : State) (f : Power → Power) : State := { s with power := f s.power }
/-- Change slot power. -/
def State.modSlots (s : State) (f : Slots → Slots) : State := { s with slots := f s.slots }
/-- Change self-test and monitors. -/
def State.modBist (s : State) (f : Bist → Bist) : State := { s with bist := f s.bist }
/-- Change partitions and instances. -/
def State.modParts (s : State) (f : Partitions → Partitions) : State := { s with parts := f s.parts }
/-- Change Jugglers and rings. -/
def State.modJug (s : State) (f : Jugglers → Jugglers) : State := { s with jug := f s.jug }

/-- A queue with nothing set: CQ is in band 0, the others in band 1 (Table 6.3). -/
def queueDefault (k : Nat) : EgressQueue := if k = 8 then { band := 0 } else {}
/-- The scheduler of a port. -/
def State.schedOf (s : State) (p : Nat) : Sched := Tab.get {} s.sched.ports p
/-- Change the scheduler of a port. -/
def State.modSched (s : State) (p : Nat) (f : Sched → Sched) : State :=
  { s with sched := { s.sched with ports := Tab.mod {} s.sched.ports p f } }
/-- A queue of a scheduler. -/
def Sched.queue (x : Sched) (k : Nat) : EgressQueue := Tab.get (queueDefault k) x.queues k
/-- Change a queue of a scheduler. -/
def Sched.modQueue (x : Sched) (k : Nat) (f : EgressQueue → EgressQueue) : Sched :=
  { x with queues := Tab.mod (queueDefault k) x.queues k f }

/-- A Juggler. -/
def State.juggler (s : State) (j : Nat) : Juggler := Tab.get {} s.jug.engines j
/-- Change a Juggler. -/
def State.modJuggler (s : State) (j : Nat) (f : Juggler → Juggler) : State :=
  { s with jug := { s.jug with engines := Tab.mod {} s.jug.engines j f } }

/-- A slot channel. -/
def State.chan (s : State) (c : Nat) : Chan := Tab.get {} s.slots.chans c
/-- Change a slot channel. -/
def State.modChan (s : State) (c : Nat) (f : Chan → Chan) : State :=
  { s with slots := { s.slots with chans := Tab.mod {} s.slots.chans c f } }

/-- A Patchwork port. -/
def State.pw (s : State) : PwPort → Patchwork
  | .a => s.pwA
  | .b => s.pwB
/-- Change a Patchwork port. -/
def State.modPw (s : State) (x : PwPort) (f : Patchwork → Patchwork) : State :=
  match x with
  | .a => { s with pwA := f s.pwA }
  | .b => { s with pwB := f s.pwB }

/-- A middle buffer. -/
def State.mid (s : State) (m : Nat) : MidBuf := Tab.get {} s.car.mids m
/-- Change a middle buffer. -/
def State.modMid (s : State) (m : Nat) (f : MidBuf → MidBuf) : State :=
  { s with car := { s.car with mids := Tab.mod {} s.car.mids m f } }

/-- A frame in the device. -/
def State.frame? (s : State) (uid : Nat) : Option FrameRec := Tab.get none s.car.frames uid
/-- Write a frame in the device. -/
def State.setFrame (s : State) (uid : Nat) (r : Option FrameRec) : State :=
  { s with car := { s.car with frames := Tab.put none s.car.frames uid r } }
/-- Change a frame in the device, if it is there. -/
def State.modFrame (s : State) (uid : Nat) (f : FrameRec → FrameRec) : State :=
  match s.frame? uid with
  | none => s
  | some r => s.setFrame uid (some (f r))

/-- Change the fabric counters of a PU. -/
def State.countFab (s : State) (pu : Nat) (f : FabricCounters → FabricCounters) : State :=
  { s with fabric := { s.fabric with counters := Tab.mod {} s.fabric.counters pu f } }
/-- Change the Carousel counters of a PU. -/
def State.countCar (s : State) (pu : Nat) (f : CarouselCounters → CarouselCounters) : State :=
  { s with car := { s.car with counters := Tab.mod {} s.car.counters pu f } }
/-- Change the partition and instance counters of a PU. -/
def State.countPart (s : State) (pu : Nat) (f : PartCounters → PartCounters) : State :=
  { s with parts := { s.parts with counters := Tab.mod {} s.parts.counters pu f } }

/-! ### Geometry of ports -/

/-- The quads of a port: 1, 2 or 4 (R18). -/
def Port.quads (p : Port) : Nat := if p.width = 16 then 4 else if p.width = 8 then 2 else 1

/-- The lead quad of a port index, which is also its lead PU (R19). -/
def leadOf (p : Nat) : Nat := p / 2

/-- The PU that looks up the frames of an input. -/
def puOf (src : Nat) : Nat := if src < 256 then leadOf src else src - 256

/-- The quads of a port, lowest first. -/
def State.quadsOf (s : State) (p : Nat) : List Nat := (List.range (s.port p).quads).map fun k => leadOf p + k

/-- The configured port of a lead quad's sub-port .0 that uses quad `q`. -/
def State.mainPortOfQuad (s : State) (q : Nat) : Option Nat :=
  (([q, q - q % 2, q - q % 4].map fun l => 2 * l).filter fun p =>
    (s.port p).configured && decide (q < leadOf p + (s.port p).quads)).head?

/-- The configured ports that use quad `q`: sub-port .0 or a wider port first, then sub-port .1. -/
def State.portsOfQuad (s : State) (q : Nat) : List Nat :=
  (s.mainPortOfQuad q).toList ++ (if (s.port (2 * q + 1)).configured then [2 * q + 1] else [])

/-- The data lanes of a port, by lane-in-port number (R47, Table 2.1). -/
def State.lanesOf (s : State) (p : Nat) : List Nat :=
  (List.range (s.port p).width).map fun l => 4 * leadOf p + 2 * (p % 2) + l

/-- The port that uses a lane. -/
def State.portOfLane (s : State) (ln : Nat) : Option Nat :=
  ((s.portsOfQuad (ln / 4)).filter fun p => (s.lanesOf p).contains ln).head?

/-- Every configured port, in index order. -/
def State.allPorts (s : State) : List Nat := (s.ports.filter fun e => e.2.configured).map Prod.fst

/-- A port whose stage is one of the traffic stages of R64: its link counts as up for that rule. -/
def State.up (s : State) (p : Nat) : Bool := (s.port p).reached

/-- Blocks and cells of the cell store of a port (R176, Table 5.3). -/
def State.storeOf (s : State) (p : Nat) : Nat :=
  if (s.port p).pcie ∧ (s.port p).quads = 1 ∧ ((s.port (2 * leadOf p)).configured ∧ (s.port (2 * leadOf p + 1)).configured) then 2048
  else 4096 * (s.port p).quads

/-! ### Units out of service -/

/-- A unit by kind and index. -/
def unitOf (k n : Nat) : UnitId := ⟨BitVec.ofNat 4 k, BitVec.ofNat 16 n⟩

/-- A fence is in effect on a unit (R424). -/
def State.fenced (s : State) (u : UnitId) : Bool := s.faults.fences.any fun f => decide (f.unit = u)
/-- A unit is marked unusable by self-test (R446). -/
def State.marked (s : State) (u : UnitId) : Bool := s.bist.marks.contains u.key
/-- A unit is isolated for a test (R438). -/
def State.underTest (s : State) (u : UnitId) : Bool :=
  match Tab.get none s.bist.records u.key with
  | some r => r.active
  | none => false
/-- A test of a unit is past its isolation: until then a PU under test goes on emptying (Table 13.1). -/
def State.testing (s : State) (u : UnitId) : Bool :=
  match Tab.get none s.bist.records u.key with
  | some r => r.active && r.result != 1
  | none => false
/-- A unit is out of service. -/
def State.out (s : State) (u : UnitId) : Bool := s.fenced u || s.marked u || s.underTest u

/-- Ring of a quad or PU (Table 1.3). -/
def ringOf (q : Nat) : Nat := q / 8

/-- PU `q` is held out of service by `h` (an egress bank counts as its PU, Table 12.7). -/
def puHeld (h : UnitId → Bool) (q : Nat) : Bool := h (unitOf 3 q) || h (unitOf 6 (4 * q + 3))
/-- Quad `q` is held out of service by `h`. -/
def quadHeld (h : UnitId → Bool) (q : Nat) : Bool :=
  h (unitOf 1 q) || h (unitOf 6 (4 * q)) || h (unitOf 6 (4 * q + 1)) || puHeld h q
/-- Middle buffer `m` is held out of service by `h`. -/
def midHeld (h : UnitId → Bool) (m : Nat) : Bool := h (unitOf 5 m) || h (unitOf 6 (4 * m + 2))
/-- Juggler `j` is held out of service by `h`. -/
def jugglerHeld (h : UnitId → Bool) (j : Nat) : Bool := h (unitOf 4 j) || puHeld h (j / 4)
/-- Port `p` is held out of service by `h`: a lane, quad, port, PU or bank that it uses (R424, R446). -/
def State.portHeld (s : State) (h : UnitId → Bool) (p : Nat) : Bool :=
  h (unitOf 2 p) || (s.quadsOf p).any (quadHeld h) || (s.lanesOf p).any (fun l => !(s.port p).pcie && h (unitOf 0 l))

/-- The unit of a kind of Table 12.7 is held out of service by `h`, as itself or with a unit that contains it. -/
def unitHeld (h : UnitId → Bool) (u : UnitId) : Bool :=
  let n := u.index.toNat
  match u.kind.toNat with
  | 0 => h u || quadHeld h (n / 4)
  | 1 => quadHeld h n
  | 3 => puHeld h n
  | 4 => jugglerHeld h n
  | 5 => midHeld h n
  | 6 => h u || (if n % 4 < 2 then quadHeld h (n / 4) else if n % 4 = 2 then midHeld h (n / 4) else puHeld h (n / 4))
  | _ => h u

/-- Ring `r` is powered off (R28). -/
def State.ringIsOff (s : State) (r : Nat) : Bool := Tab.get false s.power.ringOff r
/-- A PU is neither held nor in a powered-off Ring. -/
def State.puOk (s : State) (q : Nat) : Bool := !puHeld s.out q && !s.ringIsOff (ringOf q)
/-- The Carousel input and output of a PU run: it is neither fenced, marked, nor in a test past its isolation, and its Ring is on. -/
def State.puRuns (s : State) (q : Nat) : Bool := !puHeld (fun u => s.fenced u || s.marked u || s.testing u) q && !s.ringIsOff (ringOf q)
/-- A PU is neither fenced, nor marked unusable with the effects of a fence (R446), nor in a powered-off Ring (R23). -/
def State.puHome (s : State) (q : Nat) : Bool := !puHeld (fun u => s.fenced u || s.marked u) q && !s.ringIsOff (ringOf q)
/-- A Juggler serves work. -/
def State.jugglerOk (s : State) (j : Nat) : Bool := !jugglerHeld s.out j && !s.ringIsOff (j / 32)

/-- The core die runs its data path: released from reset, and not stopped by a Fatal classification (R429). -/
def State.running (s : State) : Bool := s.power.coreOn && !s.faults.stopped

/-! ### Time -/

/-- Fabric time in ns. -/
def State.fabNs (s : State) : Nat := s.fabric.time.seconds.toNat * 1000000000 + s.fabric.time.ns.toNat

/-- Set fabric time to a number of ns. -/
def FabricTime.setNs (t : FabricTime) (n : Nat) : FabricTime :=
  { t with seconds := BitVec.ofNat 48 (n / 1000000000), ns := BitVec.ofNat 30 (n % 1000000000) }

/-- Milliseconds in ns. -/
def ms (n : Nat) : Nat := n * 1000000

/-- The lifetime limit in ns (R153). -/
def State.lifetimeNs (s : State) : Nat := ms s.fabric.lifetimeMs

/-- One ns of fabric time, with at most 6 of 2^-16 ns (less than 100 ppm) of an error slewed out (R163); PPS_OUT falls 100 ms after a whole second (R164). -/
def FabricTime.advance (t : FabricTime) : FabricTime :=
  let d := max (-6) (min 6 t.slew)
  let f : Int := t.frac.toNat + d
  let ns : Int := t.seconds.toNat * 1000000000 + t.ns.toNat + 1 + f / 65536
  { t.setNs ns.toNat with frac := BitVec.ofInt 16 (f % 65536), slew := t.slew - d, ppsOut := t.ppsOut && decide (ns.toNat % 1000000000 < 100000000) }

/-- One ns passes: the model's own time, and fabric time while the core die runs (log entry 1). -/
def State.tick (s : State) : State :=
  { s with
    now := s.now + 1
    fabric := if s.power.coreOn then { s.fabric with time := s.fabric.time.advance } else s.fabric }

/-! ### Frames from internal sources -/

/-- The GEID of a local endpoint index (R128). -/
def State.geid (s : State) (index : Nat) : Geid := BitVec.ofNat 20 (s.fabric.switchId.toNat * 256 + index)

/-- Frames waiting at an input on a VC. -/
def State.waitingAt (s : State) (src vc : Nat) : List Nat := Tab.get [] s.car.waiting (8 * src + vc)
/-- Change the frames waiting at an input on a VC. -/
def State.modWaiting (s : State) (src vc : Nat) (f : List Nat → List Nat) : State :=
  { s with car := { s.car with waiting := Tab.mod [] s.car.waiting (8 * src + vc) f } }

/-- A frame arrives at an input with all its blocks, or with its first one, and joins the frames waiting on its VC (R174). -/
def State.arrive (s : State) (src vc : Nat) (f : Frame) (blocks : Nat) : State :=
  let uid := s.car.nextUid
  let r : FrameRec :=
    { frame := f, src := src, vc := vc, born := s.now, bornPeriod := s.car.period, blocksIn := blocks,
      arrivalColour := f.hdr.colour }
  (({ s with car := { s.car with nextUid := uid + 1 } }).setFrame uid (some r)).modWaiting src vc (· ++ [uid])

/-- A frame from an internal source through the injection input of PU `pu` (R21). -/
def State.inject (s : State) (pu : Nat) (f : Frame) : State := s.arrive (256 + pu) f.hdr.vc f f.blocks

/-! ### Ownership -/

/-- The policy table committed last. -/
def State.policy (s : State) : Policy := s.fabric.tables.policy
/-- The owner of a port in a policy table (R235). -/
def Policy.ownerOf (t : Policy) (p : Nat) : BitVec 8 := Tab.get 0 t.owner p
/-- The owner of a port. -/
def State.portOwner (s : State) (p : Nat) : BitVec 8 := s.policy.ownerOf p
/-- The owner of a Patchwork port. -/
def State.pwOwner (s : State) : PwPort → BitVec 8
  | .a => s.policy.ownerA
  | .b => s.policy.ownerB

/-! ### Events and notifications -/

/-- A 4-byte MEM_WRITE of the notification of a mailbox (R386). -/
def State.notify (s : State) (n : Nat) : State :=
  let m := s.mbox n
  s.inject s.mgmt.homeRm
    { hdr := { dst := m.notify.geid, src := s.geid 0, type := tyMemWrite, cls := 0, length := 4,
               part := (if privilegedMb n then 0 else m.owner), addr := m.notify.addr }
      payload := bytesOf 4 m.notify.data.toNat }

/-- The 16 bytes of a remote header (Table 11.10). -/
def remoteHeader (mb kind : Nat) (id : BitVec 32) : List Byte :=
  bytesOf 16 (packBits [(mb, 6), (kind, 2), (0, 24), (id.toNat, 32)])

/-- A REMOTE_MAILBOX frame (R388). -/
def State.remoteFrame (s : State) (dst : Geid) (part : BitVec 8) (payload : List Byte) : State :=
  s.inject s.mgmt.homeRm
    { hdr := { dst := dst, src := s.geid 0, type := tyManagement, subtype := 0x04, part := part,
               length := BitVec.ofNat 13 payload.length }
      payload := payload }

/-- Place an event in the queue of a mailbox (R384, R386, R389). -/
def State.deliver (s : State) (e : EvEntry) (n : Nat) : State :=
  let m := s.mbox n
  let copied := if m.notify.enable ∧ m.notify.geid ∈ m.requesters then
      s.remoteFrame m.notify.geid (if privilegedMb n then 0 else m.owner) (remoteHeader n 2 0 ++ e.bytes) else s
  if m.queued = 63 then copied.modMbox n fun m => { m with evqOverflow := true, evqLost := inc16 m.evqLost }
  else
    let s1 := copied.modMbox n fun m => { m with evq := Tab.put {} m.evq m.evqTail.toNat e, evqTail := m.evqTail + 1 }
    if m.notify.enable ∧ m.notify.onEvent ∧ m.event = false then s1.notify n else s1

/-- The mailboxes that may receive an event and have subscribed to its group (R383). -/
def State.audience (s : State) (code : BitVec 16) (owners : List (BitVec 8)) : List Nat :=
  (List.range 64).filter fun n =>
    let m := s.mbox n
    m.subs.getLsbD (code.toNat / 256) && (privilegedMb n || (decide (m.owner ≠ 0) && owners.contains m.owner))

/-- The next event entry. -/
def State.eventEntry (s : State) (code : BitVec 16) (data : List Byte) : EvEntry :=
  { code := code, eseq := s.mgmt.eseq, seconds := s.fabric.time.seconds.setWidth 32, ns := s.fabric.time.ns,
    data := BitVec.ofNat 160 (natOf data) }

/-- Write an event to the always-on event log (R383). -/
def State.logEvent (s : State) (e : EvEntry) (owners : List (BitVec 8)) : State :=
  s.modMgmt fun m => { m with log := keepLast 512 (m.log ++ [⟨e, owners⟩]), eseq := m.eseq + 1,
                              loggedSinceWeft := if m.available then m.loggedSinceWeft else m.loggedSinceWeft + 1 }

/-- Raise an event to mailboxes that `pick` chooses among those of R383.
While Efnuquin serves no mailbox, the log alone takes it (R400). -/
def State.raiseTo (s : State) (code : BitVec 16) (data : List Byte) (owners : List (BitVec 8)) (pick : Nat → Bool) : State :=
  let e := s.eventEntry code data
  let s1 := s.logEvent e owners
  if s.mgmt.available then forAll ((s.audience code owners).filter pick) s1 fun n t => t.deliver e n else s1

/-- Raise an event (R383). `owners` are the partitions that own a resource that it concerns. -/
def State.raise (s : State) (code : BitVec 16) (data : List (Nat × Nat)) (owners : List (BitVec 8)) : State :=
  s.raiseTo code (packVals data) owners fun _ => true

/-- Efnuquin serves the mailboxes: the events logged while it served none go to the queues in log order (R400), and leases run again from here (R381). -/
def State.serveMailboxes (s : State) : State :=
  let n := s.mgmt.loggedSinceWeft
  let late := keepLast (min n 512) s.mgmt.log
  let s1 := s.modMgmt fun m =>
    { m with
      available := true, loggedSinceWeft := 0
      mbox := Tab.mapAll {} m.mbox fun x =>
        { x with session := x.session.map fun y => { y with leaseEnd := y.leaseEnd + (s.now - m.unavailableAt) } } }
  let s2 := late.foldl (fun t e => forAll (t.audience e.entry.code e.owners) t fun n t => t.deliver e.entry n) s1
  if 512 < n then s2.raise 0x0004 [(n - 512, 8)] [] else s2

/-- Efnuquin stops serving the mailboxes. -/
def State.unserve (s : State) : State :=
  if s.mgmt.available then s.modMgmt fun m => { m with available := false, unavailableAt := s.now, loggedSinceWeft := 0 } else s

/-! ### Error reports -/

/-- An error source. -/
def State.source (s : State) (src : BitVec 12) : Source := Tab.get {} s.faults.sources src.toNat
/-- Change an error source. -/
def State.modSource (s : State) (src : BitVec 12) (f : Source → Source) : State :=
  { s with faults := { s.faults with sources := Tab.mod {} s.faults.sources src.toNat f } }

/-- Add an occurrence to the waiting report of its code, or a report of its own (R415). -/
def addReport : List Report → Report → List Report
  | [], r => [r]
  | x :: l, r => if x.code = r.code then { x with count := inc16 x.count, injected := x.injected || r.injected } :: l
                 else x :: addReport l r

/-- A source detects an error: its pair shows 0b10 and a report waits (R414, R415). -/
def State.queueReport (s : State) (src : BitVec 12) (r : Report) : State :=
  s.modSource src fun x =>
    { x with reports := addReport x.reports r, pair := if x.pair = .invalid then .invalid else .pending }

/-- The severity in force for an error (R413), with the default of Table 12.3; Degraded for WIRE_FAULT. -/
def State.severityOf (s : State) (src : BitVec 12) (code : BitVec 8) : BitVec 3 :=
  match Tab.get none s.faults.severity (severityKey src code) with
  | some v => v
  | none =>
    match errorRow src code with
    | some r => r.sev
    | none => svDegraded

/-- The FAULT fields of an event: UNIT takes 3 bytes. -/
def State.evFault (s : State) (r : FaultRec) (owners : List (BitVec 8)) : State :=
  s.raise 0x0B00 [(r.source.toNat, 2), (r.error.toNat, 1), (r.severity.toNat, 1), (r.frseq.toNat, 2), (r.count.toNat, 2),
    (r.unit.toNat, 3), (r.detail.toNat, 8)] owners

/-! ### Orders and lists -/

/-- Insert a number in a rising list without repeats. -/
def insertNat (n : Nat) : List Nat → List Nat
  | [] => [n]
  | x :: r => if n < x then n :: x :: r else if n = x then x :: r else x :: insertNat n r

/-- Every state change of a list of units in order. -/
def State.each (s : State) (l : List Nat) (f : State → Nat → State) : State := l.foldl f s

end Sys2Proof.Machine
end

