-- ==== Sys2Proof/Machine/Frames.lean ====
section
/-!
DEFINITION. The ends of frames: synthetic completions (R154, R281), the counters of Tables 3.10 and 4.7, credit returns of ended frames (R112), the order of causes (R155); the work that moves when Jugglers leave service (R282) and the homes that move (R23).
-/

namespace Sys2Proof.Machine

/-! ### Work of a PU -/

/-- The Jugglers of a PU that serve work. -/
def State.jugglersOk (s : State) (pu : Nat) : List Nat := ((List.range 4).map fun k => 4 * pu + k).filter s.jugglerOk

/-- The PU whose Jugglers do the work of PU `pu` (R282): its own, the next of its Ring with a Juggler in service, or the lowest PU with one. -/
def State.workPuNow (s : State) (pu : Nat) : Nat :=
  let r := ringOf pu
  let own := (List.range 8).map fun k => 8 * r + (pu + k) % 8
  match (own ++ List.range 128).filter (fun q => !(s.jugglersOk q).isEmpty) with
  | [] => pu
  | q :: _ => q

/-- The PU that does the work of PU `pu`, as the last move left it. -/
def State.workPu (s : State) (pu : Nat) : Nat := (Tab.get none s.jug.movedTo pu).getD pu

/-- Items that a Juggler has queued. -/
def Juggler.items (j : Juggler) : Nat := (j.work.map List.length).sum

/-- Synthesis records queued in a PU (R281). -/
def State.synthQueued (s : State) (pu : Nat) : Nat :=
  (((List.range 4).map fun k => (nth [] (s.juggler (4 * pu + k)).work 0).length)).sum

/-- Queue work of a priority 1 to 5 on a Juggler. -/
def State.pushWork (s : State) (j prio : Nat) (w : Work) : State :=
  s.modJuggler j fun x => { x with work := modAt x.work (prio - 1) (· ++ [w]) }

/-- The Juggler of a PU with the fewest queued items among `l`, the lowest-numbered of several (R281). -/
def State.leastLoaded (s : State) (l : List Nat) : Option Nat := leastBy (fun j => (s.juggler j).items) l

/-- Queue work of priority 1 or 2 for a PU (R281). -/
def State.puWork (s : State) (pu prio : Nat) (w : Work) : State :=
  match s.leastLoaded (s.jugglersOk (s.workPu pu)) with
  | some j => s.pushWork j prio w
  | none => s.pushWork (4 * s.workPu pu) prio w

/-- The synthetic completion of a request (R154, R135). -/
def syntheticCpl (h : Hdr) (st : BitVec 4) : Frame :=
  { hdr := { dst := h.src, src := h.dst, type := tyCompletion, cls := h.cls, tag := h.tag, part := h.part, status := st } }

/-- A completion of the Ringmaster or of another completer of this switch, with data of a read at `addr` (R136). -/
def replyFrame (h : Hdr) (st : BitVec 4) (data : List Byte) : Frame :=
  { hdr := { dst := h.src, src := h.dst, type := tyCompletion, cls := h.cls, tag := h.tag, part := h.part, status := st,
             length := BitVec.ofNat 13 data.length,
             tw := BitVec.ofNat 64 (data.length + 8192 * (h.addr.toNat % 128)) }
    payload := data }

/-! ### Causes -/

/-- The completion status of a cause (Tables 3.10, 4.5, 4.7). -/
def EndCause.status : EndCause → BitVec 4
  | .linkDown => csLinkDown
  | .fenced => csFenced
  | .instanceReset => csInstanceReset
  | .partitionDeny => csPartitionDeny
  | .lifetime => csLifetime
  | .hopLimit => csLifetime
  | .malformed => csUnsupported
  | .noRoute => csUnsupported
  | .windowMiss => csUnsupported
  | .unsupported => csUnsupported
  | .completerAbort => csAbort
  | .poisoned => csPoisoned
  | .quiescing => csAbort
  | .creditOver => csAbort
  | .moverDeny => csUnsupported

/-- The place of a cause in the order of R155. -/
def EndCause.rank : EndCause → Nat
  | .linkDown => 0
  | .fenced => 1
  | .instanceReset => 2
  | .partitionDeny => 3
  | .lifetime => 4
  | .hopLimit => 4
  | _ => 5

/-- The first of two causes (R155). -/
def firstCause (a : Option EndCause) (b : EndCause) : EndCause :=
  match a with
  | none => b
  | some x => if x.rank ≤ b.rank then x else b

/-- The egress port of a frame, if it leaves by a port. -/
def Egress.port (e : Egress) : Option Nat := if e.code ≤ 1 then some (2 * e.pu + e.code) else none

/-- The key of an egress: lead PU × 8 + EGRESS code. -/
def Egress.key (e : Egress) : Nat := 8 * e.pu + e.code

/-- Count the end of a frame in the PU that ends it (R165), or at its egress port for a link down. -/
def State.countEnd (s : State) (pu : Nat) (port : Option Nat) (c : EndCause) (k : FrameKind) : State :=
  match c with
  | .linkDown =>
    match port with
    | none => s
    | some p => s.countLink p fun x =>
        match k with
        | .nonPosted => { x with npLinkDown := inc48 x.npLinkDown }
        | .posted => { x with postedDrop := inc48 x.postedDrop }
        | .completion => { x with cplDrop := inc48 x.cplDrop }
  | .fenced => if k = .nonPosted then s else s.modFaults fun f => { f with fenceDrop := inc48 f.fenceDrop }
  | .instanceReset => if k = .nonPosted then s else s.countPart pu fun x => { x with instResetDrop := inc48 x.instResetDrop }
  | .partitionDeny => (s.countPart pu fun x => { x with partDeny := inc48 x.partDeny }).pmon pu 0x104 0 1
  | .lifetime => s.countFab pu fun x =>
      if k = .nonPosted then { x with lifetimeNp := inc48 x.lifetimeNp } else { x with lifetimeDrop := inc48 x.lifetimeDrop }
  | .hopLimit => s.countFab pu fun x => { x with hopLimit := inc48 x.hopLimit }
  | .malformed => s.countFab pu fun x => { x with malformed := inc48 x.malformed }
  | .noRoute => s.countFab pu fun x => { x with noRoute := inc48 x.noRoute }
  | .windowMiss => s.countFab pu fun x => { x with windowMiss := inc48 x.windowMiss }
  | .completerAbort => s
  | .poisoned => s
  | .unsupported => s
  | .quiescing => if k = .nonPosted then s else s.countPart pu fun x => { x with instQuiesceDrop := inc48 x.instQuiesceDrop }
  | .creditOver => s.countPart pu fun x => { x with instCreditOver := inc48 x.instCreditOver }
  | .moverDeny => if k = .nonPosted then s else s.modJug fun x => { x with moverDbDeny := inc48 x.moverDbDeny }

/-! ### Ending a frame -/

/-- Return `n` credits of VC `v` on a native ingress port (R112). -/
def State.returnCredits (s : State) (p v n : Nat) : State :=
  if n = 0 ∨ (s.port p).pcie ∨ (s.port p).configured = false then s
  else s.modLink p fun l =>
    { l with
      pending := modAt l.pending v (· + n)
      pendOrder := if l.pendOrder.contains v then l.pendOrder else l.pendOrder ++ [v]
      creditDue := l.creditDue || decide (256 ≤ nth 0 l.pending v + n) }

/-- Take a uid out of the lists of a table. -/
def dropUid (uid : Nat) (t : Tab (List Nat)) : Tab (List Nat) := Tab.mapAll [] t (·.erase uid)

/-- Take a frame out of the queues of its place. -/
def State.unlist (s : State) (uid : Nat) (r : FrameRec) : State :=
  match r.place with
  | .arriving => s.modWaiting r.src r.vc (·.erase uid)
  | .lookedUp => s.modWaiting r.src r.vc (·.erase uid)
  | .penaltyFull => s.modWaiting r.src r.vc (·.erase uid)
  | .penalty =>
    let t := Tab.mapAll {} s.sched.penalty fun q => { q with frames := q.frames.erase uid }
    { s with sched := { s.sched with penalty := t } }
  | .admitted => s.modCar fun c => { c with voqs := Tab.mapAll {} c.voqs fun v => { v with frames := v.frames.erase uid } }
  | .carousel => s
  | .orderHeld => s.modParts fun x => { x with held := dropUid uid x.held }
  | .queued =>
    match r.egress.port with
    | none => s
    | some p => s.modSched p fun x =>
        (List.range 10).foldl (fun y k => y.modQueue k fun q => { q with frames := q.frames.erase uid }) x
  | .inbox => s.modCar fun c => { c with inboxes := dropUid uid c.inboxes }
  | .ending => s

/-- Take a frame out of the device: out of its queues, its cells out of the cell store with their credits returned (R112, R173). -/
def State.detach (s : State) (uid : Nat) (r : FrameRec) : State :=
  let s1 := (s.unlist uid r).setFrame uid none
  if r.src < 256 then s1.returnCredits r.src r.vc (r.blocksIn - r.sent) else s1

/-- End a frame that is out of its queues, in PU `pu` (Tables 3.10 and 4.7, R154).
A non-posted request gets one completion: formed at once for a link down (R122), and otherwise by the work of the PU.
While the synthesis queue is full the end waits (R281): the frame stays in the device with place `ending`. -/
def State.finish (s : State) (r : FrameRec) (pu : Nat) (c : EndCause) : State :=
  let h := r.frame.hdr
  if h.kind = .nonPosted then
    if c = .linkDown then
      (s.countEnd pu r.egress.port c .nonPosted).inject (s.workPu pu) (syntheticCpl h csLinkDown)
    else if 256 ≤ s.synthQueued (s.workPu pu) then
      let uid := s.car.nextUid
      let s1 := s.modJug fun j => { j with synthWaits := Tab.mod 0 j.synthWaits pu inc48 }
      (s1.modCar fun x => { x with nextUid := uid + 1 }).setFrame uid
        (some { r with place := .ending, ending := some c, endPu := pu, blocksIn := 0, sent := 0 })
    else (s.countEnd pu r.egress.port c .nonPosted).puWork pu 1 (.synth h c.status)
  else s.countEnd pu r.egress.port c h.kind

/-- End a frame in the device (R154). -/
def State.endFrame (s : State) (uid pu : Nat) (c : EndCause) : State :=
  match s.frame? uid with
  | none => s
  | some r => (s.detach uid r).finish r pu (firstCause r.ending c)

/-- End the frame that an internal target holds, where PU `pu` ends it. -/
def State.endHere (s : State) (f : Frame) (pu : Nat) (c : EndCause) : State :=
  s.finish { frame := f, src := 256 + pu, vc := f.hdr.vc, born := s.now } pu c

/-- The ends that waited for the synthesis queue of a PU are tried again, oldest first (R281). -/
def State.retryEnds (s : State) (pu : Nat) : State :=
  let l := (s.car.frames.filter fun e =>
    match e.2 with
    | some r => decide (r.place = .ending) && decide (s.workPu r.endPu = s.workPu pu)
    | none => false).map Prod.fst
  s.each (l.take (256 - s.synthQueued (s.workPu pu))) fun t uid =>
    match t.frame? uid with
    | none => t
    | some r => (t.setFrame uid none).finish r r.endPu (r.ending.getD .unsupported)

/-- Discard a frame without counting it as an end. -/
def State.discard (s : State) (uid : Nat) : State :=
  match s.frame? uid with
  | none => s
  | some r => s.detach uid r

/-- The frame in the device that an internal target received, if it stands in an inbox of the target's EGRESS code (Table 5.1). -/
def State.inboxFrame (s : State) (code : Nat) (f : Frame) : Option (Nat × FrameRec) :=
  ((s.car.inboxes.filter fun e => decide (e.1 % 8 = code)).flatMap fun e => e.2).findSome? fun uid =>
    match s.frame? uid with
    | some r => if r.frame = f then some (uid, r) else none
    | none => none

/-- Take a frame that an internal target received out of its inbox, if it stands there. -/
def State.takeInbox (s : State) (code : Nat) (f : Frame) : State :=
  match s.inboxFrame code f with
  | none => s
  | some (uid, _) => s.discard uid

/-- The frames in the device that satisfy a test, in the order of their uids. -/
def State.framesWith (s : State) (t : FrameRec → Bool) : List Nat :=
  (s.car.frames.filter fun e => match e.2 with | some r => t r | none => false).map Prod.fst

/-- A frame's age has reached the lifetime limit (R153). -/
def State.expired (s : State) (r : FrameRec) : Bool := decide (s.lifetimeNs ≤ s.now - r.born)

/-! ### Moves of work and homes -/

/-- Move the work of priorities 1 and 2 of Jugglers out of service, in the order queued, to Jugglers that serve it (R281, R282). -/
def State.drainJuggler (s : State) (j : Nat) : State :=
  if s.jugglerOk j then s
  else
    let x := s.juggler j
    if x.items = 0 then s
    else
      let s1 := s.modJuggler j fun y => { y with work := [[], [], [], [], []] }
      ([1, 2, 3, 4, 5]).foldl (fun t p => (nth [] x.work (p - 1)).foldl (fun t w => t.puWork (j / 4) p w) t) s1

/-- Work moves away from PUs whose Jugglers are all out of service, and back when one has returned (R282). -/
def State.updateMoves (s : State) : State :=
  let s1 := s.each (List.range 128) fun t pu =>
    let old := t.workPu pu
    let new := t.workPuNow pu
    if old = new then t
    else
      let t1 := t.modJug fun j => { j with movedTo := Tab.put none j.movedTo pu (if new = pu then none else some new) }
      if new = pu then t1 else t1.raise 0x0800 [(pu, 1), (new, 1)] []
  s1.each (List.range 512) State.drainJuggler

/-- The lowest PU that is neither out of service nor in a powered-off Ring (R23, R446, Table 13.1). -/
def State.lowestHome (s : State) : Option Nat := ((List.range 128).filter s.puOk).head?

/-- End the frames of an internal source that wait at the old injection input of a home that moves (R23).
The input also carries the Jugglers' frames of that PU; all of them end, because the input is that of a fenced or unpowered PU. -/
def State.endInjection (s : State) (pu : Nat) : State :=
  s.each (s.framesWith fun r => decide (r.src = 256 + pu) && decide (r.sent = 0) &&
      (decide (r.place = .arriving) || decide (r.place = .lookedUp) || decide (r.place = .penaltyFull) ||
       decide (r.place = .penalty) || decide (r.place = .admitted))) fun t uid => t.endFrame uid pu .fenced

/-- Homes whose PU is out of service or powered off move to the lowest PU in service (R23), in the order Ringmaster, Patchwork A, Patchwork B. -/
def State.updateHomes (s : State) : State :=
  match s.lowestHome with
  | none => s
  | some q =>
    let mv (t : State) (src old : Nat) (f : Mgmt → Mgmt) (owners : List (BitVec 8)) : State :=
      if t.puOk old then t
      else ((t.endInjection old).modMgmt f).raise 0x0000 [(src, 1), (old, 1), (q, 1)] owners
    let s1 := mv s 0 s.mgmt.homeRm (fun m => { m with homeRm := q }) []
    let s2 := mv s1 1 s1.mgmt.homeA (fun m => { m with homeA := q }) [s1.pwOwner .a]
    mv s2 2 s2.mgmt.homeB (fun m => { m with homeB := q }) [s2.pwOwner .b]

end Sys2Proof.Machine
end

