-- ==== Sys2Proof/Machine/LinkOps.lean ====
section
/-!
DEFINITION. What a link does as a whole: partner changes (R160, R161), retrains (R63, R117), failed attempts (R65) and link down (R119 to R124, R193).
-/

namespace Sys2Proof.Machine

/-! ### Reasons -/

/-- Link reason PHY (Table 3.13). -/
abbrev rsPhy : BitVec 8 := 1
/-- Link reason REPLAY_LIMIT. -/
abbrev rsReplayLimit : BitVec 8 := 2
/-- Link reason CREDIT_LEAK. -/
abbrev rsCreditLeak : BitVec 8 := 3
/-- Link reason SYNC_TIMEOUT. -/
abbrev rsSyncTimeout : BitVec 8 := 4
/-- Link reason REPLAY_LIMIT_REPEAT. -/
abbrev rsReplayRepeat : BitVec 8 := 5
/-- Link reason ADMIN. -/
abbrev rsAdmin : BitVec 8 := 6
/-- Link reason PROTOCOL. -/
abbrev rsProtocol : BitVec 8 := 7
/-- Link reason FENCED. -/
abbrev rsFenced : BitVec 8 := 8

/-- The link error source of a port (Table 12.1). -/
def linkSource (p : Nat) : BitVec 12 := BitVec.ofNat 12 (0x100 + p)
/-- The lane error source of a quad (Table 12.1). -/
def laneSource (q : Nat) : BitVec 12 := BitVec.ofNat 12 q

/-- A link error with SEQ and VC in DETAIL (R415). -/
def State.linkError (s : State) (p : Nat) (code : BitVec 8) (seq : BitVec 16) (vc : Nat) : State :=
  s.queueReport (linkSource p) { code := code, detail := BitVec.ofNat 64 (seq.toNat + 65536 * vc) }

/-! ### Partners -/

/-- The default partner record (Table 4.9). -/
def State.partner (s : State) (p : Nat) : Partner := Tab.get {} s.fabric.partners p
/-- Change a partner record. -/
def State.modPartner (s : State) (p : Nat) (f : Partner → Partner) : State :=
  { s with fabric := { s.fabric with partners := Tab.mod {} s.fabric.partners p f } }

/-- LINK_UP of Table 4.9: the port is in ACTIVE, or in PCIe L0 or L1. -/
def Port.linkUp (p : Port) : Bool :=
  match p.stage with
  | .active => true
  | .pcieL0 => true
  | .pcieL1 => true
  | _ => false

/-- PRESENT of Table 4.9: the debounced presence of the slot mapped to the port. -/
def State.partnerPresent (s : State) (p : Nat) : Bool :=
  let c := (s.partner p).slot.toNat
  decide (c < 48) && (s.chan c).present

/-- KIND of Table 4.9: a slot that is present with no partner known and no link reads 0x5. -/
def State.partnerKind (s : State) (p : Nat) : BitVec 4 :=
  let k := (s.partner p).kind
  if k = 0 ∧ s.partnerPresent p ∧ (s.port p).linkUp = false then 5 else k

/-- EV_TOPOLOGY_CHANGE, once per computation period (R161). -/
def State.topologyChange (s : State) : State :=
  if s.fabric.topoPending then s
  else (s.modFab fun f => { f with topoPending := true }).raise 0x0404 [] []

/-- EV_PARTNER_CHANGE for a change of port `p` or its slot from `s` to `t` (R161). A change of LINK_UP shows in the slot registers (Table 10.5). -/
def State.partnerEvent (s t : State) (p : Nat) : State :=
  let a := s.partner p
  let b := t.partner p
  let same := decide (a.uid = b.uid ∧ a.port = b.port)
  let t0 := if (s.port p).linkUp = (t.port p).linkUp ∨ 48 ≤ b.slot.toNat then t else t.modChan b.slot.toNat fun c => { c with dllChanged := true }
  let t1 := t0.raise 0x0403 [(p, 1), ((s.partnerKind p).toNat, 1), ((t.partnerKind p).toNat, 1),
    (b2n (t.port p).linkUp, 1), (b2n (t.partnerPresent p), 1), (b2n same, 1)] [t.portOwner p]
  if a.kind = 1 ∨ b.kind = 1 then t1.topologyChange else t1

/-- Make a change to a port or its slot that R161 reports, and raise EV_PARTNER_CHANGE for it. -/
def State.partnerChange (s : State) (p : Nat) (f : State → State) : State := s.partnerEvent (f s) p

/-! ### Stages -/

/-- A lane at the start of LOCK. -/
def Lane.startLock (l : Lane) : Lane := { l with fecLock := false, marker := none }

/-- A lane at the start of TRAIN: preset P3 unless its coefficients are fixed (R69). -/
def Lane.startTrain (l : Lane) : Lane :=
  { l with taps := l.fixed.getD presetP3, fixedNow := l.fixed.isSome, lastReq := none, ackSeq := 0, tapSts := 0, readyRun := 0,
           fecLock := false, marker := none }

/-- Change every lane of a port. -/
def State.modLanes (s : State) (p : Nat) (f : Lane → Lane) : State := s.each (s.lanesOf p) fun t n => t.modLane n f

/-- Put a port into a stage. -/
def State.setStage (s : State) (p : Nat) (g : Stage) : State := s.modPort p fun x => { x with stage := g }

/-- The counter of retrains by reason (Table 3.11). -/
def LinkCounters.retrain (c : LinkCounters) (reason : BitVec 8) : LinkCounters :=
  if reason = rsReplayLimit then { c with retrainReplay := inc48 c.retrainReplay }
  else if reason = rsCreditLeak then { c with retrainLeak := inc48 c.retrainLeak }
  else if reason = rsSyncTimeout then { c with retrainSync := inc48 c.retrainSync }
  else { c with retrainOther := inc48 c.retrainOther }

/-- A retrain takes a port from ACTIVE or EXCHANGE, or out of Quad Sleep, to LOCK (R63, R117): FIR coefficients, adaptation, the partner record and the link-layer state are kept, the replay timer is halted and every replay count is 0.
A request in another stage merges or has no effect. -/
def State.retrain (s : State) (p : Nat) (reason : BitVec 8) : State :=
  let x := s.port p
  if x.pcie then s
  else if x.stage = .active ∨ x.stage = .exchange ∨ x.stage = .sleep then
    let s1 := s.modPort p fun x =>
      { x with stage := .lock, retrain := true, fromExchange := decide (x.stage = .exchange), clockLost := false, waking := false }
    let s2 := s1.modLanes p Lane.startLock
    let s3 := s2.modLink p fun l =>
      { l with reason := reason, timerOn := false, u := l.u.map (fun b => { b with replays := 0, queued := false }), counters := l.counters.retrain reason }
    ((s3.pmon (leadOf p) 0x048 0 1).linkError p 0x02 0 0).raise 0x0301 [(p, 1), (reason.toNat, 1)] [s3.portOwner p]
  else s

/-! ### Link down -/

/-- The link layer of a port after link down: state cleared, settings and counters kept, incarnation advanced (R119). -/
def Link.down (l : Link) : Link :=
  { inc := l.inc + 1, poolSet := l.poolSet, pool := l.pool, partnerPool := l.partnerPool, peer := none, reason := l.reason,
    replayTimer := l.replayTimer, replayLimit := l.replayLimit, leakThresh := l.leakThresh, npExpiry := l.npExpiry,
    sleep := { idleUs := l.sleep.idleUs, noSleep := l.sleep.noSleep, entries := l.sleep.entries, abandoned := l.sleep.abandoned },
    counters := { l.counters with linkDown := inc48 l.counters.linkDown } }

/-- The key of an input's flow to an egress on a VC. -/
def flowKey (src ekey vc : Nat) : Nat := (src * 1024 + ekey) * 8 + vc
/-- The egress of a flow key. -/
def flowEgress (k : Nat) : Nat := (k / 8) % 1024
/-- The input of a flow key. -/
def flowSrc (k : Nat) : Nat := k / 8192

/-- The request of an outstanding-request entry has been ended by a forced instance reset (R265). -/
def State.abortedReq (s : State) (p : Nat) (g : Geid) (t : BitVec 12) : Bool :=
  s.parts.insts.any fun e => decide (e.1 / 256 = p) && e.2.aborted.contains (g, t)

/-- The frames with a cell in the resequencers of an egress. -/
def Carousel.atEgress (c : Carousel) (ekey : Nat) : List Nat :=
  ((c.reseqs.filter fun e => decide (flowEgress e.1 = ekey)).flatMap fun e =>
    (e.2.held.map fun h => h.1.uid) ++ (match e.2.current with | some (u, _) => [u] | none => [])).eraseDups

/-- A frame is being received: some of its blocks have not arrived. -/
def FrameRec.partial_ (r : FrameRec) : Bool := !r.whole

/-- Buckets whose member is the port become failed over until a commit (R142). -/
def State.failBuckets (s : State) (q : Nat) : State :=
  let l := s.fabric.tables.group.flatMap fun e =>
    ((List.range 64).filter fun b => (e.2.members[nth 16 e.2.buckets b]?) == some q).map fun b => 64 * e.1 + b
  s.modFab fun f => { f with failed := l.foldl (fun a k => insertNat k a) f.failed }

/-- Link down of a port that had reached ACTIVE or PCIe link up (R119 to R122, R193): nothing for another port.
`fail` is the failure reason of Table 2.8 that EV_LINK_DOWN carries with PHY. -/
def State.linkDown (s : State) (p : Nat) (reason fail : BitVec 8) : State :=
  if (s.port p).reached = false then s
  else
    let pu := leadOf p
    let l := s.link p
    let ekey := 8 * pu + p % 2
    let s1 := (s.modPort p fun x => { x with reached := false, firstFail := true, incSince := s.now, holdOff := true, waking := false }).modLink p
      fun l => { l.down with reason := reason }
    -- sent and acknowledged or not: one completion for each outstanding request (R122)
    let s2 := (l.outReqs.filter fun o => !s.abortedReq p o.requester o.tag).foldl (fun t o =>
        (t.countEnd pu (some p) .linkDown .nonPosted).inject (t.workPu pu) (syntheticCpl o.hdr csLinkDown)) s1
    -- sent and not acknowledged, posted and completions (Table 3.10)
    let s3 := (l.unacked.filter fun u => decide (u.frame.hdr.kind ≠ .nonPosted)).foldl (fun t u =>
        t.countEnd pu (some p) .linkDown u.frame.hdr.kind) s2
    -- the egress pool (R193)
    let pool := s3.car.atEgress ekey ++ s3.framesWith fun r =>
      decide (r.egress = ⟨pu, p % 2⟩) && (decide (r.place = .queued) || decide (r.place = .orderHeld))
    let s5 := s3.each pool.eraseDups fun t uid => t.endFrame uid pu .linkDown
    let s6 := s5.modCar fun c => { c with reseqs := c.reseqs.filter fun e => decide (flowEgress e.1 ≠ ekey) }
    -- received in part (Table 3.10)
    let part := s6.framesWith fun r => decide (r.src = p) && r.partial_
    let s7 := (s6.each part State.discard).countLink p fun c =>
      { c with rxPartialDrop := satAdd c.rxPartialDrop (part.length + (l.window.filter fun b => b.first).length) }
    let s8 := (s7.failBuckets pu).modSched p fun x => { x with current := none }
    let c0 := s.link p |>.counters
    let c1 := s8.link p |>.counters
    let s9 := (if reason = rsFenced then s8 else s8.linkError p 0x03 0 0).pmon pu 0x049 0 1
    s9.raise 0x0302 [(p, 1), (l.inc.toNat, 1), (reason.toNat, 1), ((if reason = rsPhy then fail.toNat else 0), 1),
      (c1.npLinkDown - c0.npLinkDown, 4), (c1.postedDrop - c0.postedDrop, 4), (c1.cplDrop - c0.cplDrop, 4)] [s9.portOwner p]

/-- A stage that R64 names: leaving it for DETECT, DISABLED, TEST or LOOPBACK is a link down of a port that had come up. -/
def State.leaveTo (s : State) (p : Nat) (g : Stage) (reason fail : BitVec 8) : State :=
  if (s.port p).reached then s.partnerChange p fun t => (t.setStage p g).linkDown p reason fail
  else s.setStage p g

/-- EV_LANE_TRAIN_FAIL with the port and the failure reason (R65). -/
def State.trainFail (s : State) (p : Nat) (fail : BitVec 8) : State :=
  s.raise 0x0200 [(p, 1), (fail.toNat, 1)] [s.portOwner p]

/-- An attempt ends in DETECT from TRAIN, LOCK or EXCHANGE (R64, R65). -/
def State.attemptFail (s : State) (p : Nat) (fail : BitVec 8) : State :=
  let s1 := s.leaveTo p .detect rsPhy fail
  let x := s1.port p
  let n := min (x.failCount + 1) 255
  let s2 := s1.modPort p fun x =>
    { x with failCount := n, lastFail := fail, firstFail := false, partials := 0, retrain := false, clockLost := false,
             waiting := decide (16 ≤ n) }
  if x.firstFail ∨ n = 16 then s2.trainFail p fail else s2

end Sys2Proof.Machine
end

