-- ==== Sys2Proof/Machine/Isolation.lean ====
section
/-!
DEFINITION. Port trust (R236) and the conditions of the TIMING guarantee with their lapses (R271, R272).
-/

namespace Sys2Proof.Machine

/-- TRUST of a port as it acts (Table 7.2): 1 EDGE, 2 SHARED, 3 FABRIC; AUTO acts as FABRIC toward an XM5120 and as EDGE otherwise. -/
def State.actsAs (s : State) (t : Policy) (p : Nat) : BitVec 2 :=
  let v := Tab.get 0 t.trust p
  if v = 0 then (if (s.partner p).kind = 1 then 3 else 1) else v

/-- The owners of the instances of a port. -/
def Policy.instOwners (t : Policy) (p : Nat) : List (BitVec 8) :=
  t.inst.filterMap fun e => if e.1 / 256 = p then e.2.map fun r => r.owner else none

/-- The ports that a partition owns or has an instance on. -/
def State.portsFor (s : State) (own : BitVec 8) : List Nat :=
  s.allPorts.filter fun p => decide (s.portOwner p = own) || (s.policy.instOwners p).contains own

/-- The PUs of those ports. -/
def State.pusFor (s : State) (own : BitVec 8) : List Nat := (s.portsFor own).flatMap s.quadsOf

/-- Condition 1 of R271: no port can carry frames of the partition and of another (a FABRIC port of partition 0 can). -/
def State.timingPorts (s : State) (own : BitVec 8) : Bool :=
  s.allPorts.all fun p =>
    let a := s.actsAs s.policy p
    let l := s.policy.instOwners p
    if a = 3 then decide ((s.partner p).kind ≠ 1) || decide (s.portOwner p ≠ 0)
    else if a = 2 ∧ (s.portOwner p = own ∨ own ∈ l) then l.all fun o => decide (o = own)
    else true

/-- Condition 2 of R271: no grant in either direction. -/
def State.timingGrants (s : State) (own : BitVec 8) : Bool :=
  s.policy.grant.all fun e => !e.2 || (decide (e.1 / 256 = own.toNat) == decide (e.1 % 256 = own.toNat))

/-- Condition 3 of R271: the Jugglers of its PUs are the partition's, and no home of another lies there. -/
def State.timingEngines (s : State) (own : BitVec 8) : Bool :=
  (s.pusFor own).all fun q =>
    (List.range 4).all (fun k => decide ((s.juggler (4 * q + k)).owner = own)) && decide (s.mgmt.homeRm ≠ q) &&
      (decide (s.mgmt.homeA ≠ q) || decide (s.pwOwner .a = own)) && (decide (s.mgmt.homeB ≠ q) || decide (s.pwOwner .b = own))

/-- Conditions 1 to 3 of R271, which R272 asks of PARTITION_CONFIG. -/
def State.timingOk (s : State) (own : BitVec 8) : Bool := s.timingPorts own && s.timingGrants own && s.timingEngines own

/-- A fence holds a PU of the partition's ports or one of its Jugglers. -/
def State.timingFenced (s : State) (own : BitVec 8) : Bool :=
  (s.pusFor own).any fun q => puHeld s.fenced q || (List.range 4).any fun k => jugglerHeld s.fenced (4 * q + k)

/-- Why the guarantee does not hold: 0 it holds; 1 to 4 the condition of R271; 5 a fence (log entry 31). -/
def State.lapseCause (s : State) (own : BitVec 8) : Nat :=
  if s.timingPorts own = false then 1
  else if s.timingGrants own = false then 2
  else if s.timingEngines own = false then 3
  else if s.power.gov.step ≠ 0 ∨ s.power.gov.throttle ≠ 0 then 4
  else if s.timingFenced own then 5
  else 0

/-- The partitions with level TIMING. -/
def State.timingParts (s : State) : List Nat := (s.parts.timing.filter fun e => e.2).map Prod.fst

/-- A command from `s` to `t` breaks a condition that a partition with TIMING relies on (R272). -/
def breaksTiming (s t : State) : Bool :=
  t.timingParts.any fun n => s.timingOk (BitVec.ofNat 8 n) && !t.timingOk (BitVec.ofNat 8 n)

/-- EV_ISOLATION_LAPSE when the guarantee of a partition fails, and again when it holds once more (R272). -/
def State.checkLapses (s : State) : State :=
  s.each s.timingParts fun t n =>
    let c := t.lapseCause (BitVec.ofNat 8 n)
    if decide (c ≠ 0) = Tab.get false t.parts.lapsed n then t
    else (t.modParts fun x => { x with lapsed := Tab.put false x.lapsed n (decide (c ≠ 0)) }).raise 0x0703 [(n, 1), (c, 1)] [BitVec.ofNat 8 n]

end Sys2Proof.Machine
end

