-- ==== Sys2Proof/Machine/Command.lean ====
section
/-!
DEFINITION. How Efnuquin runs a mailbox command: the envelope (Tables 11.4 and 11.5), the checks of R377 in their order, repeats (R378), dry runs (R379), sessions (R382), and the response (R374).
-/

namespace Sys2Proof.Machine

/-- What a command comes to after the checks of its fields: its effect and response payload, or a status with DETAIL.
A refused CAL_IMPORT ends its transfer: `failWith` is a status with that effect (log entry 60). -/
inductive CmdResult where
  | done (s : State) (resp : List Byte)
  | fail (status detail : Nat)
  | failWith (s : State) (status detail : Nat)

/-- What R377 needs to know of a command. -/
structure CmdSpec where
  opcode   : Nat
  priv     : Bool
  /-- The bytes of the command's payload, from the payload. -/
  len      : Nat → Nat := fun _ => 0
  /-- The fields, as (lowest bit, width): every other payload bit is reserved. -/
  fields   : List (Nat × Nat) := []
  /-- Field ranges, as (lowest bit of the field, it is in range). -/
  checks   : Nat → List (Nat × Bool) := fun _ => []
  /-- The command needs no session (R382). -/
  open_    : Bool := false
  /-- The boot ROM serves the command in RECOVERY (R397). -/
  recovery : Bool := false
  /-- Efnuquin serves the command after a Fatal classification (R429). -/
  stopped  : Bool := false
  /-- The command only returns values (R489). -/
  query    : Bool := false

/-- The lowest set bit among the first `n` of a number. -/
def lowBit (v n : Nat) : Option Nat := if v % 2 ^ n = 0 then none else (List.range n).find? fun i => v.testBit i

/-- The mask of a list of fields. -/
def fieldMask (l : List (Nat × Nat)) : Nat := l.foldl (fun a f => a ||| ((2 ^ f.2 - 1) <<< f.1)) 0

/-- The first offending bit of a payload: a reserved bit that is set, or the first bit of a field out of range (Table 11.5, R11, R12). -/
def CmdSpec.offending (c : CmdSpec) (pl n : Nat) : Option Nat :=
  let bad := pl ^^^ (pl &&& fieldMask c.fields)
  let r := lowBit bad (8 * n)
  let f := ((c.checks pl).filter fun e => !e.2).map Prod.fst
  leastBy id (r.toList ++ f)

/-- The command header of a mailbox (Table 11.4). -/
structure CmdHdr where
  opcode  : Nat
  tag     : BitVec 16
  length  : Nat
  dryRun  : Bool
  reserved : Bool
  session : BitVec 32
  deriving DecidableEq, Repr

/-- The header that stands in CMD. -/
def Mailbox.cmdHdr (m : Mailbox) : CmdHdr :=
  let v := cellsNat m.cmd 0 16
  { opcode := fld v 0 16, tag := fbv v 16 16, length := fld v 32 12, dryRun := bitOf v 48,
    reserved := decide (fld v 44 4 ≠ 0 ∨ fld v 49 15 ≠ 0 ∨ fld v 96 32 ≠ 0), session := fbv v 64 32 }

/-- The response header of Table 11.5, followed by the payload. -/
def respBytes (h : CmdHdr) (status detail : Nat) (payload : List Byte) : List Byte :=
  bytesOf 16 (packBits [(h.opcode, 16), (h.tag.toNat, 16), (payload.length, 12), (0, 4), (0, 1), (b2n h.dryRun, 1), (0, 6),
    (status, 8), (detail, 32)]) ++ payload

/-- Efnuquin, or in RECOVERY the boot ROM on MB63, serves a mailbox (R374, R397). -/
def State.serves (s : State) (n : Nat) : Bool :=
  s.mgmt.available || (decide (s.mgmt.stage = stageRecovery) && n == 63)

/-- Complete the command of a mailbox: RESP is written whole, BUSY cleared and DONE set in one write, the notification sent and a remote requester answered (R374, R386, R389). -/
def State.respond (s : State) (n : Nat) (resp : List Byte) (store : Option StoredResp) : State :=
  let m := s.mbox n
  let s1 := s.modMbox n fun m =>
    { m with resp := cellsWrite [] 0 resp, busy := false, done := true, remote := none,
             stored := match store with | none => m.stored | some r => some r }
  let s2 := if m.notify.enable ∧ m.notify.onDone then s1.notify n else s1
  match m.remote with
  | none => s2
  | some r => s2.remoteFrame r.geid r.partition ((remoteHeader n 1 r.remoteId ++ resp).take 4096)

/-- Complete the command with a status (Table 11.6). -/
def State.complete (s : State) (n : Nat) (h : CmdHdr) (status detail : Nat) (payload : List Byte) : State :=
  let resp := respBytes h status detail payload
  s.respond n resp (if h.dryRun then none else
    some { opcode := BitVec.ofNat 16 h.opcode, tag := h.tag, session := h.session, resp := cellsWrite [] 0 resp })

/-- The token of the open session of a mailbox matches (R382). -/
def Mailbox.tokenOk (m : Mailbox) (t : BitVec 32) : Bool :=
  match m.session with
  | none => false
  | some x => decide (x.token = t)

/-- Renew the lease of the session whose token a command carries (R381). -/
def State.renewLease (s : State) (n : Nat) (t : BitVec 32) : State :=
  s.modMbox n fun m =>
    { m with session := m.session.map fun x => if x.token = t then { x with leaseEnd := s.now + x.lease * 1000000000 } else x }

/-- The stored response of the same command (R378). -/
def Mailbox.repeated (m : Mailbox) (h : CmdHdr) : Option (List Host.Cell) :=
  match m.stored with
  | none => none
  | some r => if r.opcode.toNat = h.opcode ∧ r.tag = h.tag ∧ r.session = h.session then some r.resp else none

/-- The XM5120 refuses commands for its state: stopped by a Fatal classification (R429), or entering Intermission (R489). -/
def State.gated (s : State) (c : CmdSpec) : Bool :=
  (s.faults.stopped && !c.stopped) || decide (s.power.inter = .entering ∧ c.query = false ∧ 512 ≤ c.opcode)

/-- A result under that gate: the checks of fields and ownership come first (R377). -/
def CmdResult.gate (r : CmdResult) : CmdResult :=
  match r with
  | .done _ _ => .fail stBadState 0
  | .failWith _ _ _ => .fail stBadState 0
  | .fail st d => if st = stInvalidField ∨ st = stInvalidLength ∨ st = stNotPermitted then .fail st d else .fail stBadState 0

/-- A result that would break the isolation of a partition with TIMING is refused (R272). -/
def CmdResult.isolate (r : CmdResult) (s : State) : CmdResult :=
  match r with
  | .done t resp => if breaksTiming s t then .fail stBadState 0 else .done t resp
  | .fail st d => .fail st d
  | .failWith t st d => .failWith t st d

/-- Checks 4 to 10 of R377 for a command whose session is accepted and which is no repeat. -/
def State.judge (s : State) (c : CmdSpec) (body : State → Nat → Nat → CmdResult) (n : Nat) (h : CmdHdr) : CmdResult :=
  let pl := cellsNat (s.mbox n).cmd 16 h.length
  if s.mgmt.stage = stageRecovery ∧ c.recovery = false then .fail stInvalidOpcode 0
  else if c.priv && !privilegedMb n then .fail stNotPermitted 0
  else if h.length < c.len pl then .fail stInvalidLength 0
  else if h.reserved then .fail stInvalidField 0xFFFFFFFF
  else
    match c.offending pl h.length with
    | some b => .fail stInvalidField b
    | none => if s.gated c then (body s pl h.length).gate else (body s pl h.length).isolate s

/-- Run the command that stands in mailbox `n`, if it is the command of `c` (R376, R377).
Nothing happens where the mailbox has no command, is not served, or holds another command. -/
def runCmd (c : CmdSpec) (body : State → Nat → Nat → CmdResult) (n : Nat) (s : State) : State :=
  let m := s.mbox n
  let h := m.cmdHdr
  if m.busy = false ∨ s.serves n = false ∨ h.opcode ≠ c.opcode then s
  else if 4080 < h.length then s.complete n h stInvalidLength 0 []
  else if (c.open_ || m.tokenOk h.session) = false then s.complete n h stNoSession 0 []
  else
    let s1 := s.renewLease n h.session
    match m.repeated h with
    | some r => s1.respond n (cellsRead (Tab.put 0 r 6 (Tab.get 0 r 6 ||| 1)) 0 (16 + fld (cellsNat r 4 2) 0 12)) none
    | none =>
      match s1.judge c body n h with
      | .fail st d => s1.complete n h st d []
      | .failWith s2 st d => if h.dryRun then s1.complete n h st d [] else s2.complete n h st d []
      | .done s2 resp => if h.dryRun then s1.complete n h stSuccess 0 [] else s2.checkLapses.complete n h stSuccess 0 resp

/-- A command whose opcode no table gives ends with INVALID_OPCODE at once, unless an earlier check fails (R377, R387). -/
def State.unknownCmd (s : State) (n : Nat) : State :=
  let m := s.mbox n
  let h := m.cmdHdr
  if m.busy = false ∨ s.serves n = false then s
  else if 4080 < h.length then s.complete n h stInvalidLength 0 []
  else if m.tokenOk h.session = false then s.complete n h stNoSession 0 []
  else
    let s1 := s.renewLease n h.session
    match m.repeated h with
    | some r => s1.respond n (cellsRead (Tab.put 0 r 6 (Tab.get 0 r 6 ||| 1)) 0 (16 + fld (cellsNat r 4 2) 0 12)) none
    | none => s1.complete n h stInvalidOpcode 0 []

/-- Commands of each group (Tables 2.16 to 14.x): how many opcodes each group has, from 0xGG00. -/
def groupSize : Nat → Nat
  | 0x0 => 5
  | 0x1 => 4
  | 0x2 => 9
  | 0x3 => 5
  | 0x4 => 15
  | 0x5 => 6
  | 0x6 => 10
  | 0x7 => 22
  | 0x8 => 7
  | 0x9 => 9
  | 0xA => 8
  | 0xB => 11
  | 0xC => 5
  | 0xD => 6
  | 0xE => 9
  | 0xF => 11
  | _ => 0

/-- An opcode that a table gives. -/
def opcodeKnown (op : Nat) : Bool := decide (op % 256 < groupSize (op / 256))

/-! ### Targets -/

/-- The port that QUAD and SUBPORT name (R513). -/
def State.portNamed (s : State) (quad sub : Nat) : Option Nat :=
  if quad < 128 ∧ (s.port (2 * quad + sub)).configured ∧ (sub = 0 ∨ (s.port (2 * quad + sub)).pcie) then some (2 * quad + sub) else none

/-- A mailbox may name what a partition owns (R85). -/
def State.mayName (s : State) (n : Nat) (owner : BitVec 8) : Bool := privilegedMb n || decide ((s.mbox n).owner = owner)

/-- A port target: INVALID_FIELD where no port has the name, NOT_PERMITTED where the mailbox may not name it (R85, R513).
QUAD stands at `at_` and SUBPORT after it, which is the offending field where QUAD names a port. -/
def State.onPort (s : State) (n quad sub at_ : Nat) (k : Nat → CmdResult) : CmdResult :=
  match s.portNamed quad sub with
  | none => .fail stInvalidField (if sub ≠ 0 ∧ quad < 128 ∧ (s.port (2 * quad)).configured then at_ + 8 else at_)
  | some p => if s.mayName n (s.portOwner p) then k p else .fail stNotPermitted 0

/-- A native port target, for commands with a native port only. -/
def State.onNative (s : State) (n quad at_ : Nat) (k : Nat → CmdResult) : CmdResult :=
  s.onPort n quad 0 at_ fun p => if (s.port p).pcie then .fail stInvalidField at_ else k p

/-- A PU target: the PU is named by a tenant when its partition owns a port that uses the quad (R85). -/
def State.onPu (s : State) (n pu : Nat) (k : CmdResult) : CmdResult :=
  if privilegedMb n || (s.portsOfQuad pu).any (fun p => s.mayName n (s.portOwner p)) then k else .fail stNotPermitted 0

end Sys2Proof.Machine
end

