-- ==== Sys2Proof/Machine/FaultOps.lean ====
section
/-!
DEFINITION. What the fault collector and the booth controller do with a classified error: the fault log and its merging (R420), the first-fault record (R421), EV_FAULT and FAULT frames (R422, R423), the booth record store (R417), tests that end early (R445), the Fatal reaction (R429) and ALIVE (R430, R431).
-/

namespace Sys2Proof.Machine

/-- The fault collector runs: the core die is released and has booted (R417). Until then the booth controller classifies the Selvedge's sources. -/
def State.collectorOn (s : State) : Bool :=
  s.power.coreOn && (s.mgmt.stage == stageReady || s.mgmt.stage == stageRestarting || s.mgmt.stage == stageIntermission)

/-- The bytes of a fault record (Table 12.5). -/
def FaultRec.bytes (r : FaultRec) : List Byte :=
  bytesOf 32 (packBits [(r.source.toNat, 12), (r.error.toNat, 8), (r.severity.toNat, 3), (b2n r.pairOnly, 1), (b2n r.unsupervised, 1),
    (b2n r.first, 1), (b2n r.injected, 1), (b2n r.multi, 1), (0, 4), (r.count.toNat, 16), (r.frseq.toNat, 16), (r.seconds.toNat, 32),
    (r.ns.toNat, 30), (0, 2), (r.detail.toNat, 64), (r.unit.toNat, 20)])

/-- The order of R421: record time, then the higher severity, then the lower source ID. -/
def FaultRec.before (a b : FaultRec) : Bool :=
  let ta := a.seconds.toNat * 1000000000 + a.ns.toNat
  let tb := b.seconds.toNat * 1000000000 + b.ns.toNat
  decide (ta < tb ∨ (ta = tb ∧ (b.severity < a.severity ∨ (a.severity = b.severity ∧ a.source < b.source))))

/-- The instance record of a shared endpoint's port (R258). -/
def Policy.instAt (t : Policy) (p id : Nat) : Option InstRec := Tab.get none t.inst (256 * p + id)

/-- The partitions that own a resource that an error concerns (R383). -/
def State.faultOwners (s : State) (src : BitVec 12) (detail : BitVec 64) : List (BitVec 8) :=
  let i := fld src.toNat 0 8
  match fld src.toNat 8 4 with
  | 0x0 => (s.portsOfQuad i).map s.portOwner
  | 0x1 => [s.portOwner i]
  | 0x2 => (s.portsOfQuad i).map s.portOwner
  | 0x3 => (s.portsOfQuad i).map s.portOwner
  | 0x5 => (s.portsOfQuad i).map s.portOwner
  | 0x6 => [(s.juggler i).owner]
  | 0x7 => [(s.juggler (256 + i)).owner]
  | 0x8 =>
    match s.policy.instAt (2 * i) (fld detail.toNat 0 8) with
    | some r => [r.owner, s.portOwner (2 * i)]
    | none => [s.portOwner (2 * i)]
  | 0x9 => [s.pwOwner (if i = 0 then .a else .b)]
  | 0xA => (s.fabric.partners.filter fun e => decide (e.2.slot.toNat = i)).map fun e => s.portOwner e.1
  | _ => []

/-- One FAULT frame to each forward GEID (R423). -/
def State.forwardFault (s : State) (r : FaultRec) : State :=
  ([s.faults.forward0, s.faults.forward1].filterMap id).foldl (fun t g =>
    t.inject t.mgmt.homeRm
      { hdr := { dst := g, src := t.geid 0, type := tyManagement, subtype := 0x03, part := 0, length := 40 }
        payload := bytesOf 8 (t.geid 0).toNat ++ r.bytes }) s

/-- Write a record to the fault log with the next FRSEQ (R420, R421); EV_FAULT and FAULT frames follow for Degraded and Contained records. -/
def State.writeRecord (s : State) (r0 : FaultRec) : State :=
  let f := s.faults
  let takes := decide (f.ffrLevel ≤ r0.severity) && (match f.ffr with | none => true | some x => r0.before x)
  let r := { r0 with frseq := f.frseq, first := takes }
  let s1 := s.modFaults fun f =>
    { f with
      log := keepLast 1024 (f.log ++ [r])
      logOverwritten := if f.log.length < 1024 then f.logOverwritten else inc48 f.logOverwritten
      frseq := f.frseq + 1
      ffr := if takes then some r else f.ffr
      firstFatal := if r.severity = svFatal ∧ f.firstFatal = none then some r else f.firstFatal }
  if r.severity = svDegraded ∨ r.severity = svContained then
    (s1.evFault r (s1.faultOwners r.source r.detail)).forwardFault r
  else s1

/-- The merge key of a source and error code. -/
def mergeKey (src : BitVec 12) (code : BitVec 8) : Nat := 256 * src.toNat + code.toNat

/-- Add a 16-bit count, saturating. -/
def addSat16 (a b : Nat) : Nat := min (a + b) 0xFFFF

/-- Log an error or merge it with the record of its source and error code of less than 1 ms before (R420).
A Contained or Fatal error is never merged. -/
def State.logError (s : State) (r : FaultRec) : State :=
  let k := mergeKey r.source r.error
  let s0 := if r.severity = svCorrectable then
      s.modSource r.source fun x => { x with correctable := satAdd x.correctable r.count.toNat } else s
  match Tab.get none s.faults.merges k with
  | some m =>
    if r.severity ≤ svDegraded then
      s0.modFaults fun f =>
        { f with
          merges := Tab.put none f.merges k
            (some { total := addSat16 m.total r.count.toNat, detail := r.detail, injected := m.injected || r.injected, severity := r.severity,
                    unsupervised := r.unsupervised })
          merged := satAdd f.merged r.count.toNat }
    else (s0.writeRecord r).modFaults fun f => { f with merges := Tab.put none f.merges k (some {}) }
  | none => (s0.writeRecord r).modFaults fun f => { f with merges := Tab.put none f.merges k (some {}) }

/-- Write a record to the booth record store; the oldest of 64 is lost (R417). -/
def State.boothRecord (s : State) (r : FaultRec) : State :=
  let s1 := s.modFaults fun f =>
    { f with
      booth := keepLast 64 (f.booth ++ [r])
      boothLost := if f.booth.length < 64 then f.boothLost else f.boothLost + 1
      boothMerges := Tab.put none f.boothMerges (mergeKey r.source r.error) (some {}) }
  if svDegraded ≤ r.severity then s1.evFault r (s1.faultOwners r.source r.detail) else s1

/-- The booth controller classifies an error of a Selvedge source (R417), merged under R420. -/
def State.boothClassify (s : State) (src : BitVec 12) (code : BitVec 8) (detail : BitVec 64) : State :=
  let sev := s.severityOf src code
  let unit := match errorUnits src code detail none with | u :: _ => if sev = svContained then u.bits else 0xFFFFF | [] => 0xFFFFF
  let r : FaultRec := { source := src, error := code, severity := sev, detail := detail, unit := unit,
                        seconds := s.fabric.time.seconds.setWidth 32, ns := s.fabric.time.ns }
  match Tab.get none s.faults.boothMerges (mergeKey src code) with
  | some m =>
    if sev ≤ svDegraded then
      s.modFaults fun f =>
        { f with boothMerges := Tab.put none f.boothMerges (mergeKey src code) (some { total := addSat16 m.total 1, detail := detail, severity := sev }) }
    else s.boothRecord r
  | none => s.boothRecord r

/-- A source detects an error (R414). While the collector does not run the booth controller classifies the Selvedge's sources, and the core die's sources hold their reports. -/
def State.report (s : State) (src : BitVec 12) (code : BitVec 8) (detail : BitVec 64) : State :=
  if s.collectorOn then s.queueReport src { code := code, detail := detail }
  else if selvedgeSource src then s.boothClassify src code detail
  else if s.power.coreOn then s.queueReport src { code := code, detail := detail }
  else s

/-- The collector starts: it copies the booth record store into the fault log in record-time order and empties it (R417). -/
def State.copyBooth (s : State) : State :=
  let pend := s.faults.boothMerges.filterMap fun e =>
    match e.2 with
    | some m => if m.total = 0 then none else
        some { source := BitVec.ofNat 12 (e.1 / 256), error := BitVec.ofNat 8 (e.1 % 256),
               severity := m.severity, count := BitVec.ofNat 16 m.total,
               detail := m.detail, seconds := s.fabric.time.seconds.setWidth 32, ns := s.fabric.time.ns : FaultRec }
    | none => none
  let s1 := (s.faults.booth ++ pend).foldl (fun t (r : FaultRec) =>
    let f := t.faults
    let takes := decide (f.ffrLevel ≤ r.severity) && (match f.ffr with | none => true | some x => r.before x)
    let r1 := { r with frseq := f.frseq, first := takes }
    let t1 := t.modFaults fun f =>
      { f with
        log := keepLast 1024 (f.log ++ [r1])
        frseq := f.frseq + 1
        logOverwritten := if f.log.length < 1024 then f.logOverwritten else inc48 f.logOverwritten
        ffr := if takes then some r1 else f.ffr }
    if r1.severity = svDegraded ∨ r1.severity = svContained then t1.forwardFault r1 else t1) s
  s1.modFaults fun f => { f with booth := [], boothMerges := [], logOverwritten := satAdd f.logOverwritten f.boothLost, boothLost := 0 }

/-- EV_FENCE (Table 12.6): the unit, 0 fenced or 1 released, and the source and error of the fence. -/
def State.evFence (s : State) (f : Fence) (released : Bool) (owners : List (BitVec 8)) : State :=
  s.raise 0x0B01 [(f.unit.bits.toNat, 3), (b2n released, 1), (f.source.toNat, 2), (f.error.toNat, 1)] owners

/-- Stop ALIVE at its level with a cause (R429, R431, R432). -/
def State.stopAlive (s : State) (cause : BitVec 2) : State :=
  s.modFaults fun f =>
    { f with aliveRunning := false, stopCause := if f.aliveRunning ∨ f.stopCause = 0 then cause else f.stopCause }

/-- End tests in progress of the units that `t` picks as ABORTED with a cause of Table 13.5 (R445). Isolation holds until re-initialisation. -/
def State.abortTests (s : State) (t : UnitId → Bool) (cause : BitVec 4) : State :=
  s.modBist fun b =>
    { b with records := Tab.mapAll none b.records fun r => r.map fun x =>
        if x.active && (x.result == 1 || x.result == 2) && t x.unit then
          { x with result := 5, abortCause := cause, sigValid := false, verified := false }
        else x }

/-- The Fatal reaction (Table 12.8): the XM5120 stops, and ALIVE with it, self-tests end as ABORTED with FATAL, and an entry to Intermission is abandoned; the cause is 3 for MANAGER_STOP. -/
def State.fatalStop (s : State) (cause : BitVec 2) : State :=
  (((s.stopAlive cause).modFaults fun f => { f with stopped := true }).abortTests (fun _ => true) 5).modPower fun x =>
    { x with inter := if x.inter = .entering then .no else x.inter }

end Sys2Proof.Machine
end

