-- ==== Sys2Proof/Machine/PowerOps.lean ====
section
/-!
DEFINITION. Rails (R467, R468), bringing ports up (R61, R66), wake sources (R474, R476) and the flash directory (R393).
-/

namespace Sys2Proof.Machine

/-! ### Bringing a port up -/

/-- A port leaves DISABLED: DETECT, or PCI Express training (R61, R65, R76). A port that already is past DISABLED stays. -/
def State.bringUp (s : State) (p : Nat) : State :=
  s.modPort p fun x =>
    if x.stage = .disabled then
      { x with stage := if x.pcie then .pcieTraining else .detect, failCount := 0, firstFail := true, partials := 0, waiting := false,
               retrain := false, clockLost := false, loopback := 0 }
    else x

/-- A port neither fenced, marked nor under test, with its Ring on and its quads on. -/
def State.portFree (s : State) (p : Nat) : Bool :=
  !s.portHeld s.out p && !s.ringIsOff (ringOf (leadOf p)) && (s.quadsOf p).all fun q => Tab.get false s.power.quadOn q

/-- Ports with AUTO_UP that stand in DISABLED are brought up (R474, R478). -/
def State.autoUp (s : State) (l : List Nat) : State :=
  s.each l fun t p => if (t.port p).autoUp ∧ t.portFree p then t.bringUp p else t

/-! ### Rails -/

/-- The rails of a sequence in order: all five, or VDD_IO, VDD_SRAM and VDD_CORE for the pre-heat step (Table 14.2, R469). -/
def RailPlan.order : RailPlan → List Nat
  | .preheat => [0, 2, 3]
  | _ => [0, 1, 2, 3, 4]

/-- Enable the first rail of a plan. -/
def Power.begin (x : Power) (p : RailPlan) : Power :=
  { x with plan := p, en := [true, false, false, false, false], ok := [false, false, false, false, false] }

/-- The booth controller sequences the rails (R467); after a hold or a pre-heat step STAGE leaves HELD. -/
def State.railsOn (s : State) : State :=
  (s.modPower fun x => x.begin .up).modMgmt fun m =>
    { m with stage := if m.stage ≠ stageHeld then m.stage else if s.power.inter = .waking then stageIntermission else stageRom }

/-- An attempt to sequence the rails starts. The Selvedge temperature is read first: always on an XM5120-LC-C (R2), and at power-on, cold reset and wake on an XM5120-LC-X (R3). -/
def State.railStart (s : State) : State :=
  let s1 := s.modMgmt fun m => { m with preheat := false }
  if s.part.lcX ∧ s.power.boot = .warm then s1.railsOn else s1.modPower fun x => { x with plan := .check }

/-- The rail that is switched off next: the highest that is enabled. -/
def Power.topRail (x : Power) : Option Nat := ((([4, 3, 2, 1, 0] : List Nat)).filter fun r => nth false x.en r).head?

/-- EV_PREHEAT with the duration in ms and a cause: 0 ended, 1 TIMEOUT (R469). -/
def State.evPreheat (s : State) (cause : Nat) : State :=
  s.raise 0x0E02 [((match s.power.preheatSince with | some t => (s.now - t) / 1000000 | none => 0), 8), (cause, 1)] []

/-- The pre-heat step is over: PREHEAT_N is released. -/
def Power.preheatOver (x : Power) (p : RailPlan) : Power := { x with plan := p, preheatN := false, preheatSince := none }

/-- Every rail is off at the end of a plan (R467 to R469, R474). -/
def State.railsAreOff (s : State) : State :=
  match s.power.plan with
  | .downIntermission =>
    let s1 := s.modPower fun x => { x with plan := .idle, inter := .asleep }
    match s1.power.wakeSrc with
    | none => s1
    | some _ => (s1.modPower fun x => { x with inter := .waking }).railStart
  | .downFailed =>
    if s.power.seqFails < 3 then s.modPower fun x => x.preheatOver .retry
    else (s.modPower fun x => x.preheatOver .gaveUp).modMgmt fun m => { m with stage := stageIntermission }
  | .downLost => s.modPower fun x => { x with plan := .retry }
  | .downPreheat => ((s.evPreheat 0).modPower fun x => x.preheatOver .idle).railsOn
  | .downPreheatTimeout => (s.evPreheat 1).modPower fun x => x.preheatOver .preheatWait
  | _ => s.modPower fun x => { x with plan := .idle }

/-- Disable the highest rail that is enabled, and go on at once past one whose PWR_OK is already low. -/
def State.railsNext (s : State) : Nat → State
  | 0 => s.railsAreOff
  | n + 1 =>
    match s.power.topRail with
    | none => s.railsAreOff
    | some r =>
      let s1 := s.modPower fun x => { x with en := setAt x.en r false }
      if nth false s1.power.ok r then s1 else s1.railsNext n

/-- The booth controller starts switching the rails off in reverse order (R467). -/
def State.railsOff (s : State) (p : RailPlan) : State := (s.modPower fun x => { x with plan := p, coreOn := false }).railsNext 6

/-! ### Wake -/

/-- A wake source is enabled (Table 14.6). -/
def State.wakeOn (s : State) (src : Nat) : Bool := s.power.wakeMask.getLsbD src

/-- A wake source arrives (R468, R474, R476): it abandons an entry to Intermission, wakes the module, or starts a new attempt after three failed rail sequences. -/
def State.wake (s : State) (src : Nat) : State :=
  if s.wakeOn src = false then s
  else if s.power.plan = .gaveUp then (s.modPower fun x => { x with seqFails := 0, wakeSrc := some src }).railStart
  else
    match s.power.inter with
    | .no => s
    | .entering => (((s.modPower fun x => { x with inter := .no }).raise 0x0E04 [] []).autoUp s.allPorts)
    | .railsFalling => s.modPower fun x => { x with wakeSrc := some (x.wakeSrc.getD src) }
    | .asleep => (s.modPower fun x => { x with inter := .waking, wakeSrc := some src }).railStart
    | .waking => s

/-! ### The flash directory -/

/-- The directory in force: the valid copy with the higher DIR_SEQ (R393). -/
def Mgmt.directory (m : Mgmt) : Option DirCopy :=
  if m.dir0.valid ∧ (m.dir1.valid = false ∨ m.dir1.seq ≤ m.dir0.seq) then some m.dir0
  else if m.dir1.valid then some m.dir1
  else none

/-- Write the directory: the other copy, with DIR_SEQ + 1 (R393). -/
def Mgmt.writeDir (m : Mgmt) (f : DirCopy → DirCopy) : Mgmt :=
  let cur := m.directory.getD {}
  let new := { f cur with valid := true, seq := cur.seq + 1 }
  if m.directory = none ∨ (m.dir1.valid ∧ some m.dir1 = m.directory ∧ some m.dir0 ≠ m.directory) then { m with dir0 := new }
  else { m with dir1 := new }

/-- Every member of a list in order, without repeats, with room for `n`. -/
def addTo {α : Type} [DecidableEq α] (n : Nat) (l : List α) (a : α) : Option (List α) :=
  if a ∈ l then some l else if l.length < n then some (l ++ [a]) else none

end Sys2Proof.Machine
end

