-- ==== Sys2Proof/Machine/JugglerOps.lean ====
section
/-!
DEFINITION. Jugglers and descriptor rings: frames that Jugglers form (R279, R285), tags (R137, R293), placement (R290), records (R295), ring states (R297 to R300).
-/

namespace Sys2Proof.Machine

/-! ### Frames of a Juggler -/

/-- Cells that a Juggler has formed and that its injection input has not taken (R279). -/
def State.stagedCells (s : State) (j : Nat) : Nat :=
  (s.car.frames.map fun e => match e.2 with | some r => if r.maker = some j then r.blocksIn - r.sent else 0 | none => 0).sum

/-- A Juggler has room for one more frame of the greatest size (R279). -/
def State.canForm (s : State) (j n : Nat) : Bool := decide (s.stagedCells j + n ≤ 72)

/-- A Juggler forms a frame, for a descriptor ring or not (R277). -/
def State.form (s : State) (j : Nat) (ring : Option Nat) (f : Frame) : State :=
  (s.inject (j / 4) f).modFrame s.car.nextUid fun r => { r with maker := some j, mover := ring }

/-! ### Tags -/

/-- The key of a requester's tag. -/
def tagKey (g : Geid) (t : BitVec 12) : Nat := g.toNat * 4096 + t.toNat
/-- A tag in use (R137). -/
def State.tagUse (s : State) (g : Geid) (t : BitVec 12) : Option TagUse := Tab.get none s.fabric.tags (tagKey g t)
/-- Set or free a tag. -/
def State.setTag (s : State) (g : Geid) (t : BitVec 12) (u : Option TagUse) : State :=
  { s with fabric := { s.fabric with tags := Tab.put none s.fabric.tags (tagKey g t) u } }
/-- A request takes its tag (R137): `n` bytes are to come back. -/
def State.takeTag (s : State) (h : Hdr) (n : Nat) (f : Option Frame) : State :=
  s.setTag h.src h.tag (some
    { dst := h.dst, cls := h.cls, partition := h.part, inst := h.inst, left := n, since := s.now, timeoutMs := s.fabric.cplTimeoutMs,
      addr := h.addr, frame := f })
/-- The lowest free tag of a requester, if it has one (R137). -/
def State.freeTag (s : State) (g : Geid) : Option (BitVec 12) :=
  (((List.range 4096).find? fun t => (s.tagUse g (BitVec.ofNat 12 t)).isNone)).map (BitVec.ofNat 12)

/-! ### Rings -/

/-- A descriptor ring by its RING_ID. -/
def State.moverRing (s : State) (id : Nat) : Option MoverRing := Tab.get none s.jug.rings id
/-- Write a descriptor ring. -/
def State.setMover (s : State) (id : Nat) (r : Option MoverRing) : State := s.modJug fun j => { j with rings := Tab.put none j.rings id r }
/-- Change a descriptor ring. -/
def State.modMover (s : State) (id : Nat) (f : MoverRing → MoverRing) : State :=
  match s.moverRing id with
  | none => s
  | some r => s.setMover id (some (f r))

/-- The owner of the instance that holds a ring (Table 8.2). -/
def State.ringOwner (s : State) (r : MoverRing) : BitVec 8 :=
  match s.policy.instAt r.port r.inst with
  | some i => i.owner
  | none => 0

/-- The RING_IDs of the rings that satisfy a test. -/
def State.ringsWith (s : State) (t : MoverRing → Bool) : List Nat :=
  (s.jug.rings.filter fun e => match e.2 with | some r => t r | none => false).map Prod.fst

/-- Causes of EV_MOVER_RING: 0 configured, 1 START, 2 STOP, 3 RESET, 4 quiesce, 5 resume, 6 instance reset, 7 failed descriptor, 8 failed fetch, 9 NO_ENGINE (log entry 24). -/
abbrev MoverCause := BitVec 8

/-- Put a ring into a state; a change raises EV_MOVER_RING (R297). -/
def State.setRingState (s : State) (id : Nat) (g : RingState) (cause : MoverCause) : State :=
  match s.moverRing id with
  | none => s
  | some r =>
    if r.state = g then s
    else
      (s.setMover id (some { r with state := g, cause := cause })).raise 0x0801 [(id, 2), (g.code, 1), (cause.toNat, 1)] [s.ringOwner r]

/-- Rings placed on a Juggler or about to move to it; a DISABLED ring uses no slot (Table 8.6). -/
def State.ringsOn (s : State) (j : Nat) : Nat := (s.ringsWith fun r => decide (r.juggler = j ∨ r.moveTo = some j) && decide (r.state ≠ .disabled)).length

/-- The Jugglers that may hold a ring of a port's instance (R290). -/
def State.eligible (s : State) (p : Nat) (owner : BitVec 8) : List Nat :=
  ((s.quadsOf p).flatMap fun q => (List.range 4).map fun k => 4 * q + k).filter fun j =>
    s.jugglerOk j && (decide ((s.juggler j).owner = 0) || decide ((s.juggler j).owner = owner))

/-- The Juggler that Efnuquin chooses for a ring (R290). -/
def State.placeOn (s : State) (p : Nat) (owner : BitVec 8) : Option Nat :=
  let el := s.eligible p owner
  let free := el.filter fun j => decide (s.ringsOn j < 16)
  let puLoad (q : Nat) : Nat := ((el.filter fun j => decide (j / 4 = q)).map s.ringsOn).sum
  let least := (leastBy id (free.map fun j => puLoad (j / 4))).getD 0
  leastBy s.ringsOn (free.filter fun j => decide (puLoad (j / 4) = least))

/-- Fetched descriptors not yet started are given up, and HEAD returns to the first of them (Table 8.6). -/
def MoverRing.giveUp (r : MoverRing) : MoverRing :=
  match r.descs.filter fun d => !d.started && d.status.isNone with
  | [] => r
  | d :: _ => { r with head := d.index, descs := r.descs.filter fun d => d.started || d.status.isSome }

/-- A tag of a Juggler whose completion is to be discarded (R299). -/
def State.killTags (s : State) (id : Nat) : State :=
  match s.moverRing id with
  | none => s
  | some r => s.modJuggler r.juggler fun x =>
      { x with tags := Tab.mapAll none x.tags fun t => t.map fun u => if u.ring = id then { u with dead := true } else u }

/-- The interrupt write of a ring (R295). -/
def State.ringIrq (s : State) (id : Nat) (r : MoverRing) : State :=
  s.form r.juggler (some id)
    { hdr := { dst := r.irqGeid, src := s.geid 3, type := tyMemWrite, cls := r.cls, length := 4, part := s.ringOwner r, inst := r.irqInst,
               addr := r.irqAddr }
      payload := bytesOf 4 r.irqData.toNat }

/-- The record of a descriptor (Table 8.4). -/
def recordBytes (id : Nat) (phase : Bool) (d : DescRun) (status : BitVec 8) : List Byte :=
  bytesOf 32 (packBits [(d.index, 15), (b2n phase, 1), (b2n d.portEvent, 1), (0, 7), (status.toNat, 8), (d.desc.userTag.toNat, 32),
    (d.wrote, 32), (id, 13)])

/-- Write the record of the oldest descriptor of a ring, which has ended (R295): QUIET and a ring without IRQ_EN leave out what they say. -/
def State.writeRingRecord (s : State) (id : Nat) : State :=
  match s.moverRing id with
  | none => s
  | some r =>
    match r.descs with
    | [] => s
    | d :: rest =>
      match d.status with
      | none => s
      | some st =>
        let s1 := if d.desc.quiet ∧ st = 0 then s else
          s.form r.juggler (some id)
            { hdr := { dst := r.cplGeid, src := s.geid 3, type := tyMemWrite, cls := r.cls, length := 32, part := s.ringOwner r, inst := r.cplInst,
                       addr := r.cplAddr + BitVec.ofNat 64 (32 * d.index) }
              payload := recordBytes id r.phase d st }
        let s2 := if d.desc.irq ∧ r.irqEn then s1.ringIrq id r else s1
        (s2.jmon r.juggler 0x1D3 1).modMover id fun r =>
          { r with
            descs := rest
            phase := if d.index + 1 = 2 ^ r.n then !r.phase else r.phase
            descDone := if st = 0 then inc48 r.descDone else r.descDone
            descErr := if st = 0 then r.descErr else inc48 r.descErr }

/-- Write the records of every ended descriptor at the front of a ring. -/
def State.writeRingRecords (s : State) (id : Nat) : State :=
  match s.moverRing id with
  | none => s
  | some r => (r.descs.takeWhile fun d => d.status.isSome).foldl (fun t _ => t.writeRingRecord id) s

/-- A STOPPING ring whose started descriptors all have their records becomes STOPPED (Table 8.6). -/
def State.settleRing (s : State) (id : Nat) : State :=
  match s.moverRing id with
  | none => s
  | some r =>
    if r.state = .stopping ∧ (r.descs.filter fun d => d.started || d.status.isSome) = [] then
      (s.modMover id fun r => (MoverRing.giveUp r)).setRingState id .stopped r.cause
    else s

/-- A ring stops fetching; descriptors already started finish (Table 8.6). -/
def State.stopRing (s : State) (id : Nat) (cause : MoverCause) : State :=
  match s.moverRing id with
  | none => s
  | some r => if r.state = .running then ((s.modMover id MoverRing.giveUp).setRingState id .stopping cause).settleRing id else s

/-- End every descriptor that a ring holds with a status, and write their records (R299, R300). -/
def State.endDescs (s : State) (id : Nat) (status : BitVec 8) (all : Bool) : State :=
  ((s.killTags id).modMover id fun r =>
    let r1 := if all then r else r.giveUp
    { r1 with descs := r1.descs.map fun d =>
        { d with status := some (d.status.getD status), chunks := [], flush := false } }).writeRingRecords id

/-- Discard the staged frames of a ring of which the injection input has taken no cell (R299). -/
def State.dropStaged (s : State) (id : Nat) : State :=
  s.each (s.framesWith fun r => decide (r.mover = some id) && decide (r.sent = 0)) State.discard

/-- A forced reset of the instance of a ring (R299): its descriptors end with INSTANCE_RESET and the ring is STOPPED at entry 0. -/
def State.resetRing (s : State) (id : Nat) : State :=
  match s.moverRing id with
  | none => s
  | some r =>
    if r.state = .disabled then s
    else
      (((s.dropStaged id).endDescs id 0x06 true).modMover id fun r => { r with head := 0, tail := 0, phase := true, moveTo := none, wasRunning := false }).setRingState
        id .stopped 6

/-- A ring leaves a Juggler that is out of service (R300). -/
def State.evictRing (s : State) (id : Nat) : State :=
  match s.moverRing id with
  | none => s
  | some r =>
    if r.state = .disabled then s
    else
      match s.placeOn r.port (s.ringOwner r) with
      | none => (s.endDescs id 0x07 false).setRingState id .error 9
      | some j =>
        let s1 := (s.killTags id).modMover id fun r => { r.giveUp with juggler := j, moveTo := none }
        (s1.modMover id fun r => { r with descs := r.descs.map fun d => { d with status := some (d.status.getD 0x07), chunks := [], flush := false } }).writeRingRecords id

/-- A ring that is to move does so at a descriptor boundary (R290). -/
def State.moveRing (s : State) (id : Nat) : State :=
  match s.moverRing id with
  | none => s
  | some r =>
    match r.moveTo with
    | none => s
    | some j =>
      if (r.descs.filter fun d => d.started || d.status.isSome) = [] then
        (s.killTags id).modMover id fun r => { r.giveUp with juggler := j, moveTo := none }
      else s

/-- Rings move off Jugglers out of service: at once off a fenced, marked or unpowered one (R300), and at the next descriptor boundary off one under test (Table 13.1). -/
def State.updateRings (s : State) : State :=
  s.each (s.ringsWith fun r => !s.jugglerOk r.juggler && decide (r.state ≠ .disabled) && decide (r.state ≠ .error)) fun t id =>
    match t.moverRing id with
    | none => t
    | some r =>
      if jugglerHeld (fun u => t.fenced u || t.marked u) r.juggler || t.ringIsOff (r.juggler / 32) then t.evictRing id
      else (t.modMover id fun r => { r with moveTo := t.placeOn r.port (t.ringOwner r) }).moveRing id

/-- Work, homes and rings follow after units have left or re-entered service (R23, R282, R300). -/
def State.updateService (s : State) : State := s.updateHomes.updateMoves.updateRings

end Sys2Proof.Machine
end

