-- ==== Sys2Proof/Machine/PartOps.lean ====
section
/-!
DEFINITION. Local endpoints (R130), instances and their control blocks (R254, R262 to R265), virtual-hierarchy resets (R251, R464), and what follows when a port goes down.
-/

namespace Sys2Proof.Machine

/-! ### Local endpoints -/

/-- What a local endpoint index names in the tables, with the entries of Table 4.1 for those never written. -/
def Tables.endpointAt (t : Tables) (i : Nat) : EndpointEntry :=
  match Tab.get none t.endpoint i with
  | some e => e
  | none => if i < 4 then .internal i else if 0x10 ≤ i ∧ i < 0x90 then .port (i - 0x10) 0 else .unassigned

/-- The configured port that an endpoint entry names (R130). -/
def State.entryPort (s : State) : EndpointEntry → Option Nat
  | .port q sub => s.portNamed q sub
  | _ => none

/-- The lowest local endpoint index that names a port in the committed table; 0xFF where none does. -/
def State.portIndex (s : State) (p : Nat) : Nat :=
  ((List.range 255).find? fun i => decide (s.fabric.tables.endpointAt i = .port (leadOf p) (p % 2))).getD 0xFF

/-- The GEID of a port. -/
def State.portGeid (s : State) (p : Nat) : Geid := s.geid (s.portIndex p)

/-- The configured port that a GEID of this switch names. -/
def State.geidPort (s : State) (g : Geid) : Option Nat :=
  if g.toNat / 256 = s.fabric.switchId.toNat then s.entryPort (s.fabric.tables.endpointAt (g.toNat % 256)) else none

/-- A frame that an internal source sends on behalf of the switch's own index `i`, with a tag of that index; none is sent while its 4,096 tags are in use (R137). -/
def State.request (s : State) (pu i : Nat) (bytes : Nat) (f : Frame) : State :=
  match s.freeTag (s.geid i) with
  | none => s
  | some t =>
    let h := { f.hdr with src := s.geid i, tag := t }
    (s.takeTag h bytes none).inject pu { f with hdr := h }

/-! ### Instances -/

/-- The running state of an instance. -/
def State.instRun (s : State) (p id : Nat) : InstRun := Tab.get {} s.parts.insts (256 * p + id)
/-- Change the running state of an instance. -/
def State.modInst (s : State) (p id : Nat) (f : InstRun → InstRun) : State :=
  s.modParts fun x => { x with insts := Tab.mod {} x.insts (256 * p + id) f }

/-- The partitions that an instance concerns. -/
def State.instOwners (s : State) (p id : Nat) : List (BitVec 8) :=
  (match s.policy.instAt p id with | some r => [r.owner] | none => []) ++ [s.portOwner p]

/-- EV_INSTANCE_STATE (R262): endpoint, ID, state and a cause, 0 commit, 1 quiesce, 2 resume, 3 reset, 4 forced reset, 5 reset ended, 6 QUIESCE_TIMEOUT, 7 RESET_TIMEOUT, 8 fence (log entry 32). -/
def State.evInst (s : State) (p id cause : Nat) : State :=
  s.raise 0x0702 [((s.portGeid p).toNat, 3), (id, 1), ((s.instRun p id).state.code, 1), (cause, 1)] (s.instOwners p id)

/-- Put an instance into a state (R262). -/
def State.setInst (s : State) (p id : Nat) (g : InstState) (cause : Nat) : State :=
  (s.modInst p id fun x => { x with state := g }).evInst p id cause

/-- An 8-byte word of an ICB (Table 7.9). -/
def Icb.word (i : Icb) (k : Nat) : Nat :=
  match k with
  | 0 => packBits [(b2n i.enable, 1), (b2n i.quiesceReq, 1), (b2n i.resetReq, 1), (0, 13), (i.npCredits.toNat, 16), (i.log2.toNat, 6)]
  | 1 => i.base.toNat
  | 2 => packBits [(i.msiData.toNat, 32), (i.msiVecLog2.toNat, 3), (b2n i.msiEn, 1)]
  | _ => i.msiAddr.toNat

/-- The configuration address of a word of an ICB (R254). -/
def icbAddr (id k : Nat) : Nat := 0x100000 + 32 * id + 8 * k

/-- Efnuquin writes a word of an ICB with a CONFIGURATION frame of 8 bytes (R254). -/
def State.sendIcb (s : State) (p id k : Nat) : State :=
  s.request s.mgmt.homeRm 0 0
    { hdr := { dst := s.portGeid p, type := tyConfig, subtype := 0x01, cls := 0, length := 8, part := s.portOwner p,
               addr := BitVec.ofNat 64 (icbAddr id k) }
      payload := bytesOf 8 ((s.instRun p id).icb.word k) }

/-- Change an ICB and write the words given. -/
def State.writeIcb (s : State) (p id : Nat) (f : Icb → Icb) (words : List Nat) : State :=
  (s.modInst p id fun x => { x with icb := f x.icb }).each words fun t k => t.sendIcb p id k

/-- The RING_IDs of the rings of an instance. -/
def State.instRings (s : State) (p id : Nat) : List Nat := s.ringsWith fun r => decide (r.port = p ∧ r.inst = id)

/-- Requests outstanding at the port that address an instance (R265). -/
def State.instReqs (s : State) (p id : Nat) : List OutReq := (s.link p).outReqs.filter fun o => decide (o.hdr.inst.toNat = id)

/-- A forced reset takes effect (R265): outstanding requests to the instance get INSTANCE_RESET completions and are marked aborted, its own are forgotten, its mover work stops, and RESET_REQ is written. -/
def State.forceReset (s : State) (p id : Nat) : State :=
  let reqs := (s.instReqs p id).filter fun o => !(s.instRun p id).aborted.contains (o.requester, o.tag)
  let s1 := (s.modInst p id fun x =>
    { x with forced := true, destroy := false, reqCleared := false, lifePassed := false, count := [], lost := x.lost ++ x.count.map fun e => (e.1, e.2.1),
             aborted := x.aborted ++ reqs.map fun o => (o.requester, o.tag) }).setInst p id .resetting 4
  let s2 := reqs.foldl (fun t o => t.endHere { hdr := o.hdr } (leadOf p) .instanceReset) s1
  (s2.each (s2.instRings p id) State.resetRing).writeIcb p id (fun i => { i with resetReq := true }) [0]

/-- INSTANCE_RESET_FORCE of an instance that exists and has not failed. -/
def State.forceIfLive (s : State) (p id : Nat) : State :=
  if (s.policy.instAt p id).isNone ∨ (s.instRun p id).state = .failed then s else s.forceReset p id

/-- An instance enters FAILED (R266, Table 12.7), and its data-mover work ends as in RESETTING. -/
def State.failInst (s : State) (p id cause : Nat) : State :=
  if (s.policy.instAt p id).isNone ∨ (s.instRun p id).state = .failed then s
  else (s.setInst p id .failed cause).each (s.instRings p id) State.resetRing

/-! ### Virtual hierarchies -/

/-- The functions of a VH by number in `Partitions.config`: 0 upstream, 1 management, 2 + k the vDSPs, 34 + k the instance functions. -/
def fnKey (v n : Nat) : Nat := 128 * v + n
/-- An emulated function returns to its defaults. -/
def State.resetFn (s : State) (v n : Nat) : State := s.modParts fun x => { x with config := Tab.put [] x.config (fnKey v n) [] }

/-- The VH of an upstream port. -/
def State.vhOf (s : State) (p : Nat) : Option Nat :=
  ((s.policy.vh.filter fun e => match e.2 with | some r => decide (r.port = p) | none => false).map Prod.fst).head?

/-- What a reset below a vDSP does to its target (R251): the GEID of a target to which no reset is signalled. -/
def State.resetTarget (s : State) (v k : Nat) : State × List Geid :=
  match Tab.get none s.policy.bind (32 * v + k) with
  | none => (s, [])
  | some (.inst g id) =>
    match s.geidPort g with
    | some p => (s.forceIfLive p id.toNat, [])
    | none => (s, [])
  | some (.endpoint g) =>
    match s.geidPort g with
    | some p =>
      if (s.port p).pcie ∧ (s.port p).upstream = false then (s.modPort p fun x => { x with hotReset := true }, [])
      else (s, [g])
    | none => (s, [g])

/-- EV_VH_RESET: the VH, and the targets to which no reset is signalled, five to an event (log entry 33). -/
def State.evVhReset (s : State) (v : Nat) (l : List Geid) : State :=
  let own := match Tab.get none s.policy.vh v with | some r => [s.portOwner r.port] | none => []
  (List.range (max 1 (ceilDiv l.length 5))).foldl (fun t i =>
    let part := (l.drop (5 * i)).take 5
    t.raise 0x0701 ([(v, 1), (part.length, 2)] ++ part.map fun g => (g.toNat, 3)) own) s

/-- A virtual-hierarchy reset (R251, R464). -/
def State.vhReset (s : State) (v : Nat) : State :=
  match Tab.get none s.policy.vh v with
  | none => s
  | some r =>
    let s1 := s.each ((List.range 2) ++ (List.range r.vdsps).flatMap fun k => [2 + k, 34 + k]) fun t n => t.resetFn v n
    let (s2, l) := (List.range r.vdsps).foldl (fun (a : State × List Geid) k =>
      let (t, g) := a.1.resetTarget v k
      (t, a.2 ++ g)) (s1, [])
    s2.evVhReset v l

/-- The port of a shared endpoint comes up after a wake: Efnuquin writes RESET_REQ of its instances that wait for it (R479). -/
def State.resetWoken (s : State) (p : Nat) : State :=
  s.each ((s.parts.insts.filter fun e => decide (e.1 / 256 = p) && decide (e.2.state = .resetting) && !e.2.icb.resetReq && !e.2.reqCleared && !e.2.gone).map
    fun e => e.1 % 256) fun t id => t.writeIcb p id (fun i => { i with resetReq := true }) [0]

/-! ### A port goes down -/

/-- Change fabric time. -/
def State.modTime (s : State) (f : FabricTime → FabricTime) : State := s.modFab fun x => { x with time := f x.time }

/-- Put fabric time into a state: each change raises EV_TIME_STATE (R163). -/
def State.setTimeState (s : State) (g : TimeState) : State :=
  if s.fabric.time.state = g then s else (s.modTime fun t => { t with state := g }).raise 0x0405 [(g.code, 1)] []

/-- The link to the time source is lost: fabric time holds over (R163). What the port's neighbour said of its grandmaster no longer counts. -/
def State.loseTime (s : State) (p : Nat) : State :=
  let s1 := s.modTime fun t => { t with offers := Tab.put none t.offers p none }
  if s.fabric.time.source = some p then (s1.modTime fun t => { t with source := none, slew := 0 }).setTimeState .holdover else s1

/-- The descriptors whose frames a port carried show PORT_EVENT (Table 8.4). -/
def State.markPortEvent (s : State) (p : Nat) : State :=
  s.each (s.ringsWith fun r => r.descs.any fun d => d.ports.contains p) fun t id =>
    t.modMover id fun r => { r with descs := r.descs.map fun d => if d.ports.contains p then { d with portEvent := true } else d }

/-- A port goes to a stage with all that a link down brings: link-layer work (R119), PORT_EVENT marks, and the VH reset of an upstream port (R464). -/
def State.goDown (s : State) (p : Nat) (g : Stage) (reason fail : BitVec 8) : State :=
  let was := (s.port p).reached
  let s1 := s.leaveTo p g reason fail
  if was then
    let s2 := (s1.markPortEvent p).loseTime p
    let s3 := match s2.vhOf p with
      | some v => if (s2.port p).pcie then s2.vhReset v else s2
      | none => s2
    s3.checkLapses
  else s1

/-- An attempt ends in DETECT, with all that a link down brings. -/
def State.attemptDown (s : State) (p : Nat) (fail : BitVec 8) : State :=
  let was := (s.port p).reached
  let s1 := s.attemptFail p fail
  if was then ((s1.markPortEvent p).loseTime p).checkLapses else s1

/-- A port goes to DISABLED whatever its stage; one already there stays (R66). -/
def State.disable (s : State) (p : Nat) (reason : BitVec 8) : State :=
  if (s.port p).stage = .disabled then s
  else (s.goDown p .disabled reason 0).modPort p fun x =>
    { x with partials := 0, waiting := false, retrain := false, clockLost := false, waking := false, loopback := 0 }

end Sys2Proof.Machine
end

