-- ==== Sys2Proof/Machine/PwOps.lean ====
section
/-!
DEFINITION. The Patchwork bridge: cycle records (Table 9.5), windows and byte lanes (R315 to R318), beats (R319), the outbound cycle store (R309 to R323), inbound writes and reads (R316, R325 to R330), prefetch buffers (R326, R327) and the end of a port's work (R332).
-/

namespace Sys2Proof.Machine

/-! ### Ports -/

/-- 0 for Patchwork A, 1 for Patchwork B. -/
def pwIdx : PwPort → Nat
  | .a => 0
  | .b => 1
/-- The Patchwork port that a command's PORT bit names. -/
def pwOf (b : Bool) : PwPort := if b then .b else .a
/-- The home PU of a Patchwork port (R21). -/
def State.pwHome (s : State) : PwPort → Nat
  | .a => s.mgmt.homeA
  | .b => s.mgmt.homeB
/-- The EGRESS code of a Patchwork port (Table 5.1). -/
def pwCode (x : PwPort) : Nat := 4 + pwIdx x
/-- The GEID of a Patchwork port (Table 4.1). -/
def State.pwGeid (s : State) (x : PwPort) : Geid := s.geid (1 + pwIdx x)
/-- The error source of a Patchwork port (Table 12.1). -/
def pwSource (x : PwPort) : BitVec 12 := BitVec.ofNat 12 (0x900 + pwIdx x)
/-- The fence unit of a Patchwork port (Table 12.7). -/
def pwUnit (x : PwPort) : UnitId := unitOf 8 (pwIdx x)
/-- Count at a Patchwork port. -/
def State.countPw (s : State) (x : PwPort) (f : PwCounters → PwCounters) : State := s.modPw x fun p => { p with counters := f p.counters }
/-- The port drives and watches its bus: it has a personality and its VDD_HB, no fence holds it, and the core die runs outside Intermission (R333, R424, R429, R496). -/
def State.pwLive (s : State) (x : PwPort) : Bool :=
  decide ((s.pw x).personality ≠ .disabled) && (s.pw x).vddHb && !(s.pw x).driving && !s.fenced (pwUnit x) && s.running && s.power.inter == .no
/-- A frame of the port enters the injection input of its home PU (R308). -/
def State.pwInject (s : State) (x : PwPort) (f : Frame) : State := s.inject (s.pwHome x) f

/-! ### Cycle records -/

/-- A cycle record (Table 9.5). -/
structure CycleRec where
  bus    : BitVec 2 := 0
  op     : BitVec 2 := 0
  space  : BitVec 2 := 0
  priv   : Bool := false
  block  : Bool := false
  beat   : BitVec 2 := 0
  rmwOp  : BitVec 3 := 0
  status : BitVec 4 := 0
  len    : BitVec 13 := 0
  addr   : BitVec 64 := 0
  data   : List Byte := []
  deriving DecidableEq, Repr

/-- The cycle record that a payload spells. -/
def CycleRec.ofBytes (l : List Byte) : CycleRec :=
  let v := natOf (l.take 16)
  { bus := fbv v 0 2, op := fbv v 2 2, space := fbv v 4 2, priv := bitOf v 6, block := bitOf v 7, beat := fbv v 8 2, rmwOp := fbv v 10 3,
    status := fbv v 16 4, len := fbv v 32 13, addr := fbv v 64 64, data := l.drop 16 }

/-- The bytes of a cycle record. -/
def CycleRec.bytes (r : CycleRec) : List Byte :=
  bytesOf 16 (packBits [(r.bus.toNat, 2), (r.op.toNat, 2), (r.space.toNat, 2), (b2n r.priv, 1), (b2n r.block, 1), (r.beat.toNat, 2),
    (r.rmwOp.toNat, 3), (0, 3), (r.status.toNat, 4), (0, 12), (r.len.toNat, 13), (0, 19), (r.addr.toNat, 64)]) ++ r.data

/-- STATUS of a RESPONSE for a completion status (Table 9.6). -/
def busStatusCode : BusStatus → BitVec 4
  | .ok => 0
  | .busError => 1
  | .noResponse => 2
  | .parity => 3

/-- BUS of a personality (Table 9.5). -/
def busCode : Personality → BitVec 2
  | .pci => 1
  | _ => 0

/-! ### Windows and byte lanes -/

/-- The unit of a lane rule in bytes: 1 for ADDRESS_INVARIANT (R317). -/
def laneUnit (l : BitVec 2) : Nat := 2 ^ l.toNat
/-- The lane rule m(o) of R317; it is its own inverse. -/
def laneMap (l : BitVec 2) (o : Nat) : Nat :=
  let u := laneUnit l
  o - o % u + (u - 1 - o % u)
/-- SIZE of a window in bytes. -/
def PwWindow.size (w : PwWindow) : Nat := 2 ^ w.sizeLog2.toNat
/-- A window of a port. -/
def Patchwork.window (p : Patchwork) (n : Nat) : PwWindow := Tab.get {} p.windows n
/-- The bus-side base of an inbound window: that of its BAR where it is tied to one in the PCI device role (R316). -/
def Patchwork.inBase (p : Patchwork) (w : PwWindow) : Nat :=
  if w.bar = 0 then w.base.toNat
  else (nth 0 p.bars (w.bar.toNat - 1)).toNat / w.size * w.size
/-- An inbound window may claim cycles: a window tied to a BAR needs Memory Space Enable (R316). -/
def Patchwork.inEnabled (p : Patchwork) (w : PwWindow) : Bool :=
  w.valid && w.dirIn && (decide (w.bar = 0) || (p.memEnable && decide (p.personality = .pci ∧ p.hostBridge = false)))

/-- The outbound window that decides for the bytes [a, a + n) (R315). -/
def Patchwork.outMatch (p : Patchwork) (a n : Nat) : Option (Nat × PwWindow) :=
  p.windows.findSome? fun e =>
    if e.2.valid ∧ e.2.dirIn = false ∧ e.2.base.toNat ≤ a ∧ a + n ≤ e.2.base.toNat + e.2.size then some e else none

/-- The kind of access that a VMEbus address modifier names for a SPACE and privilege (Table 9.7): 1 single, 2 BLT, 3 MBLT. -/
def amKind (space : BitVec 2) (priv : Bool) (am : BitVec 6) : Option Nat :=
  let b : Nat :=
    match space.toNat, priv with
    | 2, true => 0x0D
    | 2, false => 0x09
    | 1, true => 0x3D
    | 1, false => 0x39
    | 0, true => 0x2D
    | _, _ => 0x29
  if space = 3 then none
  else if am.toNat = b then some 1
  else if space = 0 then none
  else if am.toNat = b + 1 then some 1
  else if am.toNat = b + 2 then some 2
  else if am.toNat + 1 = b then some 3
  else none

/-- An inbound window claims a bus cycle (R316). -/
def Patchwork.claims (p : Patchwork) (w : PwWindow) (c : BusCycle) : Bool :=
  p.inEnabled w && decide (p.inBase w ≤ c.addr.toNat ∧ c.addr.toNat + c.len ≤ p.inBase w + w.size) &&
    (match p.personality with
     | .vme =>
       match amKind w.space w.priv c.am with
       | some 1 => true
       | some 2 => decide (1 ≤ w.block.toNat)
       | some _ => decide (w.block = 2)
       | none => false
     | .pci => decide (c.space = 0)
     | .disabled => false)

/-- The inbound window that decides for a cycle. -/
def Patchwork.inMatch (p : Patchwork) (c : BusCycle) : Option (Nat × PwWindow) :=
  p.windows.findSome? fun e => if p.claims e.2 c then some e else none

/-! ### Beats -/

/-- Bus offset `b` holds a byte of the access to fabric offsets [off, off + len). -/
def mapped (w : PwWindow) (off len b : Nat) : Bool := decide (off ≤ laneMap w.lanes b ∧ laneMap w.lanes b < off + len)

/-- The widest aligned beat at bus offset `b`, in log2 bytes, no wider than 2^k, that covers only mapped bytes (R319). -/
def beatAt (w : PwWindow) (off len b : Nat) : Nat → Nat
  | 0 => 0
  | k + 1 =>
    if (w.xlate.toNat + b) % 2 ^ (k + 1) = 0 ∧ ((List.range (2 ^ (k + 1))).all fun i => mapped w off len (b + i)) then k + 1
    else beatAt w off len b k

/-- The beats of an access in increasing bus address, as offsets in the window. -/
def beatsFrom (w : PwWindow) (off len width : Nat) : Nat → Nat → List Beat
  | 0, _ => []
  | n + 1, b =>
    if mapped w off len b then
      let l := 2 ^ beatAt w off len b width
      ⟨b, l⟩ :: beatsFrom w off len width n (b + l)
    else beatsFrom w off len width n (b + 1)

/-- The beats of an access. -/
def beatsOf (w : PwWindow) (off len width : Nat) : List Beat :=
  beatsFrom w off len width (len + 16) (off - off % laneUnit w.lanes)

/-- Two beats belong to one block transfer (R319). -/
def sameBlock (p : Personality) (w : PwWindow) (a b : Beat) : Bool :=
  decide (a.addr + a.len = b.addr ∧ a.len = b.len) &&
    (match p with
     | .vme =>
       let lim := if a.len = 8 then 2048 else 256
       decide ((w.xlate.toNat + a.addr) / lim = (w.xlate.toNat + b.addr) / lim) && (decide (a.len < 8) || decide (w.block = 2))
     | _ => true)

/-- The beats of the next bus cycle, and those after it. -/
def nextCycle (p : Personality) (w : PwWindow) (block : Bool) : List Beat → List Beat × List Beat
  | [] => ([], [])
  | b :: r =>
    match nextCycle p w block r with
    | ([], rest) => ([b], rest)
    | (c :: cs, rest) => if block ∧ sameBlock p w b c then (b :: c :: cs, rest) else ([b], (c :: cs) ++ rest)

/-- Bytes of a list of beats. -/
def beatBytes (l : List Beat) : Nat := (l.map fun b => b.len).sum

/-- Drop the beats that cover the first `n` bytes. -/
def dropBeats : Nat → List Beat → List Beat
  | _, [] => []
  | 0, l => l
  | n + 1, b :: r => if b.len ≤ n + 1 then dropBeats (n + 1 - b.len) r else b :: r

/-! ### Records of the cycle store -/

/-- What a frame asks of a bus (R310, R313): operation, bytes, data, block permission and widest beat; `none` where the port does not support it. -/
def Patchwork.asks (p : Patchwork) (f : Frame) : Option PwRecord :=
  let h := f.hdr
  let r0 : PwRecord := { frame := f, born := 0, op := .read, window := 0, off := 0, len := 0, data := [], beat := 3, block := true }
  if h.type = tyMemRead then some { r0 with len := h.reqLen }
  else if h.type = tyMemWrite then some { r0 with op := .write, len := h.length.toNat, data := f.payload }
  else if h.type = tyAtomic then
    (if p.personality = .vme then
      some { r0 with op := .rmw (h.subtype.setWidth 3), len := h.length.toNat, data := f.payload }
     else none)
  else if h.type = tyHeritage ∧ h.kind ≠ .completion then
    let c := CycleRec.ofBytes f.payload
    let same := decide (c.bus = busCode p.personality)
    let r1 := { r0 with tunnel := true, len := c.len.toNat, data := c.data, beat := if same then c.beat.toNat else 3, block := if same then c.block else true }
    if c.op = 0 ∧ h.kind = .nonPosted then some r1
    else if c.op = 1 ∧ h.kind = .posted then some { r1 with op := .write }
    else if c.op = 2 ∧ h.kind = .nonPosted ∧ p.personality = .vme ∧ c.rmwOp.toNat ∈ [1, 2, 3] then some { r1 with op := .rmw c.rmwOp }
    else none
  else none

/-- The bytes of the value of a read-modify-write: CAS carries two operands (Table 4.3, R323). -/
def PwRecord.value (r : PwRecord) : Nat :=
  match r.op with
  | .rmw 3 => r.len / 2
  | _ => r.len

/-- The window carries a read-modify-write in one beat of at most 4 bytes (R323). -/
def PwRecord.fits (r : PwRecord) (w : PwWindow) : Bool :=
  match r.op with
  | .rmw _ => decide ((beatsOf w r.off r.value (min w.width.toNat r.beat)).length = 1 ∧ r.value ≤ 4 ∧ 1 ≤ r.value)
  | _ => true

/-- Find the outbound window of a record (R315). -/
def Patchwork.place (p : Patchwork) (r : PwRecord) : Option (PwRecord × PwWindow) :=
  (p.outMatch r.frame.hdr.addr.toNat r.len).map fun e =>
    ({ r with window := e.1, off := r.frame.hdr.addr.toNat - e.2.base.toNat }, e.2)

/-- The record is non-posted. -/
def PwRecord.nonPosted (r : PwRecord) : Bool := decide (r.op ≠ .write)

/-- Answer a non-posted request to the port: a completion, or for a tunnel request a RESPONSE (R312). `bs` is the STATUS of Table 9.6, and a RESPONSE with another than OK travels with HERITAGE_BUS_ERROR. -/
def State.pwAnswer (s : State) (x : PwPort) (r : PwRecord) (st : BitVec 4) (bs : BitVec 4) (data : List Byte) : State :=
  let h := r.frame.hdr
  if r.tunnel then
    let c := CycleRec.ofBytes r.frame.payload
    let resp : CycleRec := { c with op := 3, rmwOp := 0, status := bs, len := BitVec.ofNat 13 data.length, data := data, beat := c.beat }
    s.pwInject x
      { hdr := { dst := h.src, src := h.dst, type := tyHeritage, subtype := 2, cls := h.cls, tag := h.tag, part := h.part,
                 status := if bs = 0 then csSuccess else csHeritage, length := BitVec.ofNat 13 resp.bytes.length }
        payload := resp.bytes }
  else s.pwInject x (replyFrame h st data)

/-- A posted write of the port is lost (R321, R332). -/
def State.writeLost (s : State) (x : PwPort) (w : Nat) : State :=
  (s.countPw x fun c => { c with outWriteErr := inc48 c.outWriteErr }).report (pwSource x) 0x01 (BitVec.ofNat 64 w)

/-- A record gives its transaction entry back. -/
def State.freeEntry (s : State) (x : PwPort) (r : PwRecord) : State :=
  match r.entry with
  | none => s
  | some e => s.modPw x fun p => { p with outEntries := p.outEntries.filter fun n => decide (n ≠ e) }

/-- The lowest transaction entry not in use (R325). -/
def Patchwork.freeSlot (p : Patchwork) : Option Nat :=
  (List.range 256).find? fun n => !p.outEntries.contains n && (Tab.get none p.entries n).isNone

/-- End a record of the cycle store without success: a completion status, or a lost write (R321, R332). -/
def State.failRecord (s : State) (x : PwPort) (r : PwRecord) (st bs : BitVec 4) : State :=
  let s1 := s.freeEntry x r
  if r.nonPosted then s1.pwAnswer x r st bs [] else s1.writeLost x r.window

/-! ### Prefetch buffers -/

/-- Discard the prefetch buffers that satisfy a test; one with bytes never delivered is counted (R327). -/
def State.dropPrefetch (s : State) (x : PwPort) (t : PwPrefetch → Bool) : State :=
  let n := ((s.pw x).prefetch.filter fun b => t b && !b.fresh.isEmpty).length
  s.modPw x fun p =>
    { p with prefetch := p.prefetch.filter fun b => !t b, counters := { p.counters with prefetchDiscard := satAdd p.counters.prefetchDiscard n } }

/-- Fill a prefetch buffer; outbound data takes one of 16, the least recently used first (R326). -/
def State.addPrefetch (s : State) (x : PwPort) (b : PwPrefetch) : State :=
  let out := (s.pw x).prefetch.filter fun y => !y.inbound
  let s1 := if b.inbound = false ∧ 16 ≤ out.length then
      match out with
      | o :: _ => s.dropPrefetch x fun y => decide (y = o)
      | [] => s
    else s
  s1.modPw x fun p =>
    { p with prefetch := p.prefetch ++ [b], counters := { p.counters with prefetchBytes := satAdd p.counters.prefetchBytes b.data.length } }

/-- A buffer holds every byte of [a, a + n). -/
def PwPrefetch.holds (b : PwPrefetch) (a n : Nat) : Bool := decide (b.addr ≤ a ∧ a + n ≤ b.addr + b.data.length)

/-- Deliver bytes from a buffer, which becomes the most recently used. -/
def State.usePrefetch (s : State) (x : PwPort) (b : PwPrefetch) (a n : Nat) : State :=
  s.modPw x fun p =>
    { p with prefetch := (p.prefetch.filter fun y => decide (y ≠ b)) ++
        [{ b with fresh := b.fresh.filter fun o => decide (o < a - b.addr ∨ a - b.addr + n ≤ o) }] }

/-- A write cycle on the bus discards the buffers whose range it overlaps (R327). -/
def State.busWrite (s : State) (x : PwPort) (space : BitVec 2) (a n : Nat) : State :=
  s.dropPrefetch x fun b =>
    decide (((s.pw x).window b.window).space = space ∧ a < b.busAddr + b.data.length ∧ b.busAddr < a + n)

/-- Bytes that prefetch adds to a read ending at offset `e` of a window, at target-side address `t` (R326). -/
def PwWindow.extra (w : PwWindow) (e t : Nat) : Nat :=
  min (64 * w.prefetch.toNat) (min (w.size - e) ((4096 - t % 4096) % 4096))

/-! ### Running the cycle store -/

/-- A record leaves the cycle store for the bus (R319). -/
def State.startRecord (s : State) (x : PwPort) (r : PwRecord) (w : PwWindow) : State :=
  let width := min w.width.toNat r.beat
  let ext := if r.op = .read then w.extra (r.off + r.len) (w.xlate.toNat + r.off + r.len) else 0
  let r1 := { r with extra := ext }
  s.modPw x fun p =>
    { p with sequence := some { record := r1, win := w, beats := beatsOf w r.off (r.value + ext) width }, crossed := false }

/-- Run the head record of the cycle store, if the port may (R322). -/
def State.runHead (s : State) (x : PwPort) : State :=
  let p := s.pw x
  if s.pwLive x = false ∨ p.sequence.isSome then s
  else
    match p.store with
    | [] => s
    | r0 :: rest =>
      let s1 := s.modPw x fun p => { p with store := rest }
      if decide (s.lifetimeNs ≤ s.now - r0.born) then (s1.freeEntry x r0).endHere r0.frame (s.pwHome x) .lifetime
      else if r0.frame.hdr.poison ∧ r0.op ≠ .read then s1.failRecord x r0 csPoisoned (busStatusCode .parity)
      else
        match p.place r0 with
        | none =>
          ((s1.freeEntry x r0).countPw x fun c => { c with outMiss := inc48 c.outMiss }).endHere r0.frame (s.pwHome x) .windowMiss
        | some (r1, w) =>
          let hit := p.prefetch.filter fun b =>
            !b.inbound && decide (b.src = r1.frame.hdr.src ∧ b.partition = r1.frame.hdr.part) && b.holds r1.frame.hdr.addr.toNat r1.len
          match r1.op, hit with
          | .read, b :: _ =>
            let a := r1.frame.hdr.addr.toNat
            (((s1.freeEntry x r1).usePrefetch x b a r1.len).countPw x fun c => { c with outReads := inc48 c.outReads }).pwAnswer x r1 csSuccess 0
              ((b.data.drop (a - b.addr)).take r1.len)
          | _, _ =>
          if r1.nonPosted ∧ r1.entry.isNone then
            match p.freeSlot with
            | none => s
            | some e => (s1.modPw x fun p => { p with outEntries := e :: p.outEntries }).startRecord x { r1 with entry := some e } w
          else s1.startRecord x r1 w

/-- The bytes of an access in fabric order, from the bytes read on the bus. -/
def PwSeq.fabricBytes (q : PwSeq) (off n : Nat) : List Byte :=
  (List.range n).map fun i => Tab.get 0 q.got (laneMap q.win.lanes (off + i))

/-- A sequence has run to its end: the request is answered and extra bytes go to a prefetch buffer (R321, R326). -/
def State.finishSeq (s : State) (x : PwPort) (q : PwSeq) : State :=
  let r := q.record
  let s1 := (s.freeEntry x r).modPw x fun p => { p with sequence := none }
  match r.op with
  | .write => s1.countPw x fun c => { c with outWrites := inc48 c.outWrites }
  | .rmw _ => (s1.countPw x fun c => { c with outRmw := inc48 c.outRmw }).pwAnswer x r csSuccess 0 (q.fabricBytes r.off r.value)
  | .read =>
    let s2 := (s1.countPw x fun c => { c with outReads := inc48 c.outReads }).pwAnswer x r csSuccess 0 (q.fabricBytes r.off r.len)
    if r.extra = 0 then s2
    else
      s2.addPrefetch x
        { window := r.window, src := r.frame.hdr.src, partition := r.frame.hdr.part, addr := r.frame.hdr.addr.toNat + r.len,
          busAddr := q.win.xlate.toNat + r.off + r.len, data := q.fabricBytes (r.off + r.len) r.extra, fresh := List.range r.extra }

/-- A bus cycle of the port's sequence ends (R321). A PCI cycle that the target disconnected carries as many bytes as were transferred. -/
def State.endCycle (s : State) (x : PwPort) (st : BusStatus) (data : List Byte) : State :=
  match (s.pw x).sequence with
  | none => s
  | some q =>
    let r := q.record
    match st with
    | .ok =>
      let cyc := (nextCycle (s.pw x).personality q.win r.block q.beats).1
      let n := if r.op = .write ∧ data = [] then beatBytes cyc else min data.length (beatBytes cyc)
      let rest := dropBeats n q.beats
      let start := match cyc with | b :: _ => b.addr | [] => 0
      let got := if r.op = .write then q.got else cellsWrite q.got start (data.take n)
      let q1 := { q with beats := rest, got := got, cycles := q.cycles + 1 }
      let s1 := if 0 < q.cycles then s.countPw x fun c => { c with splitCycles := inc48 c.splitCycles } else s
      let s2 := if r.op = .read then s1 else s1.busWrite x q.win.space (q.win.xlate.toNat + start) n
      if rest = [] then s2.finishSeq x q1 else s2.modPw x fun p => { p with sequence := some q1 }
    | _ =>
      let s1 := (s.modPw x fun p => { p with sequence := none }).countPw x fun c => { c with busErr := inc48 c.busErr }
      let s2 := if st = .parity then s1.report (pwSource x) 0x02 (BitVec.ofNat 64 r.window) else s1
      s2.failRecord x r (if st = .parity then csPoisoned else csHeritage) (busStatusCode st)

/-! ### Inbound cycles -/

/-- The address, on the fabric side, of a window offset (R316). -/
def PwWindow.fabricAddr (w : PwWindow) (o : Nat) : BitVec 64 := w.xlate + BitVec.ofNat 64 o

/-- Split the fabric offsets [o, o + n) of a write into runs of mapped bytes that do not cross a 4 KiB boundary (R318, R329); each run is its first offset and its bytes in order. -/
def fabricRuns (w : PwWindow) (off : Nat) (data : List Byte) : Nat → Nat → List (Nat × List Byte)
  | 0, _ => []
  | n + 1, o =>
    let b := laneMap w.lanes o
    let rest := fabricRuns w off data n (o + 1)
    if off ≤ b ∧ b < off + data.length then
      match rest with
      | (o2, l) :: r => if o2 = o + 1 ∧ (w.fabricAddr o2).toNat % 4096 ≠ 0 then (o, nth 0 data (b - off) :: l) :: r else (o, [nth 0 data (b - off)]) :: rest
      | [] => [(o, [nth 0 data (b - off)])]
    else rest

/-- The frames of an inbound write: MEM_WRITEs, or one cycle record in a tunnel window (R316, R329). -/
def State.writeFrames (s : State) (x : PwPort) (i : PwInbound) : List Frame :=
  let w := i.win
  let p := s.pw x
  if w.tunnel then
    let rec_ : CycleRec :=
      { bus := busCode p.personality, op := 1, space := i.cycle.space, priv := w.priv, block := i.cycle.block, beat := i.cycle.beat,
        len := BitVec.ofNat 13 i.data.length, addr := BitVec.ofNat 64 (i.base + i.off), data := i.data }
    [{ hdr := { dst := w.target, src := s.pwGeid x, type := tyHeritage, subtype := 0, cls := w.cls, poison := i.poison, part := s.pwOwner x,
                inst := w.inst, length := BitVec.ofNat 13 rec_.bytes.length, addr := w.fabricAddr i.off }
       payload := rec_.bytes }]
  else
    let u := laneUnit w.lanes
    (fabricRuns w i.off i.data (i.data.length + 2 * u) (i.off - i.off % u)).map fun e =>
      { hdr := { dst := w.target, src := s.pwGeid x, type := tyMemWrite, cls := w.cls, poison := i.poison, part := s.pwOwner x, inst := w.inst,
                 length := BitVec.ofNat 13 e.2.length, addr := w.fabricAddr e.1 }
        payload := e.2 }

/-- The block write that is being merged goes to the fabric (R329). -/
def State.closeWrite (s : State) (x : PwPort) : State :=
  match (s.pw x).openWrite with
  | none => s
  | some i => (s.writeFrames x i).foldl (fun t f => t.pwInject x f) (s.modPw x fun p => { p with openWrite := none })

/-- Cells in the inbound buffer (R309): posted writes and tunnel frames of the port whose cells the injection input has not taken, and the block write being merged. -/
def State.inboundCells (s : State) (x : PwPort) : Nat :=
  (s.car.frames.map fun e => match e.2 with
    | some r => if r.src = 256 + s.pwHome x ∧ r.frame.hdr.src = s.pwGeid x ∧ (r.frame.hdr.type = tyMemWrite ∨ r.frame.hdr.type = tyHeritage)
        then r.blocksIn - r.sent else 0
    | none => 0).sum + (match (s.pw x).openWrite with | some i => blocksFor i.data.length | none => 0)

/-- The port answers the cycle that a master has started on its bus. -/
def State.answerBus (s : State) (x : PwPort) (a : BusAnswer) : State := s.modPw x fun p => { p with answer := a }

/-- The master must wait: DTACK* withheld on VMEbus, Retry on PCI. -/
def waitAnswer (p : Personality) : BusAnswer := if p = .pci then .retry else .held

/-- The offset of a cycle in its window on the bus side. -/
def Patchwork.inOff (p : Patchwork) (w : PwWindow) (c : BusCycle) : Nat := c.addr.toNat - p.inBase w

/-- An inbound write that a window has claimed (R329). -/
def State.claimWrite (s : State) (x : PwPort) (n : Nat) (w : PwWindow) (c : BusCycle) : State :=
  let p := s.pw x
  let off := p.inOff w c
  if 256 < s.inboundCells x + blocksFor c.len then s.answerBus x (waitAnswer p.personality)
  else
    let bad := c.badParity && decide (p.personality = .pci)
    let s0 := if bad then s.report (pwSource x) 0x02 (BitVec.ofNat 64 n) else s
    let s1 := ((s0.countPw x fun k => { k with inWrites := inc48 k.inWrites }).busWrite x w.space c.addr.toNat c.len).answerBus x .acknowledged
    let i0 : PwInbound := { window := n, win := w, base := p.inBase w, cycle := c, off := off, data := c.data, poison := bad }
    match p.openWrite with
    | some i =>
      if c.continued ∧ i.window = n ∧ i.win = w ∧ i.off + i.data.length = off ∧ i.data.length + c.len ≤ 4096 ∧
          (w.fabricAddr off).toNat % 4096 ≠ 0 then
        s1.modPw x fun p => { p with openWrite := some { i with data := i.data ++ c.data, poison := i.poison || bad } }
      else
        let s2 := (s1.closeWrite x).modPw x fun p => { p with openWrite := some i0 }
        if c.block then s2 else s2.closeWrite x
    | none =>
      let s2 := s1.modPw x fun p => { p with openWrite := some i0 }
      if c.block then s2 else s2.closeWrite x

/-- The first fabric offset of an aligned cycle, and its bytes in bus order from fabric bytes at that offset. -/
def inStart (w : PwWindow) (off len : Nat) : Nat := if len ≤ laneUnit w.lanes then laneMap w.lanes (off + len - 1) else off

/-- Bus bytes of a cycle from fabric bytes that start at offset `fo`. -/
def busBytes (w : PwWindow) (off len fo : Nat) (data : List Byte) : List Byte :=
  (List.range len).map fun i => nth 0 data (laneMap w.lanes (off + i) - fo)

/-- Issue the fabric read of an inbound cycle (R325, R326). -/
def State.issueRead (s : State) (x : PwPort) (n : Nat) (w : PwWindow) (c : BusCycle) : State :=
  let p := s.pw x
  let off := p.inOff w c
  match p.freeSlot with
  | none => (s.countPw x fun k => { k with entryWaits := inc48 k.entryWaits }).answerBus x (waitAnswer p.personality)
  | some e =>
    let fo := if w.tunnel then off else inStart w off c.len
    let total := c.len + w.extra (off + c.len) ((w.fabricAddr fo).toNat + c.len)
    let rec_ : CycleRec :=
      { bus := busCode p.personality, op := 0, space := c.space, priv := w.priv, block := c.block, beat := c.beat, len := BitVec.ofNat 13 total, addr := c.addr }
    let h : Hdr :=
      { dst := w.target, src := s.pwGeid x, type := if w.tunnel then tyHeritage else tyMemRead, subtype := if w.tunnel then 1 else 0,
        cls := w.cls, tag := BitVec.ofNat 12 e, part := s.pwOwner x, inst := w.inst, addr := w.fabricAddr fo,
        length := if w.tunnel then 16 else 0, tw := if w.tunnel then 0 else BitVec.ofNat 64 total }
    let s1 := (s.closeWrite x).takeTag h total none
    let s2 := s1.modPw x fun p =>
      { p with entries := Tab.put none p.entries e (some
          { cycle := c, window := n, state := if p.personality = .pci then .delayed else .held, left := total, total := total }) }
    ((s2.countPw x fun k => { k with inReads := inc48 k.inReads }).pwInject x
      { hdr := h, payload := if w.tunnel then rec_.bytes else [] }).answerBus x (waitAnswer p.personality)

/-- The read is a delayed transaction whose request or data the port keeps. -/
def InboundState.kept : InboundState → Bool
  | .delayed => true
  | .ready _ => true
  | _ => false

/-- The entry of a PCI delayed transaction for a cycle: the same address, command and byte enables (R325). -/
def Patchwork.delayedFor (p : Patchwork) (c : BusCycle) : Option (Nat × PwEntry) :=
  p.entries.findSome? fun e =>
    match e.2 with
    | some y => if y.cycle.addr = c.addr ∧ y.cycle.len = c.len ∧ y.cycle.space = c.space ∧ y.state.kept then some (e.1, y) else none
    | none => none

/-- Give an entry of an inbound read back. -/
def State.dropEntry (s : State) (x : PwPort) (e : Nat) : State := s.modPw x fun p => { p with entries := Tab.put none p.entries e none }

/-- An inbound read that a window has claimed: a repeat of a delayed read, data of a prefetch buffer, or a new fabric read (R325, R326). -/
def State.claimRead (s : State) (x : PwPort) (n : Nat) (w : PwWindow) (c : BusCycle) : State :=
  let p := s.pw x
  let off := p.inOff w c
  match p.delayedFor c with
  | some (e, y) =>
    (match y.state with
     | .ready false => (s.dropEntry x e).answerBus x (.data y.data)
     | .ready true => ((s.dropEntry x e).countPw x fun k => { k with inAbort := inc48 k.inAbort }).answerBus x .busError
     | _ => s.answerBus x .retry)
  | none =>
    let s0 := if c.continued then s else s.dropPrefetch x (·.inbound)
    let fo := if w.tunnel then off else inStart w off c.len
    match (s0.pw x).prefetch.filter fun b => b.inbound && decide (b.window = n) && b.holds fo c.len with
    | b :: _ =>
      ((s0.usePrefetch x b fo c.len).countPw x fun k => { k with inReads := inc48 k.inReads }).answerBus x
        (.data (if w.tunnel then (b.data.drop (fo - b.addr)).take c.len else busBytes w off c.len fo (b.data.drop (fo - b.addr))))
    | [] => s0.issueRead x n w c

/-- An inbound VMEbus RMW: a read, then a posted write (R324). -/
def State.claimRmw (s : State) (x : PwPort) (n : Nat) (w : PwWindow) (c : BusCycle) : State :=
  match (s.pw x).freeSlot with
  | none => (s.countPw x fun k => { k with entryWaits := inc48 k.entryWaits }).answerBus x .held
  | some _ =>
    if 256 < s.inboundCells x + blocksFor c.len then s.answerBus x .held
    else
      let i : PwInbound := { window := n, win := w, base := (s.pw x).inBase w, cycle := c, off := (s.pw x).inOff w c, data := c.data }
      let s1 := (s.issueRead x n w { c with data := [] }).countPw x fun k => { k with inWrites := inc48 k.inWrites }
      (s.writeFrames x i).foldl (fun t f => t.pwInject x f) (s1.busWrite x w.space c.addr.toNat c.len)

/-- A bus cycle of another master: the window that claims it acts; one that no window claims is not answered (R316). A cycle that is not part of the burst in progress ends that burst (R327, R329). -/
def State.claimCycle (s : State) (x : PwPort) (c : BusCycle) (act : State → Nat → PwWindow → State) : State :=
  if s.pwLive x = false then s
  else
    let s0 := if c.continued then s else (s.closeWrite x).dropPrefetch x (·.inbound)
    match (s0.pw x).inMatch c with
    | none => s0.answerBus x .none_
    | some (n, w) => act s0 n w

/-! ### Completions of inbound reads -/

/-- Data or an error for an inbound read of the port has arrived whole (R325). -/
def State.endInbound (s : State) (x : PwPort) (e : Nat) (y : PwEntry) (ok : Bool) : State :=
  let w := (s.pw x).window y.window
  match y.state with
  | .dropped yielded =>
    let s1 := s.dropEntry x e
    if yielded then s1.countPw x fun k => { k with yieldDiscard := inc48 k.yieldDiscard } else s1
  | st =>
    let off := (s.pw x).inOff w y.cycle
    let fo := if w.tunnel then off else inStart w off y.cycle.len
    let bytes := if w.tunnel then y.data.take y.cycle.len else busBytes w off y.cycle.len fo y.data
    let s1 := if ok ∧ y.cycle.len < y.data.length then
        s.addPrefetch x
          { window := y.window, src := 0, partition := 0, addr := fo + y.cycle.len, busAddr := y.cycle.addr.toNat + y.cycle.len,
            data := y.data.drop y.cycle.len, fresh := List.range (y.data.length - y.cycle.len), inbound := true }
      else s
    let s2 := s1.modPw x fun p => { p with crossed := false }
    match st with
    | .held =>
      if ok then (s2.dropEntry x e).answerBus x (.data bytes)
      else ((s2.dropEntry x e).countPw x fun k => { k with inAbort := inc48 k.inAbort }).answerBus x .busError
    | _ => s2.modPw x fun p =>
        { p with entries := Tab.put none p.entries e (some { y with data := bytes, state := .ready (!ok) }) }

/-- A completion or RESPONSE at the port (R138, R312, R325). -/
def State.pwCompletion (s : State) (x : PwPort) (f : Frame) : State :=
  let h := f.hdr
  let unexpected := s.countFab (s.pwHome x) fun c => { c with unexpectedCpl := inc48 c.unexpectedCpl }
  match s.tagUse (s.pwGeid x) h.tag, Tab.get none (s.pw x).entries h.tag.toNat with
  | some u, some y =>
    if u.dst ≠ h.src then unexpected
    else
      let data := if h.type = tyHeritage then (CycleRec.ofBytes f.payload).data else f.payload
      let ok := decide (h.status = csSuccess ∧ h.poison = false)
      let y1 := { y with data := y.data ++ data, left := y.left - data.length }
      if ok ∧ h.type = tyCompletion ∧ h.reqLen ≠ h.length.toNat then
        s.modPw x fun p => { p with entries := Tab.put none p.entries h.tag.toNat (some y1) }
      else (s.setTag (s.pwGeid x) h.tag none).endInbound x h.tag.toNat y1 ok
  | _, _ => unexpected

/-- A frame that the port does not support (Table 9.4). -/
def State.unsupportedAt (s : State) (x : PwPort) (f : Frame) : State :=
  if f.hdr.kind = .nonPosted then s.pwInject x (replyFrame f.hdr csUnsupported [])
  else s.countPw x fun c => { c with unsuppFrames := inc48 c.unsuppFrames }

/-- A completion that arrives at a Patchwork port: ended at a fenced one, not supported at a disabled one (Table 9.4). -/
def State.pwCompletionAt (s : State) (x : PwPort) (f : Frame) : State :=
  if s.fenced (pwUnit x) then s.endHere f (s.pwHome x) .fenced
  else if (s.pw x).personality = .disabled then s.unsupportedAt x f
  else s.pwCompletion x f

/-! ### Ends -/

/-- The port's outstanding work ends (R332): non-posted records with a status, posted ones lost; completions of its inbound reads will be discarded; prefetch buffers are discarded; the inbound buffer drains. -/
def State.pwEndWork (s : State) (x : PwPort) (fenced : Bool) : State :=
  let p := s.pw x
  let recs := (match p.sequence with | some q => [q.record] | none => []) ++ p.store
  let s1 := ((s.closeWrite x).dropPrefetch x fun _ => true).modPw x fun p =>
    { p with sequence := none, store := [], crossed := false, answer := .none_,
             entries := p.entries.filterMap fun e =>
               match e.2 with
               | some y => (match y.state with
                   | .ready _ => none
                   | .dropped b => some (e.1, some { y with state := .dropped b })
                   | _ => some (e.1, some { y with state := .dropped false }))
               | none => none }
  recs.foldl (fun t r =>
    if fenced ∧ r.nonPosted then (t.freeEntry x r).endHere r.frame (t.pwHome x) .fenced
    else t.failRecord x r csHeritage (busStatusCode .busError)) s1

end Sys2Proof.Machine
end

