-- ==== Sys2Proof/Machine/SlotOps.lean ====
section
/-!
DEFINITION. Slot-power channels: outputs (Table 10.3), changes of state (Table 10.4, R364), trips (R350), start requests (R358), presence (R352, R353), the slot registers (R361) and the booth controller's restart (R359, R466).
-/

namespace Sys2Proof.Machine

/-! ### States -/

/-- The lower of two voltages. -/
def lower (a b : BitVec 16) : BitVec 16 := if a ≤ b then a else b

/-- PRECHARGE, GATE_RISE or STABILISING (R348). -/
def ChanState.starting (g : ChanState) : Bool := g == .precharge || g == .gateRise || g == .stabilising
/-- A starting state or ON. -/
def ChanState.powered (g : ChanState) : Bool := g.starting || g == .on

/-- PFW_N is asserted (Table 10.3, R352, R356, R359). -/
def State.pfwAsserted (s : State) (c : Nat) : Bool :=
  let x := s.chan c
  !x.state.powered || s.slots.warning || x.pfwPresence || (s.slots.restarting && s.slots.released)

/-- The booth controller runs the channels. -/
def State.boothRuns (s : State) : Bool := s.power.started && !s.slots.restarting

/-- The ports whose partner record holds a channel. -/
def State.portsOfSlot (s : State) (c : Nat) : List Nat := s.allPorts.filter fun p => decide ((s.partner p).slot.toNat = c)
/-- The partitions that a channel concerns. -/
def State.slotOwners (s : State) (c : Nat) : List (BitVec 8) := (s.portsOfSlot c).map s.portOwner

/-- The error source of a channel, and of the slot bus (Table 12.1). -/
def slotSource (c : Nat) : BitVec 12 := BitVec.ofNat 12 (0xA00 + c)
/-- The slot-bus error source. -/
abbrev slotBusSource : BitVec 12 := 0xA30

/-- Cause COMMAND (Table 10.7). -/
abbrev scCommand : BitVec 8 := 0x08
/-- Cause BUS_CUT. -/
abbrev scBusCut : BitVec 8 := 0x0A
/-- Cause BOOTH_RESTART. -/
abbrev scBoothRestart : BitVec 8 := 0x0B
/-- Cause RETRY_LIMIT. -/
abbrev scRetryLimit : BitVec 8 := 0x0C
/-- Cause FENCED. -/
abbrev scFenced : BitVec 8 := 0x0D

/-- A channel enters a state: the drives follow Table 10.3, limits are taken (R366), and what belongs to the old state ends.
The breaker timer runs on from one powered state to the next. -/
def Chan.enter (x : Chan) (g : ChanState) (cause : BitVec 8) (now : Nat) : Chan :=
  let y := { x with
    state := g, cause := cause, request := none, debounced := false
    qp := if g = .warnOff then x.qp else g == .precharge || g == .gateRise
    qm := if g = .warnOff then x.qm else g == .gateRise || g == .stabilising || g == .on
    pg := g == .on
    breakerOn := x.breakerOn && g.powered
    pfwPresence := x.pfwPresence && g.powered
    fastLatched := false }
  match g with
  | .disabled => { y with retry := 0, tripCause := 0, disableAfter := false }
  | .precharge =>
    { y with prechargeNow := x.set.prechargeMax, onSince := now, counters := { x.counters with attempts := inc48 x.counters.attempts } }
  | .stabilising => { y with pgDelayNow := x.set.pgDelay }
  | .warnOff => { y with pfwLeadNow := x.set.pfwLead }
  | .latched => { y with powerFault := true, counters := { x.counters with latches := inc48 x.counters.latches } }
  | .lockout => { y with powerFault := true, lockAfter := false, counters := { x.counters with lockouts := inc48 x.counters.lockouts } }
  | _ => y

/-- Put a channel into another state and raise EV_SLOT_STATE (R364). -/
def State.chanTo (s : State) (c : Nat) (g : ChanState) (cause : BitVec 8) : State :=
  let old := (s.chan c).state
  let s1 := s.modChan c fun x => x.enter g cause s.now
  let x := s1.chan c
  s1.raise 0x0A02 [(c, 1), (old.code, 1), (g.code, 1), (cause.toNat, 1), (min x.retry 15, 1), (x.tripCause.toNat, 1)] (s1.slotOwners c)

/-- A start request with order number `n`; one that is pending keeps its place (R358). -/
def State.requestAt (s : State) (c n : Nat) : State := s.modChan c fun x => { x with request := some (x.request.getD n) }
/-- A channel requests a start now. -/
def State.requestStart (s : State) (c : Nat) : State :=
  (s.requestAt c s.slots.nextReq).modSlots fun x => { x with nextReq := x.nextReq + 1 }
/-- A channel requests a start where AUTO_ON is 1 (R348). -/
def State.autoStart (s : State) (c : Nat) : State := if (s.chan c).set.autoOn then s.requestStart c else s

/-- A channel enters EMPTY, and INSERTING at once where PRSNT_N is low (Table 10.4). -/
def State.chanEmpty (s : State) (c : Nat) (cause : BitVec 8) : State :=
  let s1 := s.chanTo c .empty cause
  if (s1.chan c).prsntHigh then s1 else s1.chanTo c .inserting 0

/-- WARN_OFF ends, or a trip, a cut or a booth restart ends it: READY, DISABLED after ENABLE 0, or LOCKOUT after a fence. It never requests a start (R348). -/
def State.chanOff (s : State) (c : Nat) (cause : BitVec 8) : State :=
  let x := s.chan c
  if x.lockAfter then s.chanTo c .lockout scFenced
  else if x.disableAfter then s.chanTo c .disabled cause
  else s.chanTo c .ready cause

/-- A commanded turn-off passes through WARN_OFF (R355). -/
def State.warnOff (s : State) (c : Nat) (cause : BitVec 8) : State :=
  (s.modChan c fun x => { x with offCause := cause }).chanTo c .warnOff cause

/-! ### Trips -/

/-- The trip counter of a cause (Table 10.6). -/
def ChanCounters.trip (k : ChanCounters) (cause : BitVec 8) : ChanCounters :=
  if cause = 2 then { k with tripsFast := inc48 k.tripsFast }
  else if cause = 1 then { k with tripsBreaker := inc48 k.tripsBreaker }
  else { k with tripsOther := inc48 k.tripsOther }

/-- Time in ns from entry to PRECHARGE to a trip, up to 10 s, and the off-time of R350. -/
def offTime (onTime : Nat) : Nat := max 1000000000 (100 * min onTime 10000000000)

/-- A trip is counted with its cause and reported as TRIP (R350, R364). -/
def State.countTrip (s : State) (c : Nat) (cause : BitVec 8) : State :=
  (s.modChan c fun x => { x with tripCause := cause, powerFault := true, counters := x.counters.trip cause }).report (slotSource c) 0x01
    (cause.setWidth 64)

/-- A trip (R350), resolved to RETRY_WAIT or LATCHED; from WARN_OFF the turn-off completes, and in a state without power nothing trips. -/
def State.trip (s : State) (c : Nat) (cause : BitVec 8) : State :=
  let x := s.chan c
  let s1 := (s.countTrip c cause).modChan c fun y => { y with retry := if x.state.powered then y.retry + 1 else y.retry }
  if x.state = .warnOff then s1.chanOff c cause
  else if x.state.powered = false then s
  else if x.retry + 1 ≤ x.set.retryMax then
    (s1.modChan c fun y => { y with offEnd := s.now + offTime (s.now - x.onSince) }).chanTo c .retryWait cause
  else (s1.chanTo c .latched scRetryLimit).report (slotSource c) 0x02 (scRetryLimit.setWidth 64)

/-- A channel enters LOCKOUT for an error of its own, which is reported as LOCKOUT (R351, R364). -/
def State.lockoutChan (s : State) (c : Nat) (cause : BitVec 8) : State :=
  (s.chanTo c .lockout cause).report (slotSource c) 0x03 (cause.setWidth 64)

/-- A fence of a slot channel (Table 12.7): LOCKOUT with cause FENCED.
By FAULT_FENCE a powered channel passes through WARN_OFF first, and one in WARN_OFF completes its turn-off (DEDUCED, log entry 37). -/
def State.fenceChan (s : State) (c : Nat) (manager : Bool) : State :=
  let x := s.chan c
  if x.state = .lockout then s
  else if manager ∧ x.state.powered then (s.modChan c fun x => { x with lockAfter := true }).warnOff c scFenced
  else if manager ∧ x.state = .warnOff then s.modChan c fun x => { x with lockAfter := true }
  else s.chanTo c .lockout scFenced

/-! ### Presence -/

/-- PRESENT changes: EV_SLOT_PRESENCE, the counters of Table 10.6, EV_PARTNER_CHANGE of the mapped ports (R353) and wake source PRESENCE (Table 14.6). -/
def State.setPresent (s : State) (c : Nat) (v : Bool) : State :=
  if (s.chan c).present = v then s
  else
    let t := s.modChan c fun x =>
      { x with present := v, presenceChanged := true,
               counters := if v then { x.counters with insertions := inc48 x.counters.insertions } else { x.counters with removals := inc48 x.counters.removals } }
    let t1 := t.raise 0x0A00 [(c, 1), (b2n v, 1)] (t.slotOwners c)
    let t2 := (s.portsOfSlot c).foldl (fun u p => s.partnerEvent u p) t1
    if (t2.chan c).set.enable then t2.wake 0 else t2

/-- PRSNT_N as the booth controller samples it (R352). -/
def State.presenceLevel (s : State) (c : Nat) (high : Bool) : State :=
  let x := s.chan c
  if x.prsntHigh = high then s
  else if high then
    let s1 := s.modChan c fun x => { x with prsntHigh := true, absent := false, pfwPresence := x.pfwPresence || x.state.powered }
    if x.state = .inserting then s1.chanTo c .empty 0 else s1
  else
    let s1 := s.modChan c fun x =>
      { x with prsntHigh := false, absent := false,
               counters := if x.absent then x.counters else { x.counters with shortAbsences := inc48 x.counters.shortAbsences } }
    if x.state = .empty then s1.chanTo c .inserting 0 else s1

/-- Absence is declared (R352, R353). -/
def State.absence (s : State) (c : Nat) : State :=
  let x := s.chan c
  let s1 := (s.modChan c fun y => { y with absent := true }).setPresent c false
  match x.state with
  | .lockout => s1
  | .empty => s1
  | .disabled => s1.modChan c fun y => { y with holdOffEnd := 0 }
  | .inserting => s1.chanTo c .empty 0x07
  | .retryWait => (s1.modChan c fun y => { y with holdOffEnd := y.offEnd, retry := 0 }).chanTo c .empty 0x07
  | .warnOff =>
    let s2 := s1.modChan c fun y => { y with holdOffEnd := 0, retry := 0 }
    if x.lockAfter ∨ x.disableAfter then s2.chanOff c 0x07 else s2.chanTo c .empty 0x07
  | _ => (s1.modChan c fun y => { y with holdOffEnd := 0, retry := 0 }).chanTo c .empty 0x07

/-- INSERTING ends in READY (Table 10.4, R353). -/
def State.inserted (s : State) (c : Nat) : State := ((s.setPresent c true).chanTo c .ready 0).autoStart c

/-- The off-time of RETRY_WAIT passes, or RETRY_NOW ends it. -/
def State.retryReady (s : State) (c : Nat) (cause : BitVec 8) : State := (s.chanTo c .ready cause).requestStart c

/-! ### The slot registers -/

/-- The channel that the slot registers of vDSP `k` of a VH act on (R361): that of the bound port's partner record. -/
def State.vdspChan (s : State) (v k : Nat) : Option Nat :=
  let port := match Tab.get none s.policy.bind (32 * v + k) with
    | none => none
    | some (.endpoint g) => s.geidPort g
    | some (.inst g _) => s.geidPort g
  match port with
  | none => none
  | some p => if (s.partner p).slot.toNat < 48 then some (s.partner p).slot.toNat else none

/-- Some vDSP is mapped to a channel. -/
def State.chanMapped (s : State) (c : Nat) : Bool :=
  s.policy.vh.any fun e => match e.2 with
    | some r => (List.range r.vdsps).any fun k => s.vdspChan e.1 k == some c
    | none => false

/-- A Slot Control write of a host (Table 10.5): Power Controller Control is bit 10. -/
def State.slotControl (s : State) (v k : Nat) (w : BitVec 16) : State :=
  match s.vdspChan v k with
  | none => s
  | some c =>
    let off := w.getLsbD 10
    let s1 := s.modChan c fun x => { x with pcc := off, cmdCompleted := true }
    let x := s1.chan c
    if x.set.hostPower = false then s1
    else if off then (if x.state.powered then s1.warnOff c 0x09 else s1)
    else if x.state = .ready then s1.requestStart c else s1

/-! ### Settings -/

/-- Apply channel settings at the points of R366 and Table 10.4. -/
def State.setChan (s : State) (c : Nat) (n : ChanSettings) : State :=
  let old := s.chan c
  let s1 := s.modChan c fun x => { x with set := n }
  let s2 :=
    if n.enable ∧ old.set.enable = false then
      let s2 := s1.modChan c fun x => { x with disableAfter := false }
      if old.state = .disabled then s2.chanEmpty c scCommand else s2
    else if n.enable = false ∧ old.set.enable then
      if old.state.powered then (s1.modChan c fun x => { x with disableAfter := true }).warnOff c scCommand
      else match old.state with
        | .warnOff => s1.modChan c fun x => { x with disableAfter := true }
        | .lockout => s1.modChan c fun x => { x with disableAfter := true }
        | .disabled => s1
        | _ => s1.chanTo c .disabled scCommand
    else s1
  if n.autoOn ∧ old.set.autoOn = false ∧ (s2.chan c).state = .ready ∧ old.state = .ready then s2.requestStart c else s2

/-! ### The input bus -/

/-- EV_SLOT_BUS: kind 0 WARN, 1 RELEASE, 2 CUT, 3 RECOVER; the POWER_ON flag; VFEED, or the lowest VFEED; the duration in ms (log entry 36). -/
def State.evSlotBus (s : State) (kind : Nat) (powerOn : Bool) (vfeed : BitVec 16) (dur : Nat) : State :=
  s.raise 0x0A01 [(kind, 1), (b2n powerOn, 1), (vfeed.toNat, 2), (dur, 8)] []

/-- A sample of VFEED. -/
def Slots.sampled (x : Slots) (v : BitVec 16) : Slots :=
  { x with vfeed := v, vfeedMin := lower x.vfeedMin v, warnMin := if x.warning then lower x.warnMin v else x.warnMin }

/-- The input-bus warning is asserted (R356). -/
def State.assertWarning (s : State) (v : BitVec 16) (powerOn : Bool) : State :=
  (s.modSlots fun x => { x with warning := true, warnMin := v, warnSince := s.now }).evSlotBus 0 powerOn v 0

/-! ### Booth restart -/

/-- The booth controller starts to restart (R359, R466): counts of sampled conditions start again, and the restart is reported. -/
def State.boothRestart (s : State) : State :=
  if s.slots.restarting then s
  else
    let s1 := s.modSlots fun x => { x with restarting := true, released := false, restartAt := s.now }
    let s2 := s1.each (List.range 48) fun t c => t.modChan c fun x => { x with breakerOn := false, debounced := false, fastLatched := false }
    s2.report 0xE00 0x01 0

/-- A channel as the booth controller finds it on resuming (R359). -/
def State.resumeChan (s : State) (c : Nat) (released : Bool) : State :=
  let x := s.chan c
  if x.fastLatched ∧ x.state.starting = false then s.trip c 0x02
  else if x.state.starting ∨ (x.state = .on ∧ released) then
    let s1 := if x.fastLatched then s.countTrip c 0x02 else s
    s1.chanTo c .ready scBoothRestart
  else if x.state = .warnOff ∧ released then s.chanOff c x.offCause
  else if x.state = .retryWait ∧ x.offEnd ≤ s.now then s.retryReady c 0
  else s

/-- The booth controller resumes and acts on the levels that it samples (R359, R480). -/
def State.boothResume (s : State) (prsnt : BitVec 48) (vfeed : BitVec 16) : State :=
  let rel := s.slots.released
  let s1 := s.modSlots fun x =>
    { x with restarting := false, released := false, vfeed := vfeed, vfeedMin := lower x.vfeedMin vfeed, warnMin := lower x.warnMin vfeed }
  let l := List.range 48
  let s2 := s1.each l fun t c => t.resumeChan c rel
  -- channels that are READY after the restart request their starts together
  let s3 := s2.each (l.filter fun c => let x := s2.chan c; x.state == .ready && decide (x.cause = scBoothRestart) && x.set.autoOn && (s1.chan c).state != .ready)
    fun t c => t.requestAt c t.slots.nextReq
  let s4 := s3.modSlots fun x => { x with nextReq := x.nextReq + 1 }
  s4.each l fun t c => t.presenceLevel c (prsnt.getLsbD c)

end Sys2Proof.Machine
end

