-- ==== Sys2Proof/Machine/FenceOps.lean ====
section
/-!
DEFINITION. Units that leave and re-enter service: quad power (R28, R84), the effects of Table 12.7 for a fence (R424) and for an unusable mark (R446), re-initialisation (R426, R440, R447) and return to service.
-/

namespace Sys2Proof.Machine

/-! ### Quad power -/

/-- A quad powers up; with an invalid lane section of the calibration store it raises EV_LANE_CAL_DEFAULT (R84). One that is up stays so. -/
def State.powerQuad (s : State) (q : Nat) : State :=
  if Tab.get false s.power.quadOn q then s
  else
    let s1 := s.modPower fun x => { x with quadOn := Tab.put false x.quadOn q true }
    if s.mgmt.cal.invalid.contains 1 then s1.raise 0x0202 [(q, 1)] ((s1.portsOfQuad q).map s1.portOwner) else s1

/-- A lane without power keeps its settings; its adaptation and its counters are lost (column Quad Off of Table 14.8). -/
def Lane.unpowered (l : Lane) : Lane := { fixed := l.fixed, threshold := l.threshold }

/-- A quad enters Quad Off: its lanes lose power, and the link counters of its ports return to 0 (Table 14.8). -/
def State.quadOff (s : State) (q : Nat) : State :=
  let s1 := (s.modPower fun x => { x with quadOn := Tab.put false x.quadOn q false }).each ((List.range 4).map fun k => 4 * q + k) fun t n =>
    t.modLane n Lane.unpowered
  s1.each (s1.portsOfQuad q) fun t p => t.modLink p fun l => { l with counters := {} }

/-! ### Leaving service -/

/-- A port goes down with reason FENCED and is held in DISABLED; its loopback and PRBS are cleared (Table 12.7, Table 15.2). -/
def State.fencePort (s : State) (p : Nat) : State :=
  (s.disable p rsFenced).modLanes p fun l => { l with genEn := false, chkEn := false, prbsSync := false }

/-- The lane-in-port number of a lane. -/
def State.laneInPort (s : State) (p ln : Nat) : Nat := (((s.lanesOf p).takeWhile fun x => decide (x ≠ ln))).length

/-- The greatest PCI Express width of at most `n` lanes. -/
def widthOfLanes (n : Nat) : Nat := if 16 ≤ n then 16 else if 8 ≤ n then 8 else if 4 ≤ n then 4 else if 2 ≤ n then 2 else n

/-- The widest width of a PCIe-mode port without a lane: the lanes below it, or with lane reversal (Table 2.13) those above it (PRESUMED from the PCI Express Base Specification, log entry 38). -/
def widthWithout (w l : Nat) : Nat := widthOfLanes (max l (w - 1 - l))

/-- A lane leaves service (Table 12.7). -/
def State.laneOut (s : State) (ln : Nat) : State :=
  match s.portOfLane ln with
  | none => s
  | some p =>
    if (s.port p).pcie = false then s.fencePort p
    else
      let w := widthWithout (s.port p).width (s.laneInPort p ln)
      if w = 0 then s.fencePort p
      else if (s.port p).linkUp ∧ w < (s.partner p).width.toNat then
        s.partnerChange p fun t => t.modPartner p fun x => { x with width := BitVec.ofNat 5 w }
      else s

/-- A quad leaves service: its ports go down and it enters Quad Off. -/
def State.quadOut (s : State) (q : Nat) : State := (s.each (s.portsOfQuad q) State.fencePort).quadOff q

/-- A frame stands at its input with no cell sent. -/
def FrameRec.atInput (r : FrameRec) : Bool :=
  decide (r.sent = 0) && (match r.place with
    | .arriving => true | .lookedUp => true | .penaltyFull => true | .penalty => true | .admitted => true | _ => false)

/-- A PU leaves service (Table 12.7): its ports go down, frames in its cell stores and held at its inputs end as FENCED, and frames of which cells have left wait for the cleanup of R425. -/
def State.puOut (s : State) (q : Nat) : State :=
  let ports := s.portsOfQuad q
  let mine (r : FrameRec) : Bool := ports.contains r.src || decide (r.src = 256 + q)
  let s1 := s.quadOut q
  let s2 := s1.each (s1.framesWith fun r => mine r && r.atInput) fun t uid => t.endFrame uid q .fenced
  let s3 := s2.each (s2.framesWith fun r => mine r && decide (r.place = .admitted)) fun t uid =>
    match t.frame? uid with
    | none => t
    | some r => (t.unlist uid r).setFrame uid (some { r with place := .carousel, ending := some (firstCause r.ending .fenced) })
  s3.modFaults fun f => { f with cleanup := insertNat q f.cleanup }

/-- A middle buffer leaves service: it drains, and is skipped after (R194). -/
def State.midOut (s : State) (m : Nat) : State :=
  s.modMid m fun b => if b.state = .inService then { b with state := .draining, drained := 0, forOff := false } else b

/-- The lead-quad port and ID that an instance INDEX names. -/
def instOfIndex (n : Nat) : Nat × Nat := (2 * (n / 256), n % 256)

/-- The effect of Table 12.7 as a unit leaves service. -/
def State.takeOut (s : State) (u : UnitId) (manager : Bool) : State :=
  let n := u.index.toNat
  match u.kind.toNat with
  | 0 => s.laneOut n
  | 1 => s.quadOut n
  | 2 => s.fencePort n
  | 3 => s.puOut n
  | 4 => s
  | 5 => s.midOut n
  | 6 => if n % 4 < 2 then s.quadOut (n / 4) else if n % 4 = 2 then s.midOut (n / 4) else s.puOut (n / 4)
  | 7 => s.failInst (instOfIndex n).1 (instOfIndex n).2 8
  | 8 => s.pwEndWork (if n = 0 then .a else .b) true
  | _ => s.fenceChan n manager

/-- The partitions that a unit concerns. -/
def State.unitOwners (s : State) (u : UnitId) : List (BitVec 8) :=
  let n := u.index.toNat
  match u.kind.toNat with
  | 0 => ((s.portOfLane n).toList).map s.portOwner
  | 1 => (s.portsOfQuad n).map s.portOwner
  | 2 => [s.portOwner n]
  | 3 => (s.portsOfQuad n).map s.portOwner
  | 4 => [(s.juggler n).owner]
  | 6 => (s.portsOfQuad (n / 4)).map s.portOwner
  | 7 => s.instOwners (instOfIndex n).1 (instOfIndex n).2
  | 8 => [s.pwOwner (if n = 0 then .a else .b)]
  | 9 => s.slotOwners n
  | _ => []

/-- A fence takes effect on a unit (R424); a unit already fenced stays as it is. In the stopped state a fence is recorded and nothing else happens (Table 15.2). -/
def State.applyFence (s : State) (f : Fence) (manager : Bool) : State :=
  if s.fenced f.unit then s
  else
    let s1 := (s.modFaults fun x => { x with fences := x.fences ++ [f] }).evFence f false (s.unitOwners f.unit)
    if s.faults.stopped then s1
    else
      let s2 := s1.abortTests (fun t => unitHeld (fun v => decide (v = f.unit)) t) 2
      (s2.takeOut f.unit manager).updateService.checkLapses

/-- A unit is marked unusable by a failed test, with the traffic effects of a fence of its kind (R446). -/
def State.markUnit (s : State) (u : UnitId) : State :=
  ((s.modBist fun b => { b with marks := insertNat u.key b.marks }).takeOut u false).updateService.checkLapses

/-! ### Re-initialisation and return -/

/-- The quad, if any, that returns to power with a unit (Table 15.2). -/
def quadOfUnit (u : UnitId) : Option Nat :=
  let n := u.index.toNat
  match u.kind.toNat with
  | 1 => some n
  | 3 => some n
  | 6 => if n % 4 = 2 then none else some (n / 4)
  | _ => none

/-- The flows of the inputs of a PU start from count 0 (R425). -/
def State.clearFlows (s : State) (q : Nat) : State :=
  let srcs := (256 + q) :: (s.portsOfQuad q)
  s.modCar fun c => { c with voqs := c.voqs.filter fun e => !srcs.contains (flowSrc e.1) }

/-- Counters of Tables 3.11, 4.10, 5.7, 6.6 and 7.12 in a PU return to 0, and its high-water marks to the present occupancy of an idle PU (R440). -/
def State.clearPu (s : State) (q : Nat) : State :=
  let ports := [2 * q, 2 * q + 1]
  let s1 := s.each ports fun t p =>
    (t.modLink p fun l => { l with counters := {} }).modSched p fun x =>
      { (List.range 10).foldl (fun y k => y.modQueue k fun z => { z with counters := {}, occHwm := z.frames.length, sojHwm := 0 }) x with
          portShaperWaits := 0, ageHwm := 0 }
  let s2 := (s1.countFab q fun _ => {}).countCar q fun _ => {}
  let s3 := (s2.countPart q fun _ => {}).modCar fun c => { c with hwm := ports.foldl (fun t p => Tab.put {} t p {}) c.hwm }
  (s3.modJug fun j => { j with synthWaits := Tab.put 0 j.synthWaits q 0 }).clearFlows q

/-- A middle buffer with its memories cleared. -/
def MidBuf.cleared (b : MidBuf) : MidBuf := { b with queues := [], hwm := 0 }

/-- Re-initialise a unit: logic at its cold-reset state, tables restored, counters at 0 (R426, R439, R440). -/
def State.reinitUnit (s : State) (u : UnitId) : State :=
  let n := u.index.toNat
  match u.kind.toNat with
  | 3 => s.clearPu n
  | 4 => s.modJuggler n fun j => { j with synthCpl := 0, steps := [0, 0, 0, 0, 0] }
  | 5 => s.modMid n MidBuf.cleared
  | 6 => if n % 4 = 2 then s.modMid (n / 4) MidBuf.cleared else if n % 4 = 3 then s.clearFlows (n / 4) else s
  | 8 => (s.pwEndWork (if n = 0 then .a else .b) false).modPw (if n = 0 then .a else .b) fun p =>
      { p with personality := .disabled, driving := false, entries := [], outEntries := [], counters := {} }
  | _ => s

/-- A unit returns to service, unless a fence, a mark or a test still holds it: a quad that a port uses powers up (R44), and work, homes and rings follow.
A middle buffer returns at the next period start (R195). -/
def State.returnUnit (s : State) (u : UnitId) (power : Bool) : State :=
  let s1 := match quadOfUnit u with
    | some q => if power && !quadHeld s.out q && !s.ringIsOff (ringOf q) && !(s.portsOfQuad q).isEmpty then s.powerQuad q else s
    | none => s
  s1.updateService.checkLapses

/-- FAULT_RELEASE of a fenced unit (R426). -/
def State.releaseFence (s : State) (u : UnitId) : State :=
  match s.faults.fences.find? (fun f => decide (f.unit = u)) with
  | none => s
  | some f =>
    let s1 := s.modFaults fun x => { x with fences := x.fences.filter fun g => decide (g.unit ≠ u) }
    ((s1.reinitUnit u).evFence f true (s.unitOwners u)).returnUnit u true

end Sys2Proof.Machine
end

