-- ==== Sys2Proof/Machine/PhyOps.lean ====
section
/-!
DEFINITION. Bring-up of ports (Table 2.7): detection, training control words (R68), LOCK, the exchange record (R70 to R72), link up (R98) and return from a retrain (R117); PRBS (R78) and loopback (R82) stages.
-/

namespace Sys2Proof.Machine

/-- Cells of a port that stand in its cell store. -/
def State.storeCells (s : State) (p : Nat) : Nat :=
  (s.car.frames.map fun e => match e.2 with | some r => if r.src = p then r.blocksIn - r.sent else 0 | none => 0).sum

/-- Cells of a port's VC receive buffer (R173): those of frames that arrived on the VC. -/
def State.vcHeld (s : State) (p v : Nat) : Nat :=
  (s.car.frames.map fun e => match e.2 with | some r => if r.src = p ∧ r.vc = v then r.blocksIn - r.sent else 0 | none => 0).sum

/-! ### Detection and training -/

/-- One receiver-detection attempt (Table 2.7). While the store holds cells of frames from before a link down, an attempt that finds every lane fails (R177). -/
def State.detect (s : State) (p : Nat) (found : Detection) : State :=
  match found with
  | .allLanes =>
    if 0 < s.storeCells p then s
    else (s.modPort p fun x => { x with stage := .train, partials := 0, retrain := false, fromExchange := false, clockLost := false }).modLanes p
      Lane.startTrain
  | .someLanes =>
    let n := (s.port p).partials + 1
    let s1 := s.modPort p fun x => { x with partials := min n 10 }
    if n = 10 then (s1.modPort p fun x => { x with lastFail := 1 }).trainFail p 1 else s1
  | .noLane => s.modPort p fun x => { x with partials := 0 }

/-- The ranges of the taps c(−3) to c(+2) (Table 2.10). -/
def tapRange : Nat → Int × Int
  | 0 => (-8, 8)
  | 1 => (-8, 16)
  | 2 => (-24, 0)
  | 3 => (32, 64)
  | 4 => (-16, 0)
  | _ => (-8, 8)

/-- The taps of presets P1 to P5 (Table 2.10). -/
def presetTaps : Nat → List Int
  | 1 => [0, 0, 0, 64, 0, 0]
  | 2 => [0, 0, -6, 58, 0, 0]
  | 3 => presetP3
  | 4 => [0, 0, -8, 50, -6, 0]
  | _ => [-1, 3, -12, 44, -4, 0]

/-- The sum of the absolute tap values. -/
def tapSum (t : List Int) : Nat := (t.map Int.natAbs).sum

/-- Change one tap by one step of 1/64, and what its TAP_STS reports (R68): 1 updated, 2 at limit, 0 hold. -/
def stepTap (t : List Int) (k req : Nat) : List Int × Nat :=
  if req = 1 ∨ req = 2 then
    let t' := modAt t k fun v => if req = 1 then v + 1 else v - 1
    let v := nth 0 t' k
    if v < (tapRange k).1 ∨ (tapRange k).2 < v ∨ 64 < tapSum t' then (t, 2) else (t', 1)
  else (t, 0)

/-- Requests for all taps in the order c(−3) to c(+2): the taps and TAP_STS. -/
def stepTaps (t : List Int) (req : Nat) : List Int × Nat :=
  (List.range 6).foldl (fun (a : List Int × Nat) k =>
    let (t', st) := stepTap a.1 k (fld req (2 * k) 2)
    (t', a.2 + st * 2 ^ (2 * k))) (t, 0)

/-- A valid training control word at a lane (Table 2.9, R68, R69). A reserved PRESET_REQ is a hold of every tap. -/
def Lane.control (l : Lane) (w : Nat) : Lane :=
  let seq := fbv w 40 8
  let preset := fld w 12 4
  let l1 := { l with readyRun := if bitOf w 28 then min 16 (l.readyRun + 1) else 0 }
  if l.lastReq = some seq then l1
  else
    let (t, st) :=
      if l.fixedNow then (l.taps, 0xAAA)
      else if preset = 0 then stepTaps l.taps (fld w 0 12)
      else if preset ≤ 5 then (presetTaps preset, 0x555)
      else (l.taps, 0)
    { l1 with taps := t, tapSts := BitVec.ofNat 12 st, ackSeq := seq, lastReq := some seq }

/-- The CRC of a training control word is correct: bit 112 + i is the coefficient of x^i (R67). -/
def controlOk (w : Nat) : Bool := (crc16 0xFFFF w 112).toNat == fld w 112 16

/-- TRAIN ends when every lane has seen RX_READY in 16 consecutive valid frames (Table 2.7). -/
def State.trainDone (s : State) (p : Nat) : State :=
  if (s.lanesOf p).all fun n => decide (16 ≤ (s.lane n).readyRun) then
    (s.setStage p .lock).modLanes p Lane.startLock
  else s

/-! ### LOCK -/

/-- The deskew limit of two lanes of a port in ps (Table 2.6). -/
def State.skewLimit (s : State) (p a b : Nat) : Nat := if (s.port p).width = 16 ∧ a / 4 ≠ b / 4 then 96000 else 64000

/-- A difference of two times. -/
def absDiff (a b : Nat) : Nat := if a ≤ b then b - a else a - b

/-- The skew of a marker that arrives at `t` on lane `ln` is within the limits of Table 2.6. -/
def State.skewOk (s : State) (p ln t : Nat) : Bool :=
  (s.lanesOf p).all fun n =>
    match (s.lane n).marker with
    | none => true
    | some u => decide (n = ln) || decide (absDiff t u ≤ s.skewLimit p ln n)

/-- Lane words in a time in ps, at 1.66015625 GHz. -/
def laneWords (t : Nat) : Nat := t * 166015625 / 100000000000

/-- Once every lane has its marker, each lane is delayed to the latest one (R59). -/
def State.deskew (s : State) (p : Nat) : State :=
  let l := s.lanesOf p
  let ms := l.filterMap fun n => (s.lane n).marker
  if ms.length < l.length then s
  else
    let last := ms.foldl max 0
    s.modLanes p fun x => { x with deskew := laneWords (last - x.marker.getD last) }

/-- The receiver of a port in LOCK is locked and deskewed. -/
def State.locked (s : State) (p : Nat) : Bool := (s.lanesOf p).all fun n => (s.lane n).fecLock && (s.lane n).marker.isSome

/-! ### EXCHANGE and ACTIVE -/

/-- The pools of Table 3.8 for `q` quads. -/
def defaultPools (q : Nat) : List Nat := ([512, 512, 512, 512, 512, 512, 768, 256] : List Nat).map (· * q)

/-- The exchange record that a port sends (Table 2.11). -/
def State.ownRecord (s : State) (p : Nat) : ExchangeRec :=
  { ver := 1, kind := 1, width := BitVec.ofNat 8 (s.port p).width, geid := s.geid 0, vcMask := 0xFF, credit := (s.link p).pool,
    features := if s.fabric.managed then 0x7 else 0xF, depth := BitVec.ofNat 16 (2048 * (s.port p).quads), uid := s.part.nodeUid,
    portNum := BitVec.ofNat 8 (leadOf p), peerSeen := (s.link p).peer.isSome }

/-- A port enters EXCHANGE: it advertises its pools and uses only records received from here on (R63, R113). -/
def State.enterExchange (s : State) (p : Nat) : State :=
  let q := (s.port p).quads
  (s.modPort p fun x => { x with stage := .exchange, retrain := false, fromExchange := false, clockLost := false }).modLink p fun l =>
    { l with pool := l.poolSet.getD (defaultPools q), peer := none, recordDue := true, sentRec := none }

/-- A port returns to ACTIVE from a retrain (R117). -/
def State.returnActive (s : State) (p : Nat) : State :=
  (s.modPort p fun x => { x with stage := .active, retrain := false, fromExchange := false, clockLost := false }).modLink p fun l =>
    { l with syncing := true, syncRcvd := false, syncDue := true, seenDue := false, awaitSync := true, timerOn := !l.u.isEmpty,
             replayReturn := if l.reason = rsReplayLimit then some s.now else none }

/-- VCs in use on a link (R95): set in both masks, with both pools of at least 18 blocks. -/
def vcsInUse (own : List Nat) (r : ExchangeRec) : BitVec 8 :=
  BitVec.ofNat 8 (packBits ((List.range 8).map fun v =>
    (b2n (r.vcMask.getLsbD v && decide (18 ≤ nth 0 own v) && decide (18 ≤ nth 0 r.credit v)), 1)))

/-- A record that R71 or R95 finds incompatible with a port. -/
def State.incompatible (s : State) (p : Nat) (r : ExchangeRec) : Bool :=
  decide (r.ver ≠ 1) || (decide (r.kind ≠ 1) && decide (r.kind ≠ 2)) || decide (r.width.toNat ≠ (s.port p).width) ||
    !r.vcMask.getLsbD 6 || !r.vcMask.getLsbD 7 || !r.features.getLsbD 0 || decide (nth 0 r.credit 6 < 18) || decide (nth 0 r.credit 7 < 18)

/-- The link layer at link-up (R98), with settings, counters and the incarnation kept. -/
def Link.up (l : Link) (r : ExchangeRec) (w : Nat) : Link :=
  { inc := l.inc, poolSet := l.poolSet, pool := l.pool, partnerPool := r.credit, credits := r.credit, peer := some r, w := w, vcs := vcsInUse l.pool r,
    recordDue := true, reason := l.reason, replayTimer := l.replayTimer, replayLimit := l.replayLimit, leakThresh := l.leakThresh,
    npExpiry := l.npExpiry, inject := l.inject,
    sleep := { idleUs := l.sleep.idleUs, noSleep := l.sleep.noSleep, entries := l.sleep.entries, abandoned := l.sleep.abandoned },
    counters := l.counters }

/-- A native port enters ACTIVE from EXCHANGE (R98, R126, R160). -/
def State.linkUp (s : State) (p : Nat) (r : ExchangeRec) : State :=
  let w := min (2048 * (s.port p).quads) r.depth.toNat
  let t := s.partnerChange p fun s =>
    let s1 := (s.modPort p fun x => { x with stage := .active, reached := true, failCount := 0, waiting := false, partials := 0 }).modLink p fun l => l.up r w
    let s2 := s1.modPartner p fun x =>
      { x with kind := r.kind.setWidth 4, geid := r.geid, port := r.portNum, width := BitVec.ofNat 5 r.width.toNat, rate := 0, uid := r.uid }
    s2.raise 0x0300 [(p, 1), ((s2.link p).inc.toNat, 1), ((s2.port p).width, 1), ((s2.link p).vcs.toNat, 1)] [s2.portOwner p]
  (t.resetWoken p).checkLapses

/-- A port in EXCHANGE with a valid record of its partner that shows PEER_SEEN enters ACTIVE, once the hold-off of R123 has ended. -/
def State.tryActive (s : State) (p : Nat) : State :=
  match (s.link p).peer with
  | none => s
  | some r => if (s.port p).stage = .exchange ∧ r.peerSeen ∧ (s.port p).holdOff = false then s.linkUp p r else s

/-- A good EXCHANGE block in EXCHANGE (R71, R72, R95). -/
def State.recordReceived (s : State) (p : Nat) (r : ExchangeRec) : State :=
  if s.incompatible p r then s.attemptDown p 0x09
  else if r.uid = s.part.nodeUid ∧ r.portNum.toNat = leadOf p then s.attemptDown p 0x0A
  else (s.modLink p fun l => { l with peer := some r }).tryActive p

/-! ### TEST and LOOPBACK -/

/-- A lane has a generator or a checker on. -/
def Lane.prbsOn (l : Lane) : Bool := decide (l.prbs ≠ 0) && (l.genEn || l.chkEn)

/-- Some lane of a port has a generator or checker on (R78). -/
def State.prbsOn (s : State) (p : Nat) : Bool := (s.lanesOf p).any fun n => (s.lane n).prbsOn

/-- The stage of a port follows its loopback and its PRBS (R78, R82, R87): LOOPBACK before TEST, and DISABLED after the last is cleared. -/
def State.diagStage (s : State) (p : Nat) : State :=
  let x := s.port p
  let want : Option Stage := if x.loopback ≠ 0 then some .loopback else if s.prbsOn p then some .test else none
  match want with
  | some g => if x.stage = g then s else s.goDown p g rsAdmin 0
  | none => if x.stage = .loopback ∨ x.stage = .test then s.setStage p .disabled else s

/-- One symbol at a PRBS checker with `n` bit errors (R78, Table 2.14). -/
def Lane.prbsSymbol (l : Lane) (n : Nat) : Lane :=
  if l.prbsSync = false then
    if n = 0 then (if 64 ≤ l.prbsRun + 1 then { l with prbsSync := true, prbsRun := 0, prbsHist := [] } else { l with prbsRun := l.prbsRun + 1 })
    else { l with prbsRun := 0 }
  else
    let h := (decide (n ≠ 0) :: l.prbsHist).take 128
    let l1 := { l with prbsHist := h, symErr := if n = 0 then l.symErr else inc48 l.symErr, bitErr := satAdd l.bitErr n,
                       window := if n = 0 then l.window else l.window + 1 }
    if 32 ≤ (h.filter id).length then { l1 with prbsSync := false, prbsRun := 0, prbsHist := [] } else l1

end Sys2Proof.Machine
end

