-- ==== Sys2Proof/Machine/LinkBlocks.lean ====
section
/-!
DEFINITION. Link blocks of a native port in ACTIVE: VCs (R95), the start of frames (R151, R201), acknowledgement (R103), retransmission (R104 to R109, R118), credits (R112, R114), leaks (R116), framing (R96), the Quad Sleep handshake (R471), and the choice of the next block (R110).
-/

namespace Sys2Proof.Machine

/-! ### Frames that leave by a port -/

/-- A VC is in use on a link (R95). -/
def Link.inUse (l : Link) (v : Nat) : Bool := l.vcs.getLsbD v

/-- The VC on which a frame of VC `v` travels: the nearest in use below it, and otherwise above it (R95). -/
def Link.travel (l : Link) (v : Nat) : Nat :=
  if 6 ≤ v ∨ l.inUse v then v
  else (((List.range v).reverse ++ (List.range 6).filter fun x => decide (v < x)).find? l.inUse).getD v

/-- The egress queue of a frame: RQ0 to RQ7, CQ 8 or MQ 9 (Table 6.2). -/
def egressQueue (f : Frame) : Nat := if f.hdr.kind = .completion then 8 else if f.hdr.vc = 7 then 9 else f.hdr.cls.toNat

/-- The completion ends its request (R136): the first with another status than SUCCESS, or the one with the last bytes. -/
def endsRequest (f : Frame) : Bool :=
  match f.tlp with
  | some t => decide (t.status ≠ 0 ∨ t.len = 0 ∨ t.byteCount ≤ t.len)
  | none => decide (f.hdr.type ≠ tyCompletion ∨ f.hdr.status ≠ csSuccess ∨ f.hdr.reqLen = f.hdr.length.toNat)

/-- Entries of a port's outstanding-request table (R121). -/
def Port.outCap (p : Port) : Nat := 4096 * p.quads

/-- A non-posted request finds the outstanding-request table of its port full (R121). -/
def State.outFull (s : State) (p : Nat) (f : Frame) : Bool :=
  decide (f.hdr.kind = .nonPosted) && decide ((s.port p).outCap ≤ (s.link p).outReqs.length)

/-- The head of each SRC list among frames in release order (R201). -/
def State.heads (s : State) : List Nat → List Nat → List (Nat × FrameRec)
  | [], _ => []
  | u :: rest, seen =>
    match s.frame? u with
    | none => s.heads rest seen
    | some r => if seen.contains r.src then s.heads rest seen else (u, r) :: s.heads rest (r.src :: seen)

/-- The SRC list heads of a queue of a port, oldest release first. -/
def State.queueHeads (s : State) (p k : Nat) : List (Nat × FrameRec) := s.heads ((s.schedOf p).queue k).frames []

/-- Credits for all blocks of a frame on the VC on which it travels (R111). -/
def Link.hasCredits (l : Link) (f : Frame) : Bool :=
  let v := l.travel f.hdr.vc
  l.inUse v && decide (f.blocks ≤ nth 0 l.credits v)

/-- End every frame in the egress queues of a port whose age has reached the lifetime limit (R153). -/
def State.expireQueued (s : State) (p : Nat) : State :=
  s.each (s.framesWith fun r => decide (r.place = .queued) && decide (r.egress.port = some p) && s.expired r) fun t uid =>
    t.endFrame uid (leadOf p) .lifetime

/-- A request of an instance of a port is no longer outstanding (R260). -/
def State.instFall (s : State) (p : Nat) (g : Geid) (t : BitVec 12) : State :=
  s.modParts fun x =>
    { x with insts := (x.insts.map fun e =>
        if e.1 / 256 = p then (e.1, { e.2 with count := e.2.count.filter fun c => !decide (c.1 = g ∧ c.2.1 = t) }) else e).filter fun e =>
          decide (e.2 ≠ {}) }

/-- A frame starts transmission at a port (R121, R151, R229, R230): it leaves the device, and a native port sends its blocks from here on. -/
def State.startFrame (s : State) (p uid : Nat) : State :=
  match s.frame? uid with
  | none => s
  | some r =>
    let k := egressQueue r.frame
    let n := r.frame.blocks
    let s1 := (s.unlist uid r).setFrame uid none
    let s2 := s1.modSched p fun x => Sched.modQueue { x with ageHwm := max x.ageHwm ((s.now - r.born) / 1000) } k fun q =>
      { q with counters := { q.counters with framesSent := inc48 q.counters.framesSent, blocksSent := satAdd q.counters.blocksSent n }
               sojHwm := if k = 9 then q.sojHwm else max q.sojHwm (min (s.now - r.queuedAt) (2 ^ 32 - 1)) }
    let s3 := if r.frame.hdr.kind = .completion ∧ endsRequest r.frame then s2.instFall p r.frame.hdr.dst r.frame.hdr.tag else s2
    ((s3.pmon (leadOf p) 0x180 k 1).pmon (leadOf p) 0x191 k (s.now - r.queuedAt)).modLink p fun l =>
      let l1 := if r.frame.hdr.kind = .nonPosted then
        { l with outReqs := l.outReqs ++ [⟨r.frame.hdr.src, r.frame.hdr.tag, r.frame.hdr, s.now, l.npExpiry, r.frame.tlp⟩] } else l
      if (s.port p).pcie then l1
      else { l1 with unacked := l1.unacked ++ [⟨uid, r.frame⟩], sending := Tab.put none l1.sending (l1.travel r.frame.hdr.vc) (some (uid, 0)) }

/-- The oldest head of MQ with credits starts, where no VC7 frame is in transmission (R204, Table 3.7). -/
def State.startMq (s : State) (p : Nat) : State :=
  let l := s.link p
  if (Tab.get none l.sending 7).isSome ∨ l.awaitSync ∨ l.w ≤ l.u.length then s
  else
    match (s.queueHeads p 9).find? fun e => (s.link p).hasCredits e.2.frame with
    | some (u, _) => s.startFrame p u
    | none => s

/-! ### The Quad Sleep handshake (R471) -/

/-- Both ends have FEATURES bit 2. -/
def Link.maySleep (l : Link) : Bool := match l.peer with | some r => r.features.getLsbD 2 | none => false

/-- The handshake is under way: no new DATA block is started. -/
def SleepState.busy (x : SleepState) : Bool := x.reqSent || x.ackSent

/-- The handshake ends and traffic resumes. -/
def SleepState.resume (x : SleepState) : SleepState :=
  { x with reqSent := false, ackSent := false, ackRcvd := false, goSent := false, goRcvd := false, wakePending := false, due := [],
           emptySeen := false, idles := 0 }

/-- A side requests entry. -/
def Link.sleepRequest (l : Link) : Link :=
  if l.sleep.busy || l.sleep.backoff || !l.maySleep then l
  else { l with sleep := { l.sleep with reqSent := true, due := l.sleep.due ++ [(1, 0)], emptySeen := false } }

/-- SLEEP_GO is due once U is empty and a block with every VC_EMPTY bit set has arrived. -/
def Link.sleepAdvance (l : Link) (empty : BitVec 8) : Link :=
  let x := l.sleep
  if x.busy = false then l
  else
    let y := if l.u.isEmpty ∧ empty = 0xFF then { x with emptySeen := true } else x
    let go := ((y.reqSent && y.ackRcvd) || y.ackSent) && !y.goSent && !(y.due.contains (4, 0)) && l.u.isEmpty && y.emptySeen
    { l with sleep := if go then { y with due := y.due ++ [(4, 0)] } else y }

/-- A frame for the port reaches the egress scheduler: before SLEEP_GO the side sends SLEEP_NAK and resumes, and after it the wake is kept (R471, R473). -/
def Link.sleepFrame (l : Link) : Link :=
  if l.sleep.goSent then { l with sleep := { l.sleep with wakePending := true } }
  else if l.sleep.busy then { l with sleep := { l.sleep.resume with due := [(3, 2)] } }
  else l

/-- A frame waits for a port in its egress queues. -/
def State.frameWaiting (s : State) (p : Nat) : Bool := (List.range 10).any fun k => !((s.schedOf p).queue k).frames.isEmpty

/-- A POWER block's OP at a side (Table 14.5). A request of a partner without FEATURES bit 2 is ignored. -/
def State.powerOp (s : State) (p op : Nat) : State :=
  s.modLink p fun l =>
    let x := l.sleep
    match op with
    | 1 =>
      if x.reqSent then { l with sleep := { x with ackRcvd := true } }
      else if x.ackSent || !l.maySleep then l
      else if x.noSleep then { l with sleep := { x with due := x.due ++ [(3, 1)] } }
      else if s.frameWaiting p || l.sending.any (fun e => e.2.isSome) then { l with sleep := { x with due := x.due ++ [(3, 2)] } }
      else { l with sleep := { x with ackSent := true, due := x.due ++ [(2, 0)], emptySeen := false } }
    | 2 => if x.reqSent then { l with sleep := { x with ackRcvd := true } } else l
    | 3 => if x.busy then { l with sleep := { x.resume with backoff := x.backoff || x.reqSent } } else l
    | 4 => if x.busy then { l with sleep := { x with goRcvd := true } } else l
    | _ => l

/-- A port enters Quad Sleep after 16 IDLE blocks; a wake that arose meanwhile starts at once (R471, R473). -/
def State.enterSleep (s : State) (p : Nat) : State :=
  let wake := (s.link p).sleep.wakePending
  (s.modPort p fun x => { x with stage := .sleep, waking := wake }).modLink p fun l =>
    { l with timerOn := false, sleep := { l.sleep.resume with entries := inc48 l.sleep.entries } }

/-! ### Acknowledgement and retransmission -/

/-- A PROTOCOL error of a link with a counter of Table 3.11 (Table 12.3). -/
def State.protocol (s : State) (p : Nat) (seq : BitVec 16) (vc n : Nat) (f : LinkCounters → LinkCounters) : State :=
  if n = 0 then s else (s.countLink p f).linkError p 0x04 seq vc

/-- An ACKSEQ that is ignored and counted. -/
def State.ackInvalid (s : State) (p : Nat) (seq : BitVec 16) : State :=
  s.protocol p seq 0 1 fun c => { c with ackInvalid := inc48 c.ackInvalid }

/-- Release the blocks of U before place `n` (R103); frames whose blocks are all sent and acknowledged are forgotten. -/
def Link.release (l : Link) (n : Nat) : Link :=
  let u := l.u.drop n
  { l with u := u, timerOn := l.timerOn && !u.isEmpty,
           unacked := l.unacked.filter fun f => (u.any fun b => decide (b.uid = f.uid)) ||
             (l.sending.any fun e => match e.2 with | some (x, _) => decide (x = f.uid) | none => false) }

/-- The ACKSEQ of a received block (R103). -/
def State.ackIn (s : State) (p : Nat) (a : BitVec 16) : State :=
  let l := s.link p
  match l.u with
  | [] => if a = l.high then s else s.ackInvalid p a
  | b :: _ =>
    let d := (a - b.seq).toNat
    if d < l.u.length then s.modLink p fun l => l.release (d + 1)
    else if a + 1 = b.seq then s
    else s.ackInvalid p a

/-- How a retransmission is queued: by a NAK or by the replay timer. -/
inductive ReplayBy where
  | nak | timer
  deriving DecidableEq, Repr

/-- A retransmission becomes due for the block of U with a SEQ (R105, R106, R109, R118). -/
def State.requeue (s : State) (p : Nat) (seq : BitVec 16) (by_ : ReplayBy) : State :=
  let l := s.link p
  match l.u.find? fun b => decide (b.seq = seq) with
  | none => s
  | some b =>
    if b.queued then s
    else if b.replays = l.replayLimit then
      match l.replayReturn with
      | some t => if s.now - t ≤ 1000000000 then s.goDown p .detect rsReplayRepeat 0 else s.retrain p rsReplayLimit
      | none => s.retrain p rsReplayLimit
    else
      (s.modLink p fun l => { l with u := l.u.map fun x => if x.seq = seq then { x with queued := true, replays := x.replays + 1 } else x }).countLink p
        fun c => match by_ with
          | .nak => { c with txReplayNak := inc48 c.txReplayNak }
          | .timer => { c with txReplayTimer := inc48 c.txReplayTimer }

/-- A port is in ACTIVE. -/
def State.active (s : State) (p : Nat) : Bool := (s.port p).stage == .active

/-- A SEQ that a NAK requests (R105). -/
def State.nakSeq (s : State) (p : Nat) (seq : BitVec 16) : State :=
  if s.active p = false then s
  else
    let l := s.link p
    let d := (seq - l.high).toNat
    if l.u.any fun b => decide (b.seq = seq) then s.requeue p seq .nak
    else if 0 < d ∧ d < 32768 then s.ackInvalid p seq
    else s

/-- A NAK payload (Table 3.6, R105). -/
def State.nakIn (s : State) (p : Nat) (pl : BlockPayload) : State :=
  let v := pl.toNat
  let n := fld v 0 8
  let s1 := (s.countLink p fun c => { c with nakRx := inc48 c.nakRx }).pmon (leadOf p) 0x068 0 1
  if n = 0 ∨ 16 < n then s1.ackInvalid p 0
  else
    (List.range n).foldl (fun t i =>
      let base := fbv v (128 + 96 * i) 16
      let map := fld v (160 + 96 * i) 64
      (List.range 64).foldl (fun t k => if bitOf map k then t.nakSeq p (base + BitVec.ofNat 16 k) else t) t) s1

/-- SEQs from E up to `n` of them that are missing and not yet NAKed join those to be NAKed (R104). -/
def Link.nakMissing (l : Link) (n : Nat) : Link :=
  let missing := ((List.range n).map fun k => l.e + BitVec.ofNat 16 k).filter fun q =>
    !(l.window.any fun b => decide (b.seq = q)) && !(l.naked.contains q)
  { l with naked := l.naked ++ missing, nakDue := l.nakDue ++ missing }

/-- HIGH of a received block that is not DATA (R104): SEQs after every SEQ held are missing. -/
def Link.highIn (l : Link) (h : BitVec 16) : Link :=
  let d := (h - l.e).toNat
  if d < l.w ∧ (l.window.all fun b => decide ((b.seq - l.e).toNat < d)) then l.nakMissing (d + 1) else l

/-! ### Credits -/

/-- Credits returned for a VC (R114). -/
def State.creditIn (s : State) (p v n : Nat) : State :=
  let l := s.link p
  if n = 0 ∨ l.inUse v = false then s
  else
    let c := nth 0 l.credits v + n
    let pool := nth 0 l.partnerPool v
    (s.modLink p fun l => { l with credits := setAt l.credits v (min c pool) }).protocol p 0 v (c - pool) fun x =>
      { x with creditOverflow := satAdd x.creditOverflow (c - pool) }

/-- A CREDIT payload (Table 3.9, R114, R117). -/
def State.creditBlockIn (s : State) (p : Nat) (pl : BlockPayload) : State :=
  let v := pl.toNat
  let s1 := if bitOf v 129 then s.modLink p fun l => { l with syncing := false, syncDue := false } else s
  if bitOf v 128 then
    s1.modLink p fun l =>
      { l with
        credits := (List.range 8).map fun k => fld v (16 * k) 16 - (l.u.filter fun b => decide (b.vc = k)).length
        seenDue := l.seenDue || (l.syncRcvd && !l.syncing)
        syncRcvd := true, awaitSync := false, syncTimeouts := 0
        u := if l.awaitSync then l.u.map fun b => { b with queued := true } else l.u }
  else (List.range 8).foldl (fun t k => t.creditIn p k (fld v (16 * k) 12)) s1

/-- An idle point of a VC (R116). -/
def State.idlePoint (s : State) (p v : Nat) : State :=
  let l := s.link p
  if l.inUse v = false ∨ l.awaitSync ∨ (l.u.any fun b => decide (b.vc = v)) then s
  else
    let pool := nth 0 l.partnerPool v
    let leak := pool - nth 0 l.credits v
    let s1 := s.countLink p fun c => { c with creditLeakMax := max c.creditLeakMax (min leak 65535) }
    if l.leakThresh * pool ≤ 64 * leak then s1.retrain p rsCreditLeak else s1

/-- The idle points that a received VC_EMPTY makes. -/
def State.idlePoints (s : State) (p : Nat) (e : BitVec 8) : State :=
  (List.range 8).foldl (fun t v => if e.getLsbD v ∧ t.active p then t.idlePoint p v else t) s

/-! ### Framing (R96) -/

/-- A framing violation. -/
def State.framingError (s : State) (p : Nat) (b : RxData) : State :=
  s.protocol p b.seq b.vc 1 fun c => { c with framingErr := inc48 c.framingErr }

/-- The frame that is open in a VC receive buffer. -/
def State.openRx (s : State) (p v : Nat) : Option RxOpen := Tab.get none (s.link p).openRx v
/-- Change the frame that is open in a VC receive buffer. -/
def State.setOpenRx (s : State) (p v : Nat) (o : Option RxOpen) : State := s.modLink p fun l => { l with openRx := Tab.put none l.openRx v o }

/-- Keep the cell-store high-water mark of a port (Table 5.8). -/
def State.markStore (s : State) (p : Nat) : State :=
  let n := s.storeCells p
  s.modCar fun c => { c with hwm := Tab.mod {} c.hwm p fun x => { x with store := max x.store n } }

/-- The payload bytes of a block, from byte `a` of them. -/
def payloadBytes (pl : BlockPayload) (a : Nat) : List Byte := (bytesOf 240 pl.toNat).drop a

/-- The frame that its last block completes: the bytes after its end are ignored (R92), and a TLP is decoded. -/
def completeFrame (f : Frame) : Frame :=
  let g := { f with payload := f.payload.take f.hdr.length.toNat }
  if f.hdr.type = tyPcie then
    match Config.tlpOfBytes g.payload with
    | some t => if Frame.wellFormed { g with payload := [], tlp := some t } then { g with payload := [], tlp := some t } else g
    | none => g
  else g

/-- The completion that ends a request arrives from the port: its entry is removed (R121). -/
def State.answered (s : State) (p : Nat) (f : Frame) : State :=
  if f.hdr.kind = .completion ∧ endsRequest f then
    s.modLink p fun l =>
      match l.outReqs.find? fun o => decide (o.requester = f.hdr.dst ∧ o.tag = f.hdr.tag) with
      | some o => { l with outReqs := l.outReqs.erase o }
      | none => l
  else s

/-- A frame has arrived whole at a native port. The entry of a request that it completes is removed at its lookup. -/
def State.received (s : State) (uid : Nat) : State :=
  match s.frame? uid with
  | none => s
  | some r =>
    let f := completeFrame r.frame
    s.setFrame uid (some { r with frame := f, whole := true })

/-- A block is added to the frame that is open on its VC, which closes at LAST, or at its 19th block (R96). -/
def State.extendRx (s : State) (p : Nat) (b : RxData) (o : RxOpen) : State :=
  if b.last ∨ 19 ≤ o.got then
    let s1 := s.setOpenRx p b.vc none
    if b.last ∧ o.got = o.blocks then s1.received o.uid else (s1.framingError p b).discard o.uid
  else s.setOpenRx p b.vc (some o)

/-- A block in SEQ order reaches its VC receive buffer (R96, R102, R173). A block of a frame that has already ended is dropped, and its credit returns. -/
def State.vcBlock (s : State) (p : Nat) (b : RxData) : State :=
  let v := b.vc
  if (s.link p).inUse v = false then (s.framingError p b).returnCredits p v 1
  else if b.first then
    let s1 := match s.openRx p v with
      | some o => ((s.setOpenRx p v none).framingError p b).discard o.uid
      | none => s
    let f : Frame := { hdr := Hdr.ofNat (b.payload.toNat % 2 ^ 256), payload := payloadBytes b.payload 32 }
    let uid := s1.car.nextUid
    let s2 := ((s1.arrive p v f 1).modFrame uid fun r => { r with whole := false }).markStore p
    let s3 := if f.hdr.poison then s2.modFaults fun x => { x with poisonRx := Tab.mod 0 x.poisonRx (leadOf p) inc48 } else s2
    s3.extendRx p b ⟨uid, f.blocks, 1⟩
  else
    match s.openRx p v with
    | none => (s.framingError p b).returnCredits p v 1
    | some o =>
      let s1 := match s.frame? o.uid with
        | some r =>
          (s.setFrame o.uid (some { r with blocksIn := r.blocksIn + 1,
                                           frame := { r.frame with payload := r.frame.payload ++ payloadBytes b.payload 0 } })).markStore p
        | none => s.returnCredits p v 1
      s1.extendRx p b { o with got := o.got + 1 }

/-- Block E and every consecutively held block move to their VC receive buffers (R102). -/
def State.drainWindow (s : State) (p : Nat) : Nat → State
  | 0 => s
  | n + 1 =>
    let l := s.link p
    match l.window.find? fun b => decide (b.seq = l.e) with
    | none => s
    | some b =>
      let s1 := s.modLink p fun l => { l with e := l.e + 1, window := l.window.erase b, naked := l.naked.erase b.seq, nakDue := l.nakDue.erase b.seq }
      (s1.vcBlock p b).drainWindow p n

/-- A good DATA block (Table 3.5, R104). -/
def State.dataIn (s0 : State) (p : Nat) (b : RxData) : State :=
  let s := s0.pmon (leadOf p) 0x064 b.vc 1
  let l := s.link p
  let d := (b.seq - l.e).toNat
  if d < l.w then
    if l.window.any fun x => decide (x.seq = b.seq) then (s.countLink p fun c => { c with rxDup := inc48 c.rxDup }).pmon (leadOf p) 0x066 0 1
    else
      let s1 := (s.modLink p fun l => { l with window := l.window ++ [b], nakDue := l.nakDue.erase b.seq }).countLink p fun c =>
        { c with rxData := inc48 c.rxData }
      if d = 0 then s1.drainWindow p (l.window.length + 1) else s1.modLink p fun l => l.nakMissing d
  else if 65536 ≤ d + l.w then (s.countLink p fun c => { c with rxDup := inc48 c.rxDup }).pmon (leadOf p) 0x066 0 1
  else s.protocol p b.seq b.vc 1 fun c => { c with rxOow := inc48 c.rxOow }

/-! ### Good blocks -/

/-- A good IDLE, DATA, NAK, CREDIT or POWER block in ACTIVE: ACKSEQ before the payload (R103), HIGH of the blocks that carry it, and the idle points (R116). -/
def State.goodBlock (s : State) (p : Nat) (h : BitVec 64) (isData : Bool) (payload : State → State) : State :=
  let s1 := ((s.modLink p fun l => { l with sawOther := true }).ackIn p (bhAck h)).creditIn p (bhCrVc h) (bhCrInc h)
  let s2 := payload s1
  let s3 := if isData ∨ s2.active p = false then s2 else s2.modLink p fun l => l.highIn (bhSeq h)
  let s4 := s3.idlePoints p (bhEmpty h)
  if s4.active p then s4.modLink p fun l => l.sleepAdvance (bhEmpty h) else s4

/-! ### Sending -/

/-- Take `n` pending returns of a VC. -/
def Link.takePending (l : Link) (v n : Nat) : Link :=
  let p := modAt l.pending v (· - n)
  { l with pending := p, pendOrder := if nth 0 p v = 0 then l.pendOrder.erase v else l.pendOrder,
           creditDue := l.creditDue && p.any (decide <| 0 < ·) }

/-- The VC_EMPTY bits that a port shows (Table 3.2). -/
def State.emptyBits (s : State) (p : Nat) : BitVec 8 :=
  BitVec.ofNat 8 (packBits ((List.range 8).map fun v => (b2n (decide (s.vcHeld p v = 0) && decide (nth 0 (s.link p).pending v = 0)), 1)))

/-- Send a block of a type other than EXCHANGE, with current ACKSEQ, the oldest pending credit return and VC_EMPTY (R99, R102, R112). -/
def State.sendBlock (s : State) (p ty vc : Nat) (first last : Bool) (seq : BitVec 16) (pl : BlockPayload) : State :=
  let l := s.link p
  let v := l.pendOrder.head?.getD 0
  let n := if l.pendOrder.isEmpty then 0 else min 4095 (nth 0 l.pending v)
  let s1 := if n = 0 then s else s.modLink p fun l => l.takePending v n
  let hdr := blockHdr ty vc first last seq (l.e - 1) v n (s1.emptyBits p)
  let hit := [decide (ty = btData), decide (n ≠ 0), decide (ty = btCredit), decide (ty = btNak)]
  let bad := (hit.zip l.inject).any fun e => e.1 && decide (0 < e.2)
  s1.modLink p fun l =>
    { l with lastSent := some ⟨hdr, pl, !bad⟩, inject := (hit.zip l.inject).map fun e => if e.1 then e.2 - 1 else e.2
             creditWait := if l.creditDue then l.creditWait + 1 else 0 }

/-- Send an EXCHANGE block: a fresh record where one is due, and otherwise the latest one again (R97). -/
def State.sendRecord (s : State) (p : Nat) : State :=
  let l := s.link p
  let r := match l.sentRec with
    | some r => if l.recordDue then s.ownRecord p else r
    | none => s.ownRecord p
  s.modLink p fun l => { l with recordDue := false, sentRec := some r, lastSent := some ⟨BitVec.ofNat 64 btExchange, r.payload, true⟩ }

/-- Send a CREDIT block (Table 3.9, R112, R117). -/
def State.sendCredit (s : State) (p : Nat) (sync : Bool) : State :=
  let l := s.link p
  let entry (v : Nat) : Nat := if sync then min 65535 (nth 0 l.pool v - s.vcHeld p v) else min 4095 (nth 0 l.pending v)
  let pl := packBits (((List.range 8).map fun v => (entry v, 16)) ++ [(b2n sync, 1), (b2n l.syncRcvd, 1)])
  let left := (List.range 8).map fun v => if sync then 0 else nth 0 l.pending v - entry v
  let s1 := s.modLink p fun l =>
    { l with pending := left, pendOrder := l.pendOrder.filter fun v => decide (0 < nth 0 left v), creditDue := left.any fun n => decide (256 ≤ n)
             creditWait := 0, seenDue := false, syncDue := l.syncDue && !sync }
  (s1.pmon (leadOf p) 0x063 0 1).sendBlock p btCredit 0 false false l.high (BitVec.ofNat 1920 pl)

/-- NAK entries that cover SEQs in order: at most 16 of 64 SEQs each, and the SEQs left (Table 3.6). -/
def nakEntries : List (BitVec 16) → List (BitVec 16 × Nat) → List (BitVec 16 × Nat) × List (BitVec 16)
  | [], acc => (acc, [])
  | q :: r, acc =>
    match acc.getLast? with
    | some (b, m) =>
      if (q - b).toNat < 64 then nakEntries r (acc.dropLast ++ [(b, m + 2 ^ (q - b).toNat)])
      else if acc.length < 16 then nakEntries r (acc ++ [(q, 1)]) else (acc, q :: r)
    | none => nakEntries r (acc ++ [(q, 1)])

/-- Insert a SEQ in order of its distance from E. -/
def insertSeq (e q : BitVec 16) : List (BitVec 16) → List (BitVec 16)
  | [] => [q]
  | x :: r => if (q - e).toNat ≤ (x - e).toNat then q :: x :: r else x :: insertSeq e q r

/-- Send a NAK block for the missing SEQs, nearest to E first (R104). -/
def State.sendNak (s : State) (p : Nat) : State :=
  let l := s.link p
  let (es, left) := nakEntries (l.nakDue.foldl (fun a q => insertSeq l.e q a) []) []
  let pl := packBits ([(es.length, 8), (0, 120)] ++ es.flatMap fun e => [(e.1.toNat, 16), (0, 16), (e.2, 64)])
  let s1 := (s.modLink p fun l => { l with nakDue := left }).countLink p fun c => { c with nakTx := inc48 c.nakTx }
  ((s1.pmon (leadOf p) 0x063 0 1).pmon (leadOf p) 0x067 0 1).sendBlock p btNak 0 false false l.high (BitVec.ofNat 1920 pl)

/-- The next block of the frame in transmission on a VC, if a new DATA block may be sent: room in W (R100), a credit (R111), a SYNC received (R117) and no sleep handshake (R471). -/
def Link.nextBlock (l : Link) (v : Nat) : Option (Frame × Nat × Nat) :=
  if l.w ≤ l.u.length ∨ l.awaitSync ∨ l.sleep.busy ∨ nth 0 l.credits v = 0 then none
  else
    match Tab.get none l.sending v with
    | none => none
    | some (uid, k) => (l.unacked.find? fun f => decide (f.uid = uid)).map fun f => (f.frame, uid, k)

/-- Send a DATA block for the first time (R99, R106, R111). -/
def State.sendData (s : State) (p v : Nat) (f : Frame) (uid k : Nat) : State :=
  let l := s.link p
  let q := l.next
  let last := decide (f.blocks ≤ k + 1)
  let b : TxData := { seq := q, vc := v, first := decide (k = 0), last := last, payload := f.block k, uid := uid }
  let s1 := s.modLink p fun l =>
    { l with u := l.u ++ [b], next := q + 1, high := q, credits := modAt l.credits v (· - 1), timerOn := true
             sending := Tab.put none l.sending v (if last then none else some (uid, k + 1))
             counters := { l.counters with txData := inc48 l.counters.txData } }
  let s2 := if last ∧ v ≠ 7 then s1.modSched p fun x => { x with current := none } else s1
  (s2.pmon (leadOf p) 0x060 v 1).sendBlock p btData v b.first b.last q b.payload

/-- Send a queued retransmission (R99). -/
def State.sendReplay (s : State) (p : Nat) (b : TxData) : State :=
  let s1 := s.modLink p fun l => { l with u := l.u.map fun x => if x.seq = b.seq then { x with queued := false } else x }
  (s1.pmon (leadOf p) 0x061 0 1).sendBlock p btData b.vc b.first b.last b.seq b.payload

/-- Send the oldest POWER block that is due (Table 14.5). -/
def State.sendPower (s : State) (p : Nat) (op reason : BitVec 8) : State :=
  let s1 := s.modLink p fun l => { l with sleep := { l.sleep with due := l.sleep.due.drop 1, goSent := l.sleep.goSent || decide (op = 4) } }
  (s1.pmon (leadOf p) 0x063 0 1).sendBlock p btPower 0 false false (s.link p).high (BitVec.ofNat 1920 (op.toNat + 256 * reason.toNat))

/-- Send an IDLE block; the 16th after both SLEEP_GO blocks is the last before Quad Sleep (R471). -/
def State.sendIdle (s : State) (p : Nat) : State :=
  let l := s.link p
  let s1 := (s.pmon (leadOf p) 0x062 0 1).sendBlock p btIdle 0 false false l.high 0
  if l.sleep.goSent ∧ l.sleep.goRcvd then
    if 16 ≤ l.sleep.idles + 1 then s1.enterSleep p else s1.modLink p fun l => { l with sleep := { l.sleep with idles := l.sleep.idles + 1 } }
  else s1

/-- The block of the next slot of a port in ACTIVE that has received a good block of another type than EXCHANGE (Table 3.7). -/
def State.slotBlock (s0 : State) (p : Nat) : State :=
  let s := (s0.expireQueued p).startMq p
  let l := s.link p
  let cur := ([0, 1, 2, 3, 4, 5, 6].filterMap fun v => (l.nextBlock v).map fun b => (v, b)).head?
  match l.nextBlock 7 with
  | some (f, uid, k) => s.sendData p 7 f uid k
  | none =>
    if l.creditDue ∧ 64 ≤ l.creditWait then s.sendCredit p false
    else if l.nakDue ≠ [] then s.sendNak p
    else if l.syncDue then s.sendCredit p true
    else if l.seenDue then s.sendCredit p false
    else
      match l.u.find? fun b => b.queued with
      | some b => s.sendReplay p b
      | none =>
        if l.creditDue then s.sendCredit p false
        else
          match cur with
          | some (v, f, uid, k) => s.sendData p v f uid k
          | none =>
            match l.sleep.due with
            | (op, reason) :: _ => s.sendPower p op reason
            | [] => s.sendIdle p

/-- The block of the next slot of a native port in EXCHANGE or ACTIVE (R88, R97, R110). -/
def State.slot (s : State) (p : Nat) : State :=
  let l := s.link p
  if s.active p = false then s.sendRecord p
  else if l.sawOther then s.slotBlock p
  else if l.recordDue then s.sendRecord p
  else s.sendIdle p

end Sys2Proof.Machine
end

