-- ==== Sys2Proof/Machine/FabricOps.lean ====
section
/-!
DEFINITION. Fabric tables: malformed frames (R134), the tables that a PU uses (R26, R149), commits and epochs (R149 to R151), multipath (R141, R142), up*/down* routes (R147), fabric time (R162 to R164, R228).
-/

namespace Sys2Proof.Machine

/-! ### Malformed frames (R134) -/

/-- LENGTH or REQ_LEN outside the range of the frame's type (Tables 4.3 and 4.4, R133). -/
def badLength (h : Hdr) : Bool :=
  let n := h.length.toNat
  let t := h.type.toNat
  if t = 1 then decide (n ≠ 0 ∨ h.reqLen = 0 ∨ 4096 < h.reqLen)
  else if t = 2 then decide (n = 0 ∨ 4096 < n)
  else if t = 5 then (if h.subtype = 3 then decide (n ≠ 8 ∧ n ≠ 16) else decide (n ≠ 4 ∧ n ≠ 8))
  else if t = 6 then (if h.subtype = 0 then decide (n ≠ 0 ∨ (h.reqLen ≠ 4 ∧ h.reqLen ≠ 8)) else decide (n ≠ 4 ∧ n ≠ 8))
  else if t = 7 then
    let d := fld h.tw.toNat 0 5
    decide (d < 3 ∨ 16 < d ∨ n < 4 * d ∨ 4 * d + 4096 < n)
  else decide (4096 < n)

/-- A frame that R134 calls malformed. A TLP whose ECRC check failed is one (R248). -/
def malformed (f : Frame) : Bool :=
  let h := f.hdr
  let t := h.type.toNat
  decide (t = 0 ∨ 9 < t) ||
  decide (t = 5 ∧ (h.subtype = 0 ∨ 3 < h.subtype)) || decide (t = 6 ∧ 1 < h.subtype) || decide (t = 9 ∧ (h.subtype = 0 ∨ 4 < h.subtype)) ||
  decide ((t = 7 ∨ t = 8) ∧ h.subtype.toNat % 4 = 3) || decide (h.colour = 3) || badLength h ||
  decide ((t = 1 ∨ t = 2 ∨ t = 5 ∨ t = 6) ∧ 4096 < h.addr.toNat % 4096 + h.span) ||
  decide (h.kind ≠ .completion ∧ h.status ≠ 0) || decide (h.kind = .completion ∧ 0xA < h.status) ||
  (match f.tlp with | some t => t.td && !t.ecrcOk | none => false)

/-- LINK_STATE and TIME frames are link-local: they are neither routed nor checked (R146, R162, R240). -/
def linkLocal (h : Hdr) : Bool := decide (h.type = tyManagement ∧ (h.subtype = 1 ∨ h.subtype = 2))

/-! ### Tables and epochs -/

/-- The tables that a PU uses: those of the newest commit, or those before a commit that is not yet in effect there (R26). -/
def State.view (s : State) (pu : Nat) : Tables := (Tab.get none s.fabric.stale pu).getD s.fabric.tables

/-- The epoch of a table (R150). -/
def Tables.ep (t : Tables) (k : TableKind) : BitVec 2 := Tab.get 0 t.epoch k.code

/-- The tables in the order of TABLES. -/
def allTables : List TableKind := [.route, .group, .endpoint, .window, .policy]

/-- The frames in the device that matched an epoch of a table (R151). -/
def State.epochFrames (s : State) (k : TableKind) (e : BitVec 2) : Nat := (s.framesWith fun r => r.epochs.contains (k, e)).length

/-- Write an entry only where one is staged. -/
def mergeTab {α : Type} [DecidableEq α] (d : α) (t : Tab α) (w : Tab (Option α)) : Tab α :=
  w.foldl (fun a e => match e.2 with | some v => Tab.put d a e.1 v | none => a) t

/-- Clear the entries of a table that a test picks. -/
def dropTab {α : Type} (t : Tab α) (f : Nat → α → Bool) : Tab α := t.filter fun e => !f e.1 e.2

/-- A staged write of the policy table takes effect (R235, R237). -/
def PolicyWrite.apply (t : Policy) : PolicyWrite → Policy
  | .owner p o => { t with owner := Tab.put 0 t.owner p o }
  | .pwOwner b o => if b then { t with ownerB := o } else { t with ownerA := o }
  | .destroy o =>
    { t with owner := dropTab t.owner fun _ v => decide (v = o), ownerA := if t.ownerA = o then 0 else t.ownerA
             ownerB := if t.ownerB = o then 0 else t.ownerB, grant := dropTab t.grant fun k _ => decide (k / 256 = o.toNat ∨ k % 256 = o.toNat) }
  | .grant a b v => { t with grant := Tab.put false t.grant (256 * a.toNat + b.toNat) v }
  | .trust p v => { t with trust := Tab.put 0 t.trust p v }
  | .shared p r => { t with shared := Tab.put none t.shared p (some r), trust := Tab.put 0 t.trust p 2 }
  | .inst p id r => { t with inst := Tab.put none t.inst (256 * p + id) (some r) }
  | .instRemove p id => { t with inst := Tab.put none t.inst (256 * p + id) none }
  | .vh v r => { t with vh := Tab.put none t.vh v r }
  | .bind v k b => { t with bind := Tab.put none t.bind (32 * v + k) b }

/-- The policy table once its staged writes take effect. -/
def State.stagedPolicy (s : State) : Policy := s.fabric.staged.policy.foldl PolicyWrite.apply s.policy

/-- Instances whose destruction has ended (R264). -/
def State.goneInsts (s : State) : List Nat := (s.parts.insts.filter fun e => e.2.gone).map Prod.fst

/-- The policy table that the next commit puts in force: staged writes, without the instances whose destruction has ended. -/
def State.nextPolicy (s : State) : Policy :=
  s.goneInsts.foldl (fun t k => PolicyWrite.apply t (.instRemove (k / 256) (k % 256))) s.stagedPolicy

/-- The tables once the staged writes of `l` take effect, with their epochs advanced (R149, R150). -/
def State.nextTables (s : State) (l : List TableKind) : Tables :=
  let t := s.fabric.tables
  let w := s.fabric.staged
  let on (k : TableKind) : Bool := l.contains k
  { route := if on .route then mergeTab .invalid t.route w.route else t.route
    group := if on .group then mergeTab {} t.group w.group else t.group
    endpoint := if on .endpoint then w.endpoint.foldl (fun a e => match e.2 with | some v => Tab.put none a e.1 (some v) | none => a) t.endpoint
      else t.endpoint
    window := if on .window then mergeTab {} t.window w.window else t.window
    policy := if on .policy then s.nextPolicy else t.policy
    epoch := l.foldl (fun a k => Tab.mod 0 a k.code (· + 1)) t.epoch }

/-- Staged writes without those of the tables in `l`. -/
def Staged.drop (w : Staged) (l : List TableKind) : Staged :=
  let on (k : TableKind) : Bool := l.contains k
  { route := if on .route then [] else w.route, group := if on .group then [] else w.group, endpoint := if on .endpoint then [] else w.endpoint
    window := if on .window then [] else w.window, policy := if on .policy then [] else w.policy }

/-- Every PU that still uses older tables keeps them, and the others keep the tables before this commit until it is in effect there (R26). -/
def State.staleFrom (s : State) (old : Tables) : Tab (Option Tables) :=
  (List.range 128).foldl (fun a pu => if (Tab.get none a pu).isSome then a else Tab.put none a pu (some old)) s.fabric.stale

/-- Buckets whose member is down when the group table is committed: they are failed over from then on (R142). -/
def State.downBuckets (s : State) (g : Tab GroupEntry) : List Nat :=
  g.flatMap fun e => ((List.range 64).filter fun b =>
    match e.2.members[nth 16 e.2.buckets b]? with | some q => !s.up (2 * q) | none => false).map fun b => 64 * e.1 + b

/-- Put tables in force (R149): the group table takes the pending HASH_SEED and returns buckets to their members. -/
def State.install (s : State) (t : Tables) (group : Bool) : State :=
  s.modFab fun f =>
    { f with
      stale := s.staleFrom f.tables, tables := t
      hashSeed := if group then f.seedPending.getD f.hashSeed else f.hashSeed
      seedPending := if group then none else f.seedPending
      failed := if group then s.downBuckets t.group else f.failed }

/-- The partitions that a list of writes destroys. -/
def destroyed (l : List PolicyWrite) : List (BitVec 8) := l.filterMap fun w => match w with | .destroy o => some o | _ => none

/-- A destroyed partition's level returns to RESULT and its Jugglers to partition 0 (R235). -/
def State.endPartition (s : State) (o : BitVec 8) : State :=
  (s.modParts fun x => { x with timing := Tab.put false x.timing o.toNat false, lapsed := Tab.put false x.lapsed o.toNat false }).modJug fun j =>
    { j with engines := Tab.mapAll {} j.engines fun e => if e.owner = o then { e with owner := 0 } else e }

/-- Functions of virtual switches that begin anew with a policy table: those of a VH created or removed, and the instance function of a vDSP whose binding changes. -/
def newFns (old new : Policy) : List (Nat × Nat) :=
  ((List.range 128).filter fun v => decide (Tab.get none old.vh v ≠ Tab.get none new.vh v)).flatMap (fun v => (List.range 66).map fun n => (v, n)) ++
  (((old.bind ++ new.bind).map Prod.fst).filter fun k => decide (Tab.get none old.bind k ≠ Tab.get none new.bind k)).map fun k => (k / 32, 34 + k % 32)

/-- What a policy commit brings (R235, R262, R264): partitions that end, functions that begin, instances that begin and end. -/
def State.policyEffects (s : State) (old new : Policy) (writes : List PolicyWrite) : State :=
  let s0 := (destroyed writes).foldl State.endPartition s
  let s1 := (newFns old new).foldl (fun t f => t.resetFn f.1 f.2) s0
  let ended := old.inst.filterMap fun e => if (Tab.get none new.inst e.1).isNone then some e.1 else none
  let begun := new.inst.filterMap fun e => if (Tab.get none old.inst e.1).isNone then e.2.map fun r => (e.1, r) else none
  let s2 := s1.modParts fun x => { x with insts := ended.foldl (fun a k => Tab.put {} a k {}) x.insts }
  begun.foldl (fun t (e : Nat × InstRec) =>
    let p := e.1 / 256
    let id := e.1 % 256
    ((t.modInst p id fun x => { x with state := .active }).evInst p id 0).writeIcb p id (fun i =>
      { i with enable := true, npCredits := BitVec.ofNat 16 e.2.credits, log2 := BitVec.ofNat 6 e.2.log2, base := e.2.base }) [1, 0]) s2

/-- The first named table whose next epoch still has frames in the device (R150). -/
def State.busyTable (s : State) (l : List TableKind) : Option TableKind :=
  l.find? fun k => decide (0 < s.epochFrames k (s.fabric.tables.ep k + 1))

/-- Commit the staged writes of named tables, none of which is busy. -/
def State.commit (s : State) (l : List TableKind) : State :=
  let old := s.policy
  let writes := s.fabric.staged.policy
  let t := s.nextTables l
  let s1 := (s.install t (l.contains .group)).modFab fun f => { f with staged := f.staged.drop l }
  let s2 := if l.contains .policy then s1.policyEffects old t.policy writes else s1
  s2.checkLapses

/-- The epochs of the five tables, 2 bits each. -/
def Tables.epochBits (t : Tables) : Nat := packBits (allTables.map fun k => ((t.ep k).toNat, 2))

/-! ### Multipath -/

/-- The lead quad that a frame routed to a group takes, and whether it is served by another member than its own (R141, R142); none for a group without members. -/
def State.member (s : State) (t : Tables) (h : Hdr) (g : Nat) : Option (Nat × Bool) :=
  let e := Tab.get {} t.group g
  let n := e.members.length
  if n = 0 then none
  else
    let b := (multipathHash s.fabric.hashSeed h.src h.dst h.cls).toNat % 64
    let i := nth 0 e.buckets b
    let own := nth 0 e.members i
    let order := if s.fabric.failed.contains (64 * g + b) then (List.range n).map (· + 1) else List.range n
    match order.find? fun j => s.up (2 * nth 0 e.members ((i + j) % n)) with
    | some j => some (nth 0 e.members ((i + j) % n), decide (j % n ≠ 0))
    | none => some (own, false)

/-! ### Discovery and up*/down* routes (R146 to R148) -/

/-- The native ports with a link up to an XM5120. -/
def State.fabricPorts (s : State) : List Nat := s.allPorts.filter fun p => (s.port p).linkUp && decide ((s.partner p).kind = 1)

/-- The switch at the other end of a port. -/
def State.neighbour (s : State) (p : Nat) : Nat := (s.partner p).geid.toNat / 256

/-- The neighbours of this switch that are not ignored under R148. -/
def State.ownLinks (s : State) : List (Nat × Nat) :=
  (s.fabricPorts.filter fun p =>
    match Tab.get none s.fabric.links (s.neighbour p) with
    | some r => decide (r.conflict ≠ some (s.partner p).uid)
    | none => true).map fun p => (leadOf p, s.neighbour p)

/-- The record that this switch floods (R146). -/
def State.ownRecordLs (s : State) : LinkStateRec :=
  { sw := s.fabric.switchId, uid := s.part.nodeUid, seq := s.fabric.ownLinkSeq
    nbrs := s.fabricPorts.map fun p => ⟨BitVec.ofNat 12 (s.neighbour p), BitVec.ofNat 7 (leadOf p), BitVec.ofNat 5 (s.partner p).width.toNat⟩ }

/-- The neighbours of a switch as the records held show them. -/
def State.linksOf (s : State) (sw : Nat) : List Nat :=
  if sw = s.fabric.switchId.toNat then s.ownLinks.map Prod.snd
  else
    match Tab.get none s.fabric.links sw with
    | some r => r.record.nbrs.map fun n => n.sw.toNat
    | none => []

/-- Breadth-first search: the nodes reached, each with its distance. -/
def search (step : Nat → List Nat) : Nat → List Nat → List (Nat × Nat) → Nat → List (Nat × Nat)
  | 0, _, seen, _ => seen
  | n + 1, front, seen, d =>
    let new := ((front.flatMap step).eraseDups).filter fun x => !(seen.any fun e => decide (e.1 = x))
    if new = [] then seen else search step n new (seen ++ new.map fun x => (x, d + 1)) (d + 1)

/-- The distance of a node in the result of a search. -/
def distOf (l : List (Nat × Nat)) (x : Nat) : Option Nat := (l.find? fun e => decide (e.1 = x)).map Prod.snd

/-- Switches known, this one included. -/
def State.switches (s : State) : Nat := s.fabric.links.length + 2

/-- The root of R147: the lowest switch ID reachable from here. -/
def State.rootSwitch (s : State) : Nat :=
  let own := s.fabric.switchId.toNat
  ((search s.linksOf s.switches [own] [(own, 0)] 0).map Prod.fst).foldl min own

/-- The next hops of every reachable switch under the up*/down* rule (R147): destination and up to 16 lead quads, lowest first. -/
def State.nextHops (s : State) : List (Nat × List Nat) :=
  let own := s.fabric.switchId.toNat
  let root := s.rootSwitch
  let lv := search s.linksOf s.switches [root] [(root, 0)] 0
  let level (x : Nat) : Nat := (distOf lv x).getD 8192
  let up (a b : Nat) : Bool := decide (level b < level a ∨ (level b = level a ∧ b < a))
  -- a node is 2 × switch, plus 1 once the path has gone down
  let step (n : Nat) : List Nat :=
    let a := n / 2
    (s.linksOf a).filterMap fun b => if n % 2 = 0 then some (if up a b then 2 * b else 2 * b + 1) else if up a b then none else some (2 * b + 1)
  let first (b : Nat) : Nat := if up own b then 2 * b else 2 * b + 1
  let runs := s.ownLinks.map fun l => (l.1, search step (2 * s.switches) [first l.2] [(first l.2, 0)] 0)
  let dist (r : List (Nat × Nat)) (x : Nat) : Option Nat :=
    match distOf r (2 * x), distOf r (2 * x + 1) with
    | some a, some b => some (min a b)
    | some a, none => some a
    | none, o => o
  let dests := (((search s.linksOf s.switches [own] [(own, 0)] 0).map Prod.fst).filter fun x => decide (x ≠ own)).foldl (fun a x => insertNat x a) []
  dests.filterMap fun x =>
    let ds := runs.filterMap fun r => (dist r.2 x).map fun d => (r.1, d)
    match leastBy id (ds.map Prod.snd) with
    | none => none
    | some m => some (x, (((ds.filter fun e => decide (e.2 = m)).map Prod.fst).foldl (fun a q => insertNat q a) []).take 16)

/-- The route and group tables of R147. -/
def State.computedRoutes (s : State) : Tab RouteEntry × Tab GroupEntry :=
  s.nextHops.foldl (fun (a : Tab RouteEntry × Tab GroupEntry) e =>
    match e.2 with
    | [] => a
    | [q] => (Tab.put .invalid a.1 e.1 (.port q), a.2)
    | q :: l =>
      match a.2.find? fun g => decide (g.2.members = q :: l) with
      | some g => (Tab.put .invalid a.1 e.1 (.group g.1), a.2)
      | none =>
        if a.2.length < 256 then
          let n := a.2.length
          (Tab.put .invalid a.1 e.1 (.group n),
           Tab.put {} a.2 n { members := q :: l, buckets := (List.range 64).map fun b => b % (l.length + 1) })
        else (Tab.put .invalid a.1 e.1 (.port q), a.2)) ([], [])

/-- Efnuquin commits its routes (R147): EV_ROUTES_COMMITTED with the new epochs, or a retry where a table is busy. -/
def State.commitRoutes (s : State) : State :=
  match s.busyTable [.route, .group] with
  | some _ => s.modFab fun f => { f with topoPending := false, commitRetry := true }
  | none =>
    let (r, g) := s.computedRoutes
    let t := s.fabric.tables
    let t1 := { t with route := r, group := g, epoch := [TableKind.route, .group].foldl (fun a k => Tab.mod 0 a k.code (· + 1)) t.epoch }
    let s1 := (s.install t1 true).modFab fun f => { f with topoPending := false, commitRetry := false }
    s1.raise 0x0400 [((t1.ep .route).toNat, 1), ((t1.ep .group).toNat, 1)] []

/-- A link-local management frame to the partner of a port (R146, R162). -/
def State.sendLocal (s : State) (p : Nat) (subtype : BitVec 8) (payload : List Byte) : State :=
  let uid := s.car.nextUid
  (s.inject s.mgmt.homeRm
    { hdr := { dst := 0, src := s.geid 0, type := tyManagement, subtype := subtype, length := BitVec.ofNat 13 payload.length }, payload := payload }).modFrame
    uid fun r => { r with place := .lookedUp, egress := ⟨leadOf p, 0⟩, inc := (s.link p).inc }

/-- The first link-local frame from a port that stands in the Ringmaster's inbox leaves it. -/
def State.takeLocal (s : State) (p : Nat) (subtype : BitVec 8) : State :=
  match (s.framesWith fun r => decide (r.place = .inbox ∧ r.src = p ∧ r.frame.hdr.type = tyManagement ∧ r.frame.hdr.subtype = subtype)).head? with
  | some uid => s.discard uid
  | none => s

/-! ### Fabric time (R162 to R164) -/

/-- The entry of a gate list at a fabric time, and cycles since its start (R222, R228). -/
def GateList.at_ (g : GateList) (t : Nat) : Nat × Nat :=
  let d : Int := (t : Int) - g.start
  let off := (d % max 1 g.cycle).toNat
  let k := (g.entries.foldl (fun (a : Nat × Nat) e => if a.2 + e.2 ≤ off then (a.1 + 1, a.2 + e.2) else (a.1, off + 1)) (0, 0)).1
  (min k (g.entries.length - 1), (d / max 1 g.cycle).toNat)

/-- The gates of every port follow fabric time after a step (R228): EV_GATE_TIME_STEP for each gated port. -/
def State.gatesFollow (s : State) : State :=
  s.each ((s.sched.ports.filter fun e => e.2.gate.isSome).map Prod.fst) fun t p =>
    match (t.schedOf p).gate with
    | none => t
    | some g =>
      let (k, n) := g.at_ t.fabNs
      (t.modSched p fun x => { x with gateEntry := k, gateCycles := n }).raise 0x0602 [(p, 1)] [t.portOwner p]

/-- Fabric time is stepped by an error above 1 µs, and otherwise the error in ps is slewed out (R163). -/
def State.steer (s : State) (ps : Int) : State :=
  if ps < -1000000 ∨ 1000000 < ps then
    ((s.modTime fun t => { t.setNs (((s.fabNs : Int) + ps / 1000).toNat) with slew := 0 })).gatesFollow
  else s.modTime fun t => { t with slew := ps * 65536 / 1000 }

end Sys2Proof.Machine
end

