-- ==== Sys2Proof/Machine/MeterOps.lean ====
section
/-!
DEFINITION. Token buckets (R209 to R211), meters (R213 to R216), penalty queues (R217 to R221).
-/

namespace Sys2Proof.Machine

/-! ### Buckets -/

/-- One frame in the unit of a level. -/
def oneFrame : Int := 4294967296

/-- A peak bucket allows a frame; with rate 0 it is unlimited (R210). -/
def Bucket.peakOk (b : Bucket) : Bool := decide (b.rate = 0 ∨ 0 ≤ b.level)
/-- A committed bucket stands at or above 0; with rate 0 it provides no commitment (R210). -/
def Bucket.committedOk (b : Bucket) : Bool := decide (b.rate ≠ 0 ∧ 0 ≤ b.level)
/-- Allowing a frame subtracts 1 (R209). -/
def Bucket.debit (b : Bucket) : Bucket := if b.rate = 0 then b else { b with level := b.level - oneFrame }

/-- A change of configuration, which takes effect at the next refill (R211). -/
def Bucket.configure (b : Bucket) (rate burst : Nat) : Bucket := { b with pending := some (rate, burst) }

/-- The refill of 160 ns (R209, R211): the increment is exact, its part below 2^-32 of a frame is carried. -/
def Bucket.refill (b : Bucket) : Bucket :=
  let b1 : Bucket := match b.pending with
    | none => b
    | some (r, n) => { rate := r, burst := n, level := if b.rate = 0 ∧ r ≠ 0 then n * oneFrame else b.level, carry := b.carry }
  if b1.rate = 0 then b1
  else
    let t := b1.rate * 160 * 16777216 + b1.carry
    { b1 with level := min (b1.burst * oneFrame) (b1.level + (t / 1000000000 : Nat)), carry := t % 1000000000 }

/-- The least burst of a rate: max(1, ⌈r × 160 ns⌉), or none needed for rate 0 (R210). -/
def minBurst (rate : Nat) : Nat := if rate = 0 then 0 else max 1 (ceilDiv (rate * 160) 256000000000)

/-! ### Meters -/

/-- Colour green. -/
abbrev coGreen : BitVec 2 := 0
/-- Colour yellow. -/
abbrev coYellow : BitVec 2 := 1
/-- Colour red. -/
abbrev coRed : BitVec 2 := 2

/-- A meter. -/
def State.meter (s : State) (m : Nat) : Meter := Tab.get {} s.sched.meters m
/-- Change a meter. -/
def State.modMeter (s : State) (m : Nat) (f : Meter → Meter) : State :=
  { s with sched := { s.sched with meters := Tab.mod {} s.sched.meters m f } }
/-- A penalty queue of a PU. -/
def State.penalty (s : State) (k : Nat) : PenaltyQueue := Tab.get {} s.sched.penalty k
/-- Change a penalty queue. -/
def State.modPenalty (s : State) (k : Nat) (f : PenaltyQueue → PenaltyQueue) : State :=
  { s with sched := { s.sched with penalty := Tab.mod {} s.sched.penalty k f } }

/-- The colour that a meter finds, and the meter with its buckets debited (Table 6.3). -/
def Meter.test (m : Meter) (arriving : BitVec 2) : BitVec 2 × Meter :=
  let c := if m.aware then arriving else coGreen
  if c = coRed ∨ m.peak.peakOk = false then (coRed, m)
  else if c = coGreen ∧ m.committed.committedOk then (coGreen, { m with committed := m.committed.debit, peak := m.peak.debit })
  else (coYellow, { m with peak := m.peak.debit })

/-- A meter at its refill (R209, R221). -/
def Meter.refill (m : Meter) : Meter :=
  let m1 : Meter := match m.pending with
    | none => m
    | some (en, aw, dem, pq) => { m with enable := en, aware := aw, demote := dem, pq := pq, pending := none }
  { m1 with committed := m1.committed.refill, peak := m1.peak.refill }

/-- The meter of a frame (R213, R214, R261): that of the instance it was sent for, or the mapped one. -/
def State.meterFor (s : State) (t : Policy) (r : FrameRec) : Option Nat :=
  let h := r.frame.hdr
  if h.kind = .completion ∨ h.vc = 7 then none
  else
    match (r.fromInst.bind fun i => t.instAt i.1 i.2).bind fun i => i.meter with
    | some m => some m
    | none => Tab.get none s.sched.meterMap (8 * r.src + h.cls.toNat)

/-- The penalty queue key of a meter. -/
def State.pqOf (s : State) (m : Nat) : Nat := 64 * (m / 128) + (s.meter m).pq

/-- The penalty queue that holds a frame of the same flow: input, egress and class (R218). -/
def State.flowPenalty (s : State) (r : FrameRec) : Option Nat :=
  (s.sched.penalty.find? fun e => e.2.frames.any fun u =>
    match s.frame? u with
    | some x => decide (x.src = r.src ∧ x.egress = r.egress ∧ x.frame.hdr.cls = r.frame.hdr.cls)
    | none => false).map Prod.fst

/-- A penalty queue is full (R219). -/
def PenaltyQueue.full (q : PenaltyQueue) : Bool := decide (q.limit ≤ q.frames.length)

/-- EV_PENALTY_FULL the first time a queue becomes full after it was below its limit, at most once per second (R219). -/
def State.checkFull (s : State) (k : Nat) : State :=
  let q := s.penalty k
  if q.full = q.wasFull then s
  else if q.full = false then s.modPenalty k fun q => { q with wasFull := false }
  else
    let quiet := match q.lastEvent with | some t => decide (s.now - t < 1000000000) | none => false
    let s1 := s.modPenalty k fun q => { q with wasFull := true, lastEvent := if quiet then q.lastEvent else some s.now }
    if quiet then s1 else s1.raise 0x0600 [(k / 64, 1), (k % 64, 1)] ((s1.portsOfQuad (k / 64)).map s1.portOwner)

/-- A frame joins the tail of a penalty queue with room (R217). -/
def State.joinPenalty (s : State) (uid k : Nat) : State :=
  match s.frame? uid with
  | none => s
  | some r =>
    let s1 := (s.modWaiting r.src r.vc (·.erase uid)).setFrame uid (some { r with place := .penalty, queuedAt := s.now })
    let s2 := s1.modPenalty k fun q => { q with frames := q.frames ++ [uid], occHwm := max q.occHwm (q.frames.length + 1) }
    let s3 := match r.meter with | some m => s2.modMeter m fun x => { x with held := inc48 x.held } | none => s2
    (s3.pmon (k / 64) 0x18B 0 1).checkFull k

/-- A frame is to be held in a penalty queue: it joins, or waits at its ingress VC while the queue is full (R219). -/
def State.holdFrame (s : State) (uid k : Nat) : State :=
  if (s.penalty k).full then
    (s.modFrame uid fun r => { r with place := .penaltyFull, endPu := k }).modPenalty k fun q => { q with fullWaits := inc48 q.fullWaits }
  else s.joinPenalty uid k

/-- A frame that has been looked up passes its meter, if it has one (R215 to R220). -/
def State.meterFrame (s : State) (t : Policy) (uid : Nat) : State :=
  match s.frame? uid with
  | none => s
  | some r =>
    let mm := s.meterFor t r
    let s0 := s.setFrame uid (some { r with meter := mm })
    match s.flowPenalty r with
    | some k => if r.frame.hdr.kind = .completion ∨ r.frame.hdr.vc = 7 then s0 else s0.holdFrame uid k
    | none =>
      match mm with
      | none => s0
      | some m =>
        let x := s.meter m
        if x.enable = false then s0.modFrame uid fun r => { r with meter := none }
        else
          let (c, y) := x.test r.arrivalColour
          let y1 := if c = coGreen then { y with green := inc48 y.green } else if c = coYellow then { y with yellow := inc48 y.yellow }
            else { y with red := inc48 y.red }
          let pu := puOf r.src
          let ev := if c = coGreen then 0x188 else if c = coYellow then 0x189 else 0x18A
          let s1 := ((s0.pmon pu ev 0 1).modMeter m fun _ => y1).modFrame uid fun r => { r with frame := { r.frame with hdr := { r.frame.hdr with colour := c } } }
          if c ≠ coRed then s1
          else if x.demote then
            ((s1.pmon pu 0x18E 0 1).modMeter m fun y => { y with demoted := inc48 y.demoted }).modFrame uid fun r =>
              { r with demoted := true, frame := { r.frame with hdr := { r.frame.hdr with cls := 0 } } }
          else s1.holdFrame uid (s.pqOf m)

/-- The head of a penalty queue is released to VOQ admission with a colour (R217). -/
def State.releasePenalty (s : State) (k uid : Nat) (c : BitVec 2) : State :=
  match s.frame? uid with
  | none => s.modPenalty k fun q => { q with frames := q.frames.drop 1 }
  | some r =>
    let f := { r.frame with hdr := { r.frame.hdr with colour := c } }
    let s1 := s.modPenalty k fun q => { q with frames := q.frames.drop 1, sojHwm := max q.sojHwm (min (s.now - r.queuedAt) (2 ^ 32 - 1)) }
    let s2 := (s1.setFrame uid (some { r with place := .lookedUp, frame := f })).modWaiting r.src r.vc (· ++ [uid])
    let s3 := match r.meter with | some m => s2.modMeter m fun x => { x with released := inc48 x.released } | none => s2
    (s3.pmon (k / 64) 0x18C 0 1).checkFull k

/-- End the frames of a penalty queue whose age has reached the lifetime limit (R153, R221). -/
def State.expirePenalty (s : State) (k : Nat) : State :=
  s.each (s.penalty k).frames fun t uid =>
    match t.frame? uid with
    | some r => if t.expired r then (t.endFrame uid (k / 64) .lifetime).checkFull k else t
    | none => t

/-- The heads of a penalty queue after a refill: released, or kept (R217, R218, R221). -/
def State.servePenalty (s : State) (k : Nat) : Nat → State
  | 0 => s
  | n + 1 =>
    match (s.penalty k).frames with
    | [] => s
    | uid :: _ =>
      match s.frame? uid with
      | none => (s.modPenalty k fun q => { q with frames := q.frames.drop 1 }).servePenalty k n
      | some r =>
        match r.meter with
        | none => (s.releasePenalty k uid r.frame.hdr.colour).servePenalty k n
        | some m =>
          let x := s.meter m
          if x.enable = false then (s.releasePenalty k uid r.arrivalColour).servePenalty k n
          else
            let (c, y) := x.test r.arrivalColour
            if c = coRed then s else ((s.modMeter m fun _ => y).releasePenalty k uid c).servePenalty k n

/-- The refill of every shaper and meter, and the penalty queues after it (R209, R217). -/
def State.refill (s : State) : State :=
  let q (x : EgressQueue) : EgressQueue := { x with committed := x.committed.refill, peak := x.peak.refill }
  let p (x : Sched) : Sched :=
    { x with queues := (x.queues.map fun e => (e.1, q e.2)).filter fun e => decide (e.2 ≠ queueDefault e.1), portPeak := x.portPeak.refill }
  let s1 : State := { s with sched :=
    { s.sched with ports := Tab.mapAll {} s.sched.ports p, meters := Tab.mapAll {} s.sched.meters Meter.refill } }
  s1.each (s1.sched.penalty.map Prod.fst) fun t k =>
    let t1 := t.expirePenalty k
    t1.servePenalty k ((t1.penalty k).frames.length + 1)

end Sys2Proof.Machine
end

