-- ==== Sys2Proof/Machine/Pages.lean ====
section
/-!
DEFINITION. The global page and the mailbox pages (Tables 11.2 and 11.3), the paths that reach them (Table 11.1, R372, R373), and what a read or a write of a page does.
-/

namespace Sys2Proof.Machine

/-- A path to the pages (Table 11.1). -/
inductive Path where
  /-- A frame to index 0x00 with its PARTITION; the flag says that it entered on a port of the MB0 port list. -/
  | frame (part : BitVec 8) (listed : Bool)
  /-- BAR0 of the management function of a VH. -/
  | vh (v : Nat)
  /-- The management serial port. -/
  | serial
  deriving DecidableEq, Repr

/-- The tenant mailboxes of a partition, in increasing order. -/
def State.tenantMbs (s : State) (p : BitVec 8) : List Nat :=
  if p = 0 then [] else (List.range 64).filter fun n => !privilegedMb n && decide ((s.mbox n).owner = p)

/-- The mailboxes of slots 0 to 2 of a VH's BAR0 (Table 11.1). -/
def State.vhSlots (s : State) (v : Nat) : List Nat :=
  match Tab.get none s.policy.vh v with
  | none => []
  | some r => ((if s.mgmt.portList.contains r.port then [0] else []) ++ s.tenantMbs (s.portOwner r.port)).take 3

/-- The mailboxes that a path may use (Table 11.1). -/
def State.usable (s : State) (x : Path) : List Nat :=
  match x with
  | .frame p listed => (if listed then [0] else []) ++ s.tenantMbs p
  | .vh v => s.vhSlots v
  | .serial => [63]

/-- The boot status word at 0x010 (Table 11.2). -/
def Mgmt.bootWord (m : Mgmt) : Nat :=
  packBits [(m.stage.toNat, 4), (b2n m.image, 1), (b2n m.fallback, 1), (b2n m.trial, 1), (b2n m.preheat, 1), (m.bootErr.toNat, 8),
    (m.bootMs.toNat, 16), (m.fwVersion.toNat, 24)]

/-- A mask of mailbox numbers. -/
def maskOf (l : List Nat) : Nat := l.foldl (fun a n => a ||| 2 ^ n) 0

/-- A 64-bit word of the global page (Table 11.2), as a path sees it. -/
def State.globalWord (s : State) (x : Path) (off : Nat) : Nat :=
  match off with
  | 0x000 => packBits [(0x5120, 16), (s.part.stepping.toNat, 8), (b2n s.part.lcX, 2)]
  | 0x008 => s.part.nodeUid.toNat
  | 0x010 => s.mgmt.bootWord
  | 0x018 => packBits [(b2n s.faults.aliveRunning, 1), (b2n s.faults.aliveLevel, 1), (s.faults.stopCause.toNat, 2)]
  | 0x020 => maskOf ((s.usable x).filter fun n => (s.mbox n).done || (s.mbox n).event)
  | 0x028 => maskOf (s.usable x)
  | _ => 0

/-- A byte of the global page. -/
def State.globalByte (s : State) (x : Path) (a : Nat) : Byte := BitVec.ofNat 8 (s.globalWord x (a / 8 * 8) >>> (8 * (a % 8)))

/-- A byte of a mailbox page (Table 11.3). -/
def State.pageByte (s : State) (n a : Nat) : Byte :=
  let m := s.mbox n
  if a < 0x1000 then Tab.get 0 m.cmd a
  else if a < 0x2000 then Tab.get 0 m.resp (a - 0x1000)
  else if a / 8 = 0x401 then BitVec.ofNat 8 (m.statusWord n s.mgmt.available >>> (8 * (a % 8)))
  else if a / 8 = 0x402 then BitVec.ofNat 8 (m.queueWord >>> (8 * (a % 8)))
  else if 0x3000 ≤ a ∧ a < 0x3800 then nth 0 (Tab.get {} m.evq ((a - 0x3000) / 32)).bytes (a % 32)
  else 0

/-! ### Writes -/

/-- A write of EVQ_HEAD: only a value that lies cyclically between the head and the tail (R375). -/
def Mailbox.setHead (m : Mailbox) (v : BitVec 6) : Mailbox := if v - m.evqHead ≤ m.evqTail - m.evqHead then { m with evqHead := v } else m

/-- A write of the W1C bits of STATUS, by the byte at +0x2008 (Table 11.3, R9). -/
def Mailbox.clearStatus (m : Mailbox) (v : Byte) : Mailbox :=
  let m1 := if v.getLsbD 1 then { m with done := false } else m
  let m2 := if v.getLsbD 3 then { m1 with evqOverflow := false, evqLost := 0 } else m1
  if v.getLsbD 5 then { m2 with collision := false } else m2

/-- A byte written to CMD, ignored while BUSY is 1 (R374). -/
def Mailbox.writeCmd (m : Mailbox) (a : Nat) (v : Byte) : Mailbox := if m.busy then m else { m with cmd := Tab.put 0 m.cmd a v }

/-- A doorbell (R374): it submits the command in CMD, or sets COLLISION while BUSY is 1.
A command whose opcode no table gives is answered as soon as the mailbox is served (R377). -/
def State.ring (s : State) (n : Nat) : State :=
  if (s.mbox n).busy then s.modMbox n fun m => { m with collision := true }
  else
    let s1 := s.modMbox n fun m => { m with busy := true }
    if opcodeKnown (s1.mbox n).cmdHdr.opcode then s1 else s1.unknownCmd n

/-- A doorbell of a mailbox that begins with an unknown opcode while the mailboxes were not served is answered when they are (R374). -/
def State.answerHeld (s : State) : State :=
  s.each (List.range 64) fun t n =>
    if (t.mbox n).busy ∧ opcodeKnown (t.mbox n).cmdHdr.opcode = false then t.unknownCmd n else t

/-- A byte written to a mailbox page where only CMD, EVQ_HEAD and the W1C bits accept writes. -/
def State.writePageByte (s : State) (n a : Nat) (v : Byte) : State :=
  if a < 0x1000 then s.modMbox n (·.writeCmd a v)
  else if a = 0x2008 then s.modMbox n (·.clearStatus v)
  else if a = 0x2010 then s.modMbox n (·.setHead (v.setWidth 6))
  else s

/-- A 64-bit write to a register of a mailbox page (Table 11.3). -/
def State.writeMbReg (s : State) (n off v : Nat) : State :=
  if off = 0x2000 then (if v % 2 = 1 then s.ring n else s)
  else if off = 0x2008 then s.modMbox n (·.clearStatus (BitVec.ofNat 8 v))
  else if off = 0x2010 then s.modMbox n (·.setHead (BitVec.ofNat 6 v))
  else s

/-- FORCE_STOP (R429): MANAGER_STOP is recorded as a Fatal error and the XM5120 stops with cause 3. -/
def State.forceStop (s : State) : State :=
  if s.collectorOn then
    let r : FaultRec := { source := 0xF00, error := 1, severity := svFatal, seconds := s.fabric.time.seconds.setWidth 32, ns := s.fabric.time.ns }
    (s.logError r).fatalStop 3
  else s

/-- A 64-bit write to the global page from a path that may use MB0 (R372): FORCE_STOP is its only field that accepts one. -/
def State.writeGlobal (s : State) (off v : Nat) : State := if off = 0x018 ∧ v.testBit 4 then s.forceStop else s

/-! ### Access by address -/

/-- What an address of the index 0x00 path names (Table 11.1). -/
inductive PageAddr where
  | global (off : Nat)
  | mailbox (n off : Nat)
  | nowhere
  deriving DecidableEq, Repr

/-- Decode an address of the index 0x00 path. -/
def pageAddr (a : Nat) : PageAddr :=
  if a < 0x1000 then .global a
  else if 0x10000 ≤ a ∧ a < 0x110000 then .mailbox ((a - 0x10000) / 0x4000) ((a - 0x10000) % 0x4000)
  else .nowhere

/-- Decode an address of BAR0 of a VH's management function: slots 0 to 2 at 0x4000, 0x8000 and 0xC000 (Table 11.1). -/
def State.barAddr (s : State) (v a : Nat) : PageAddr :=
  if a < 0x1000 then .global a
  else if 0x4000 ≤ a ∧ a < 0x10000 then
    match (s.vhSlots v)[a / 0x4000 - 1]? with
    | some n => .mailbox n (a % 0x4000)
    | none => .nowhere
  else .nowhere

/-- The form of an access is allowed: 8 bytes aligned to a register, or any length inside one 4 KiB buffer (R372). -/
def accessOk (off len : Nat) : Bool :=
  if off < 0x2000 ∨ 0x3000 ≤ off then decide (off / 0x1000 = (off + len - 1) / 0x1000) else decide (len = 8 ∧ off % 8 = 0)

/-- The bytes that a read of a page returns. -/
def State.readPage (s : State) (x : Path) (t : PageAddr) (len : Nat) : List Byte :=
  (List.range len).map fun i =>
    match t with
    | .global off => s.globalByte x (off + i)
    | .mailbox n off => s.pageByte n (off + i)
    | .nowhere => 0

/-- A write of bytes to a mailbox page: to CMD, or to one register. -/
def State.writePage (s : State) (n off : Nat) (data : List Byte) : State :=
  if off < 0x1000 then
    s.modMbox n fun m => if m.busy then m else { m with cmd := cellsWrite m.cmd off data }
  else s.writeMbReg n off (natOf data)

/-- An access denied by R372 is counted. -/
def State.denyAccess (s : State) : State := s.modMgmt fun m => { m with accessDeny := inc48 m.accessDeny }

end Sys2Proof.Machine
end

