-- ==== Sys2Proof/Machine/TlpOps.lean ====
section
/-!
DEFINITION. Virtual PCI Express switches: the configuration registers of emulated functions (R242 to R244, R361, R428), the vDSP windows and bindings (R245, R246), wrapping of TLPs (R246 to R249) and unwrapping of completions (R250).
The places of the registers are those of the PCI Express Base Specification, outside the manual (PRESUMED, log entry 22).
-/

namespace Sys2Proof.Machine

/-! ### Registers of emulated functions -/

/-- A register as a host has programmed it; 0 after reset. -/
def State.cfgBits (s : State) (v n reg : Nat) : Nat := (Tab.get 0 (Tab.get [] s.parts.config (fnKey v n)) reg).toNat
/-- Program a register. -/
def State.setCfg (s : State) (v n reg val : Nat) : State :=
  s.modParts fun x => { x with config := Tab.mod [] x.config (fnKey v n) fun t => Tab.put 0 t reg (BitVec.ofNat 32 val) }

/-- The number of an emulated function: 0 upstream, 1 management, 2 + k vDSP k, 34 + k the instance function below it. -/
def fnNumber : EmulatedFn → Nat
  | .upstream => 0
  | .management => 1
  | .vdsp k => 2 + k.val
  | .instanceFn k => 34 + k.val

/-- The kind of a function: 0 upstream port, 1 management function, 2 vDSP, 3 instance function. -/
def fnKind (n : Nat) : Nat := if n < 2 then n else if n < 34 then 2 else 3

/-- A VH's record in the policy table. -/
def State.vhRec (s : State) (v : Nat) : Option VhRec := Tab.get none s.policy.vh v
/-- The binding of vDSP `k` of VH `v`. -/
def State.binding (s : State) (v k : Nat) : Option Binding := Tab.get none s.policy.bind (32 * v + k)

/-- The instance bound to a vDSP, by the port of its endpoint and its ID. -/
def State.boundInst (s : State) (v k : Nat) : Option (Nat × Nat) :=
  match s.binding v k with
  | some (.inst g id) => (s.geidPort g).map fun p => (p, id.toNat)
  | _ => none

/-- A function exists (Table 7.4). -/
def State.fnExists (s : State) (v n : Nat) : Bool :=
  match s.vhRec v with
  | none => false
  | some r =>
    match fnKind n with
    | 2 => decide (n - 2 < r.vdsps)
    | 3 => (s.boundInst v (n - 34)).isSome
    | _ => true

/-- The aperture size of the instance below a vDSP, as a power of two. -/
def State.apertureLog2 (s : State) (v k : Nat) : Nat :=
  match s.boundInst v k with
  | some (p, id) => match s.policy.instAt p id with | some r => r.log2 | none => 12
  | none => 12

/-- The bits of BAR0, lower half first, that a host can program: all above the size of its range (R242, R255). -/
def State.barMask (s : State) (v n : Nat) : Nat :=
  2 ^ 64 - 2 ^ (if n = 1 then 16 else s.apertureLog2 v (n - 34))

/-- The bits of a register that a host can program; the rest are read-only (R244). -/
def State.cfgMask (s : State) (v n reg : Nat) : Nat :=
  let bridge := decide (fnKind n = 0 ∨ fnKind n = 2)
  let on (b : Bool) (m : Nat) : Nat := if b then m else 0
  match reg with
  | 0x04 => 0x0547
  | 0x10 => on (!bridge) (s.barMask v n % 2 ^ 32)
  | 0x14 => on (!bridge) (s.barMask v n / 2 ^ 32)
  | 0x18 => on bridge 0xFFFFFF
  | 0x1C => on bridge 0xF0F0
  | 0x20 => on bridge 0xFFF0FFF0
  | 0x24 => on bridge 0xFFF0FFF0
  | 0x28 => on bridge 0xFFFFFFFF
  | 0x2C => on bridge 0xFFFFFFFF
  | 0x30 => on bridge 0xFFFFFFFF
  | 0x3C => if bridge then 0x4300FF else 0xFF
  | 0x48 => 0x70FF
  | 0x50 => 0xC3
  | 0x58 => on (decide (fnKind n = 2)) 0x103B
  | 0x60 => on (decide (fnKind n = 3)) 0x710000
  | 0x64 => on (decide (fnKind n = 3)) 0xFFFFFFFC
  | 0x68 => on (decide (fnKind n = 3)) 0xFFFFFFFF
  | 0x6C => on (decide (fnKind n = 3)) 0xFFFF
  | 0x84 => 0x3
  | 0x108 => on (decide (fnKind n ≠ 1)) 0xFFFFFFFF
  | 0x10C => on (decide (fnKind n ≠ 1)) 0xFFFFFFFF
  | 0x114 => on (decide (fnKind n ≠ 1)) 0xFFFFFFFF
  | 0x144 => on (decide (fnKind n = 2)) 0xF0000
  | _ => 0

/-- Slot Capabilities of a vDSP (Table 10.5): Attention Button Present, Power Controller Present, Hot-Plug Capable, Physical Slot Number. -/
def State.slotCaps (s : State) (v k : Nat) : Nat :=
  match s.vdspChan v k with
  | none => 1
  | some c => packBits [(1, 1), (b2n (s.chan c).set.hostPower, 1), (0, 4), (1, 1), (0, 12), (c, 13)]

/-- Slot Control and Status of a vDSP without the enables (Table 10.5). -/
def State.slotStatus (s : State) (v k : Nat) : Nat :=
  match s.vdspChan v k with
  | none => 0
  | some c =>
    let x := s.chan c
    packBits [(0, 10), (b2n x.pcc, 1), (0, 5), (b2n x.attention, 1), (b2n x.powerFault, 1), (0, 1), (b2n x.presenceChanged, 1),
      (b2n x.cmdCompleted, 1), (0, 1), (b2n x.present, 1), (0, 1), (b2n x.dllChanged, 1)]

/-- The Vendor ID, Device ID and class code of a function (Table 7.4). -/
def State.fnIds (s : State) (v n : Nat) : Nat × Nat × Nat :=
  match fnKind n with
  | 0 => (0x1E6C, 0x5120, 0x060400)
  | 1 => (0x1E6C, 0x5121, 0x088000)
  | 2 => (0x1E6C, 0x5120, 0x060400)
  | _ =>
    match s.boundInst v (n - 34) with
    | some (p, _) =>
      match Tab.get none s.policy.shared p with
      | some r => (r.vendor.toNat, r.device.toNat, r.classCode.toNat)
      | none => (0xFFFF, 0xFFFF, 0xFFFFFF)
    | none => (0xFFFF, 0xFFFF, 0xFFFFFF)

/-- Data Link Layer Link Active of a vDSP: LINK_UP of the bound port. -/
def State.boundUp (s : State) (v k : Nat) : Bool :=
  match s.binding v k with
  | some (.endpoint g) => match s.geidPort g with | some p => (s.port p).linkUp | none => false
  | some (.inst g _) => match s.geidPort g with | some p => (s.port p).linkUp | none => false
  | none => false

/-- The read-only bits of a register (Tables 7.4 and 7.5); a capability that Table 7.5 does not list reads 0 (R243). -/
def State.cfgConst (s : State) (v n reg : Nat) : Nat :=
  let kind := fnKind n
  match reg with
  | 0x00 => (s.fnIds v n).1 + 65536 * (s.fnIds v n).2.1
  | 0x04 => 0x100000
  | 0x08 => 256 * (s.fnIds v n).2.2 + (Config.cfgFixed kind 8).toNat % 256
  | 0x0C => 65536 * (match kind with | 0 => 0x81 | 1 => 0x80 | 2 => 0x01 | _ => 0)
  | 0x10 => match kind with | 1 => 0x4 | 3 => 0xC | _ => 0
  | 0x1C => if kind = 0 ∨ kind = 2 then 0x0101 else 0
  | 0x24 => if kind = 0 ∨ kind = 2 then 0x10001 else 0
  | 0x34 => 0x40
  | 0x40 => packBits [(0x10, 8), ((if kind = 3 then 0x60 else 0x80), 8), (2, 4), ((match kind with | 0 => 5 | 2 => 6 | _ => 0), 4),
      (b2n (decide (kind = 2)), 1)]
  | 0x44 => 0x8025
  | 0x4C => (Config.cfgFixed kind 0x4C).toNat
  | 0x50 => (Config.cfgFixed kind 0x50).toNat / 65536 % 8192 * 65536 + (if kind = 2 ∧ s.boundUp v (n - 2) then 2 ^ 29 else 0)
  | 0x54 => if kind = 2 then s.slotCaps v (n - 2) else 0
  | 0x58 => if kind = 2 then s.slotStatus v (n - 2) else 0
  | 0x60 => if kind = 3 then 0x8A8005 else 0
  | 0x80 => 0x30001
  | 0x100 => match kind with | 1 => 0 | 2 => 0x14020001 | _ => 0x00020001
  | 0x140 => if kind = 2 then 0x1000D else 0
  | 0x144 => if kind = 2 then 0xF else 0
  | _ => 0

/-- A configuration register as a host reads it. The status registers of AER are stored bits that a host clears. -/
def State.cfgRead (s : State) (v n reg : Nat) : Nat :=
  let m := if reg = 0x104 ∨ reg = 0x110 then 2 ^ 32 - 1 else s.cfgMask v n reg
  (s.cfgConst v n reg &&& (2 ^ 32 - 1 - m)) ||| (s.cfgBits v n reg &&& m)

/-- Copy the MSI registers of an instance function into the ICB (R254). -/
def State.copyMsi (s : State) (v k : Nat) : State :=
  match s.boundInst v k with
  | none => s
  | some (p, id) =>
    let n := 34 + k
    s.writeIcb p id (fun i =>
      { i with msiData := BitVec.ofNat 32 (s.cfgBits v n 0x6C), msiVecLog2 := fbv (s.cfgBits v n 0x60) 20 3, msiEn := bitOf (s.cfgBits v n 0x60) 16
               msiAddr := BitVec.ofNat 64 (s.cfgBits v n 0x64 + 2 ^ 32 * s.cfgBits v n 0x68) }) [2, 3]

/-- A host write of Slot Control and Status: enables are kept, the status bits written 1 are cleared, and the booth controller receives the control bits (R360, R361). -/
def State.writeSlot (s : State) (v k val : Nat) : State :=
  match s.vdspChan v k with
  | none => s
  | some c =>
    let clr (b : Nat) (old : Bool) : Bool := old && !bitOf val (16 + b)
    let s1 := s.modChan c fun x =>
      { x with attention := clr 0 x.attention, powerFault := clr 1 x.powerFault, presenceChanged := clr 3 x.presenceChanged
               cmdCompleted := clr 4 x.cmdCompleted, dllChanged := clr 8 x.dllChanged }
    if s.mgmt.available && s.boothRuns then s1.slotControl v k (BitVec.ofNat 16 val) else s1

/-- A Secondary Bus Reset on a vDSP resets its target; a target to which no reset is signalled is listed in EV_VH_RESET (R251). -/
def State.busReset (s : State) (v k : Nat) : State :=
  let (s1, l) := s.resetTarget v k
  if l = [] then s1 else s1.evVhReset v l

/-- A configuration write to an emulated function (R244). -/
def State.cfgWrite (s : State) (v n reg val : Nat) : State :=
  let m := s.cfgMask v n reg
  let old := s.cfgBits v n reg
  if reg = 0x104 ∨ reg = 0x110 then s.setCfg v n reg (old &&& (2 ^ 32 - 1 - val))
  else
    let s1 := if m = 0 then s else s.setCfg v n reg (val &&& m)
    if fnKind n = 2 ∧ reg = 0x58 then s1.writeSlot v (n - 2) val
    else if fnKind n = 2 ∧ reg = 0x3C ∧ bitOf val 22 ∧ bitOf old 22 = false then s1.busReset v (n - 2)
    else if fnKind n = 3 ∧ (reg = 0x60 ∨ reg = 0x64 ∨ reg = 0x68 ∨ reg = 0x6C) then s1.copyMsi v (n - 34)
    else s1

/-! ### TLPs and tunnel frames -/

/-- PCI Express completion status Successful Completion. -/
abbrev psSC : BitVec 3 := 0
/-- PCI Express completion status Unsupported Request. -/
abbrev psUR : BitVec 3 := 1
/-- PCI Express completion status Completer Abort. -/
abbrev psCA : BitVec 3 := 4

/-- SUBTYPE[1:0] of the tunnel frame of a TLP (Table 4.3). -/
def tlpCode : TlpKind → Nat
  | .memWrite | .msgById | .msgBroadcast | .msgOther => 0
  | .memRead | .ioRead | .ioWrite | .cfgRead | .cfgWrite => 1
  | .completion => 2

/-- A TLP that moves memory. -/
def isMem (t : Tlp) : Bool := t.kind == .memRead || t.kind == .memWrite
/-- An I/O request. -/
def isIo (t : Tlp) : Bool := t.kind == .ioRead || t.kind == .ioWrite
/-- A configuration request. -/
def isCfg (t : Tlp) : Bool := t.kind == .cfgRead || t.kind == .cfgWrite
/-- The bus of a routing ID. -/
def busOf (id : BitVec 16) : Nat := id.toNat / 256

/-- The completion TLP that answers a request. -/
def tlpReply (t : Tlp) (completer : BitVec 16) (st : BitVec 3) (data : List Byte) : Tlp :=
  { kind := .completion, tc := t.tc, reqId := completer, target := t.reqId, tag := t.tag, status := st, len := data.length,
    byteCount := data.length, hdrDw := 3, relaxed := t.relaxed, data := data }

/-- The tunnel frame of a TLP (R133, R246, R427). -/
def tunnelFrame (src dst : Geid) (inst tag : BitVec 12) (part : BitVec 8) (t : Tlp) (pseq : BitVec 16) : Frame :=
  { hdr := { dst := dst, src := src, type := tyPcie, cls := t.tc, tag := tag, poison := t.ep, part := part, inst := inst,
             length := BitVec.ofNat 13 (4 * t.hdrDw.toNat + t.data.length), subtype := BitVec.ofNat 8 (tlpCode t.kind),
             addr := pseq.setWidth 64, tw := t.hdrDw.setWidth 64 }
    tlp := some t }

/-- The key of a posted count: wrapping PU, destination and class (R249). -/
def pseqKey (pu : Nat) (dst : Geid) (cls : BitVec 3) : Nat := (pu * 1048576 + dst.toNat) * 8 + cls.toNat

/-- The PSEQ of the next tunnel frame from a wrapping PU: a posted frame advances the count (R249). -/
def State.nextPseq (s : State) (pu : Nat) (dst : Geid) (t : Tlp) : BitVec 16 × State :=
  let k := pseqKey pu dst t.tc
  let c := Tab.get 0 s.parts.pseq k
  if tlpCode t.kind = 0 then (c + 1, s.modParts fun x => { x with pseq := Tab.put 0 x.pseq k (c + 1) }) else (c, s)

/-- The PU that poisons a frame counts it (R428). -/
def State.countPoison (s : State) (pu : Nat) (b : Bool) : State :=
  if b then s.modFaults fun x => { x with poisonSet := Tab.mod 0 x.poisonSet pu inc48 } else s

/-- The request sent on a port that a completion TLP answers, by the PCI Express tag and Requester ID (R239). -/
def State.requestOf (s : State) (p : Nat) (t : Tlp) : Option OutReq :=
  (s.link p).outReqs.find? fun o => match o.tlp with | some q => decide (q.tag = t.tag ∧ q.reqId = t.target) | none => false

/-- A PCIe-mode port wraps a TLP to a destination (R137, R246, R249): a non-posted request takes a frame tag, and is not accepted while none is free; a completion takes the tag of its request, and is denied where there is none. -/
def State.wrapTlp (s : State) (p : Nat) (dst : Geid) (inst : BitVec 12) (t : Tlp) : State :=
  let pu := leadOf p
  let src := s.portGeid p
  let put (s : State) (tag : BitVec 12) (deny : Bool) (use_ : Bool) : State :=
    let (q, s1) := s.nextPseq pu dst t
    let f := tunnelFrame src dst inst tag (s.portOwner p) t q
    let uid := s1.car.nextUid
    let s2 := if use_ then s1.takeTag f.hdr t.len (some f) else s1
    let s3 := ((s2.arrive p f.hdr.vc f f.blocks).markStore p).countPoison pu t.ep
    if deny then s3.modFrame uid fun r => { r with ending := some .partitionDeny } else s3
  match tlpCode t.kind with
  | 0 => put s 0 false false
  | 1 =>
    match s.freeTag src with
    | none => s
    | some tag => put s tag false true
  | _ =>
    match s.requestOf p t with
    | some o => put s o.tag false false
    | none => put s 0 true false

/-- A Juggler of a port's lead PU sends a TLP to the partner of the port. -/
def State.tlpToPort (s : State) (p : Nat) (t : Tlp) : State :=
  let uid := s.car.nextUid
  let f := tunnelFrame (s.portGeid p) (s.portGeid p) 0xFFF 0 (s.portOwner p) t 0
  (s.inject (s.workPu (leadOf p)) f).modFrame uid fun r => { r with place := .lookedUp, egress := ⟨leadOf p, p % 2⟩, inc := (s.link p).inc }

/-- Answer a non-posted TLP of the partner of a port; other TLPs are discarded. -/
def State.answerTlp (s : State) (p : Nat) (t : Tlp) (completer : BitVec 16) (st : BitVec 3) (data : List Byte) : State :=
  if tlpCode t.kind = 1 then s.tlpToPort p (tlpReply t completer st data) else s

/-! ### Windows of a virtual switch -/

/-- A function is in D0 with Memory Space Enable set. -/
def State.memOn (s : State) (v n : Nat) : Bool := bitOf (s.cfgBits v n 4) 1 && decide (s.cfgBits v n 0x84 % 4 = 0)
/-- A function is in D0 with I/O Space Enable set. -/
def State.ioOn (s : State) (v n : Nat) : Bool := bitOf (s.cfgBits v n 4) 0 && decide (s.cfgBits v n 0x84 % 4 = 0)
/-- The secondary bus of a bridge. -/
def State.secBus (s : State) (v n : Nat) : Nat := fld (s.cfgBits v n 0x18) 8 8
/-- The subordinate bus of a bridge. -/
def State.subBus (s : State) (v n : Nat) : Nat := fld (s.cfgBits v n 0x18) 16 8
/-- A bus lies in the secondary-to-subordinate range of a bridge that has been given one. -/
def State.inBuses (s : State) (v n bus : Nat) : Bool :=
  decide (s.secBus v n ≠ 0 ∧ s.secBus v n ≤ bus ∧ bus ≤ s.subBus v n)

/-- An address lies between a base and a limit. -/
def inRange (a base limit : Nat) : Bool := decide (base ≤ a ∧ a ≤ limit)

/-- A memory address lies in a window of a bridge. -/
def State.inMemWindow (s : State) (v n a : Nat) : Bool :=
  let m := s.cfgBits v n 0x20
  let q := s.cfgBits v n 0x24
  s.memOn v n &&
    (inRange a (fld m 4 12 * 2 ^ 20) (fld m 20 12 * 2 ^ 20 + 2 ^ 20 - 1) ||
     inRange a (fld q 4 12 * 2 ^ 20 + 2 ^ 32 * s.cfgBits v n 0x28) (fld q 20 12 * 2 ^ 20 + 2 ^ 20 - 1 + 2 ^ 32 * s.cfgBits v n 0x2C))

/-- An I/O address lies in the window of a bridge. -/
def State.inIoWindow (s : State) (v n a : Nat) : Bool :=
  let w := s.cfgBits v n 0x1C
  let u := s.cfgBits v n 0x30
  s.ioOn v n && inRange a (fld w 4 4 * 4096 + 65536 * fld u 0 16) (fld w 12 4 * 4096 + 4095 + 65536 * fld u 16 16)

/-- The vDSPs of a VH. -/
def State.vdsps (s : State) (v : Nat) : List Nat := match s.vhRec v with | some r => List.range r.vdsps | none => []

/-- The vDSP whose window holds the address of a request, or whose buses hold that of a completion, message or configuration request (Table 7.7). -/
def State.vdspFor (s : State) (v : Nat) (t : Tlp) : Option Nat :=
  (s.vdsps v).find? fun k =>
    if isMem t then s.inMemWindow v (2 + k) t.addr.toNat
    else if isIo t then s.inIoWindow v (2 + k) t.addr.toNat
    else s.inBuses v (2 + k) (busOf t.target)

/-- BAR0 of a function. -/
def State.barBase (s : State) (v n : Nat) : Nat := s.cfgBits v n 0x10 + 2 ^ 32 * s.cfgBits v n 0x14

/-- The routing ID of the instance function below a vDSP. -/
def State.instFnId (s : State) (v k : Nat) : BitVec 16 := BitVec.ofNat 16 (256 * s.secBus v (2 + k))

/-- Where a TLP to the target of a vDSP goes (R246, R248): destination, INSTANCE and the TLP rewritten for an instance; none where the vDSP has no target or the instance function does not claim it. -/
def State.toTarget (s : State) (v k : Nat) (t : Tlp) : Option (Geid × BitVec 12 × Tlp) :=
  match s.binding v k with
  | none => none
  | some (.endpoint g) => some (g, 0xFFF, t)
  | some (.inst g id) =>
    if isMem t then
      let n := 34 + k
      let a := t.addr.toNat
      let b := s.barBase v n
      match (s.boundInst v k).bind fun e => s.policy.instAt e.1 e.2 with
      | none => none
      | some r =>
        if s.memOn v n && decide (b ≤ a ∧ a + t.len ≤ b + 2 ^ r.log2) then
          some (g, id.setWidth 12, { t with addr := BitVec.ofNat 64 (a - b) + r.base })
        else none
    else if isIo t || isCfg t then none
    else some (g, id.setWidth 12, t)

/-! ### TLPs from a host (R246, Table 7.7) -/

/-- A posted TLP in no window is counted in VH_MISS; a non-posted one gets an Unsupported Request completion. -/
def State.unclaimed (s : State) (p v : Nat) (t : Tlp) : State :=
  let id := BitVec.ofNat 16 (256 * fld (s.cfgBits v 0 0x18) 0 8)
  if tlpCode t.kind = 1 then s.answerTlp p t id psUR []
  else s.countPart (leadOf p) fun x => { x with vhMiss := inc48 x.vhMiss }

/-- A memory request to BAR0 of the management function (R242, Table 11.1). -/
def State.barAccess (s : State) (p v : Nat) (t : Tlp) : State :=
  let off := t.addr.toNat - s.barBase v 1
  let at_ := s.barAddr v off
  let id := BitVec.ofNat 16 (256 * fld (s.cfgBits v 0 0x18) 0 8 + 1)
  if t.kind = .memRead then
    match at_ with
    | .nowhere => s.answerTlp p t id psSC (s.readPage (.vh v) at_ t.len)
    | .global o => if accessOk (0x2000 + o) t.len then s.answerTlp p t id psSC (s.readPage (.vh v) at_ t.len) else s.answerTlp p t id psCA []
    | .mailbox _ o => if accessOk o t.len then s.answerTlp p t id psSC (s.readPage (.vh v) at_ t.len) else s.answerTlp p t id psCA []
  else if t.ep then s
  else
    match at_ with
    | .nowhere => s
    | .global o => if 0 ∈ s.usable (.vh v) ∧ accessOk (0x2000 + o) t.len then s.writeGlobal o (natOf t.data) else s
    | .mailbox n o => if accessOk o t.len then s.writePage n o t.data else s

/-- The function that a configuration request names, or `none` where there is none; `some (.inr k)` lies below vDSP `k` (R244, Table 7.7). -/
def State.cfgTarget (s : State) (v : Nat) (t : Tlp) : Option (Nat ⊕ Nat) :=
  let bus := busOf t.target
  let dev := fld t.target.toNat 3 5
  let fn := fld t.target.toNat 0 3
  if s.inBuses v 0 bus = false then (if dev = 0 ∧ fn < 2 then some (.inl fn) else none)
  else if bus = s.secBus v 0 then (if fn = 0 ∧ s.fnExists v (2 + dev) then some (.inl (2 + dev)) else none)
  else
    match s.vdspFor v t with
    | none => none
    | some k =>
      match s.binding v k with
      | none => none
      | some (.endpoint _) => some (.inr k)
      | some (.inst _ _) => if bus = s.secBus v (2 + k) ∧ dev = 0 ∧ fn = 0 then some (.inl (34 + k)) else none

/-- The Jugglers of a PU that may emulate configuration space for a partition (R283). -/
def State.emulators (s : State) (pu : Nat) (own : BitVec 8) : List Nat :=
  (s.jugglersOk (s.workPu pu)).filter fun j => decide ((s.juggler j).owner = 0 ∨ (s.juggler j).owner = own)

/-- Queue the emulation of a configuration request on a Juggler of the upstream port's lead PU (R244, R280). -/
def State.queueCfg (s : State) (p v n : Nat) (t : Tlp) : State :=
  let pu := leadOf p
  let j := (s.leastLoaded (s.emulators pu (s.portOwner p))).getD (4 * s.workPu pu)
  s.pushWork j 4 (.config p v n t)

/-- A TLP from the host on the upstream port of a VH. -/
def State.hostTlp (s : State) (p v : Nat) (t : Tlp) : State :=
  let send (s : State) (k : Nat) : State :=
    match s.toTarget v k t with
    | some (g, i, u) => s.wrapTlp p g i u
    | none => s.answerTlp p t (s.instFnId v k) psUR []
  match t.kind with
  | .msgBroadcast => s.each (s.vdsps v) fun u k => match u.toTarget v k t with | some (g, i, w) => u.wrapTlp p g i w | none => u
  | .msgOther => s
  | .cfgRead | .cfgWrite =>
    match s.cfgTarget v t with
    | none => s.answerTlp p t t.target psUR []
    | some (.inl n) => s.queueCfg p v n t
    | some (.inr k) => send s k
  | .completion | .msgById =>
    match s.vdspFor v t with
    | some k => send s k
    | none => s
  | .memRead | .memWrite | .ioRead | .ioWrite =>
    let b := s.barBase v 1
    if isMem t && s.memOn v 1 && decide (b ≤ t.addr.toNat ∧ t.addr.toNat + t.len ≤ b + 65536) then s.barAccess p v t
    else
      match s.vdspFor v t with
      | some k => send s k
      | none => s.unclaimed p v t

/-! ### TLPs from targets (R247) -/

/-- Where a TLP from the target of a vDSP goes. -/
inductive TargetRoute where
  | to (dst : Geid) (inst : BitVec 12) (t : Tlp)
  /-- Unsupported Request for a non-posted request, and a discard otherwise; ACS Violation is logged in AER. -/
  | refuse (acs : Bool)
  deriving DecidableEq, Repr

/-- A bit of ACS Control of a vDSP: 0 Source Validation, 1 Translation Blocking, 2 P2P Request Redirect, 3 P2P Completion Redirect. -/
def State.acs (s : State) (v k bit : Nat) : Bool := bitOf (s.cfgBits v (2 + k) 0x144) (16 + bit)

/-- The route of a TLP from the target of vDSP `k` of VH `v` (R247). -/
def State.targetRoute (s : State) (v k : Nat) (t : Tlp) : TargetRoute :=
  let up : TargetRoute := .to (match s.vhRec v with | some r => s.portGeid r.port | none => 0) 0xFFF t
  let peer : Option Nat := match s.vdspFor v t with | some j => if j = k then none else some j | none => none
  let go (j : Nat) : TargetRoute := match s.toTarget v j t with | some (g, i, u) => .to g i u | none => .refuse false
  if isCfg t then .refuse false
  else if t.kind ≠ .completion ∧ s.acs v k 0 ∧ s.inBuses v (2 + k) (busOf t.reqId) = false then .refuse true
  else if s.acs v k 1 ∧ t.at2 ≠ 0 then .refuse true
  else
    match peer with
    | none => up
    | some j =>
      if isMem t then (if s.acs v k 2 then up else go j)
      else if t.kind = .completion ∨ t.kind = .msgById then (if s.acs v k 3 then up else go j)
      else up

/-- The vDSP to which a GEID is bound, or an instance of it. -/
def Policy.vdspOf (t : Policy) (b : Binding) : Option (Nat × Nat) :=
  (t.bind.find? fun e => decide (e.2 = some b)).map fun e => (e.1 / 32, e.1 % 32)

/-- A TLP from the partner of a PCIe-mode port that is a bound target. A target of no VH has no destination. -/
def State.targetTlp (s : State) (p : Nat) (t : Tlp) : State :=
  match s.policy.vdspOf (.endpoint (s.portGeid p)) with
  | none => s.answerTlp p t 0 psUR []
  | some (v, k) =>
    match s.targetRoute v k t with
    | .to g i u => s.wrapTlp p g i u
    | .refuse acs =>
      let s1 := s.answerTlp p t (BitVec.ofNat 16 (256 * s.secBus v 0 + 8 * k)) psUR []
      if acs then s1.puWork (leadOf p) 2 (.aer (fnKey v (2 + k)) 21) else s1

/-! ### Configuration emulation -/

/-- An access to a configuration register of an emulated function (R244, R428). -/
def State.cfgAccess (s : State) (v n reg : Nat) (wr : Option (BitVec 32)) (poison : Bool) : State × CfgReply :=
  if s.fnExists v n = false then (s, ⟨psUR, 0⟩)
  else
    match wr with
    | none => (s, ⟨psSC, BitVec.ofNat 32 (s.cfgRead v n reg)⟩)
    | some w => if poison then (s, ⟨psCA, 0⟩) else (s.cfgWrite v n reg w.toNat, ⟨psSC, 0⟩)

/-- A Juggler completes a configuration request of a host (R244). -/
def State.runCfg (s : State) (p v n : Nat) (t : Tlp) : State :=
  let wr := if t.kind = .cfgWrite then some (BitVec.ofNat 32 (natOf t.data)) else none
  let (s1, r) := s.cfgAccess v n (t.reg.toNat / 4 * 4) wr t.ep
  let data := if r.status = psSC ∧ wr = none then bytesOf 4 r.data.toNat else []
  (s1.modParts fun x => { x with cfgReply := some r }).tlpToPort p (tlpReply t t.target r.status data)

/-- An error is logged in AER of a function of a VH. -/
def State.logAer (s : State) (fn bit : Nat) : State :=
  s.modParts fun x => { x with config := Tab.mod [] x.config fn fun t => Tab.put 0 t 0x104 (Tab.get 0 t 0x104 ||| BitVec.ofNat 32 (2 ^ bit)) }

/-! ### Unwrapping -/

/-- A PCIe-mode port sends a TLP. -/
def State.sendTlp (s : State) (p : Nat) (t : Tlp) : State :=
  (s.modSched p fun x => { x with lastTlp := some t }).pmon (leadOf p) 0x071 0 1

/-- The PCI Express status of a Pyroako completion status (Table 7.8). -/
def tlpStatus (st : BitVec 4) : BitVec 3 :=
  if st = csSuccess then psSC else if st = csAbort ∨ st = csPoisoned ∨ st = csHeritage then psCA else psUR

/-- The AER status bit of a completion status (PRESUMED, log entry 22): Completer Abort or Unsupported Request Error. -/
def aerBit (st : BitVec 4) : Nat := if tlpStatus st = psCA then 15 else 20

/-- A COMPLETION for a request of the partner of a PCIe-mode port becomes a PCI Express completion (R250); the vDSP of the request, or the upstream port, logs a status other than SUCCESS in AER. -/
def State.unwrapStatus (s : State) (p : Nat) (f : Frame) : State :=
  match s.tagUse f.hdr.dst f.hdr.tag with
  | none => s
  | some u =>
    match u.frame.bind fun x => x.tlp with
    | none => s
    | some t =>
      let c := tlpReply t 0 (tlpStatus f.hdr.status) f.payload
      let s1 := s.sendTlp p { c with ep := f.hdr.poison }
      if f.hdr.status = csSuccess then s1
      else
        match s.vhOf p with
        | none => s1
        | some v => s1.puWork (leadOf p) 2 (.aer (fnKey v (match s.vdspFor v t with | some k => 2 + k | none => 0)) (aerBit f.hdr.status))

/-- A completion for a tag of a PCIe-mode port: it is discarded and counted where the tag is not in use or the completer is not the destination (R138), and ends its request otherwise. -/
def State.cplToPort (s : State) (p : Nat) (f : Frame) : State :=
  let g := f.hdr.dst
  match s.tagUse g f.hdr.tag with
  | none => s.countFab (leadOf p) fun x => { x with unexpectedCpl := inc48 x.unexpectedCpl }
  | some u =>
    if u.dst ≠ f.hdr.src then s.countFab (leadOf p) fun x => { x with unexpectedCpl := inc48 x.unexpectedCpl }
    else
      let s1 := match f.tlp with
        | some t => s.sendTlp p { t with ep := t.ep || f.hdr.poison }
        | none => s.unwrapStatus p f
      if endsRequest f then s1.setTag g f.hdr.tag none else s1

/-- A frame leaves by a PCIe-mode port (R248, R250, R428): its TLP is unwrapped.
A frame that carries no TLP and is not a completion is not supported there, but for a posted write that an instance sends (log entry 46). -/
def State.tlpOut (s : State) (p : Nat) (r : FrameRec) : State :=
  let f := r.frame
  if f.hdr.kind = .completion then
    (match f.tlp with
     | some t => if f.hdr.src = f.hdr.dst then s.sendTlp p t else s.cplToPort p f
     | none => s.cplToPort p f)
  else
    match f.tlp with
    | some t => s.sendTlp p { t with ep := t.ep || f.hdr.poison }
    | none =>
      if f.hdr.type = tyMemWrite ∧ r.fromInst.isSome then
        s.sendTlp p { kind := .memWrite, tc := f.hdr.cls, addr := f.hdr.addr, len := f.payload.length, ep := f.hdr.poison, data := f.payload }
      else s.endHere f (leadOf p) .unsupported

end Sys2Proof.Machine
end

