-- ==== Sys2Proof/Machine/Lookup.lean ====
section
/-!
DEFINITION. The lookup of a frame by the ingress pipeline: PARTITION (R238, R239), instances (R255 to R262), routing (R140 to R144, R512), the partition check (R240, R241), and the decisions that the frame keeps (R151).
-/

namespace Sys2Proof.Machine

/-- A frame in lookup with what has been decided. -/
structure Lookup where
  f        : Frame
  epochs   : List (TableKind × BitVec 2) := []
  egress   : Egress := ⟨0, 0⟩
  inst     : Option (Nat × Nat) := none
  fromInst : Option (Nat × Nat) := none
  /-- The first cause found so far that ends the frame (R155). -/
  cause    : Option EndCause := none
  failover : Bool := false
  /-- The frame is discarded and counted in INST_RESET_DROP without a completion (Table 7.11, R265). -/
  drop     : Bool := false
  /-- An ACS violation of a vDSP, by function key (R247). -/
  acs      : Option Nat := none
  /-- No later step can be taken. -/
  stop     : Bool := false

/-- A step of the lookup is taken unless an earlier one was the last. -/
def Lookup.then_ (l : Lookup) (k : Lookup → Lookup) : Lookup := if l.stop then l else k l

/-- A cause is found; later steps are taken where the frame still has a route. -/
def Lookup.note (l : Lookup) (c : EndCause) : Lookup := { l with cause := some (firstCause l.cause c) }
/-- A cause is found and the frame has no route. -/
def Lookup.fail (l : Lookup) (c : EndCause) : Lookup := { l.note c with stop := true }
/-- Change the frame's header. -/
def Lookup.hdr (l : Lookup) (k : Hdr → Hdr) : Lookup := { l with f := { l.f with hdr := k l.f.hdr } }

/-- The state as PU `pu` sees it: with the tables that are in effect there (R26). -/
def State.atPu (s : State) (pu : Nat) : State := { s with fabric := { s.fabric with tables := s.view pu } }

/-! ### PARTITION (R236 to R239) -/

/-- A port is a shared endpoint (R252). -/
def Policy.isShared (t : Policy) (p : Nat) : Bool := (Tab.get none t.shared p).isSome

/-- The entry of a port's outstanding-request table that a completion matches (R239). -/
def State.matching (s : State) (p : Nat) (h : Hdr) : Option OutReq :=
  (s.link p).outReqs.find? fun o => decide (o.requester = h.dst ∧ o.tag = h.tag)

/-- PARTITION of a frame from a port (Tables 7.2 and 7.3, R239), with the instance for which a shared endpoint sent it. -/
def State.setPartition (s : State) (p : Nat) (l : Lookup) : Lookup :=
  let t := s.policy
  let h := l.f.hdr
  let own := t.ownerOf p
  let act := s.actsAs t p
  if act = 3 then
    if (s.partner p).kind ≠ 1 ∨ (own ≠ 0 ∧ h.part ≠ own) then l.note .partitionDeny else l
  else if h.kind = .completion then
    match s.matching p h with
    | none => l.note .partitionDeny
    | some o =>
      let l1 := l.hdr fun h => { h with part := o.hdr.part, inst := o.hdr.inst }
      if s.abortedReq p h.dst h.tag then { l1 with drop := true } else l1
  else if act = 2 ∧ h.inst ≠ 0xFFF then
    match t.instAt p h.inst.toNat with
    | some r => if h.inst.toNat < 256 then { l.hdr (fun h => { h with part := r.owner }) with fromInst := some (p, h.inst.toNat) } else l.note .partitionDeny
    | none => l.note .partitionDeny
  else l.hdr fun h => { h with part := own }

/-! ### Frames of an instance (R257, R260, Table 7.11) -/

/-- The translation entry that decides for an access of `n` bytes (R257). -/
def State.translation (s : State) (r : InstRec) (rd wr : Bool) (a n : Nat) : Option Xlate :=
  ((List.range r.xlate).map fun i => Tab.get {} s.parts.xlate (r.firstXlate + i)).find? fun e =>
    e.valid && (!rd || e.readEn) && (!wr || e.writeEn) && decide (e.base.toNat ≤ a ∧ a + n ≤ e.base.toNat + 2 ^ e.sizeLog2.toNat)

/-- The vDSP to which an instance is bound. -/
def State.instVdsp (s : State) (p id : Nat) : Option (Nat × Nat) :=
  (s.policy.bind.find? fun e => match e.2 with
    | some (.inst g i) => decide (i.toNat = id) && (s.geidPort g == some p)
    | _ => false).map fun e => (e.1 / 32, e.1 % 32)

/-- A posted write to the instance's MSI_ADDR, with MSI enabled (R257). -/
def Icb.isMsi (i : Icb) (write : Bool) (a : BitVec 64) : Bool := write && i.msiEn && decide (a = i.msiAddr)

/-- A tunnel frame of an instance: translated (R257), with the instance function's ID (R248), and routed under R247. -/
def State.tunnelFromInst (s : State) (p id : Nat) (r : InstRec) (t : Tlp) (l : Lookup) : Lookup :=
  match s.instVdsp p id with
  | none => l.fail .unsupported
  | some (v, k) =>
    let t1 := { t with reqId := s.instFnId v k }
    let go (l : Lookup) (x : TargetRoute) : Lookup :=
      match x with
      | .to g i u => { l with f := { hdr := { l.f.hdr with dst := g, inst := i }, tlp := some { u with ecrcOk := true } } }
      | .refuse acs => { l.fail .unsupported with acs := if acs then some (fnKey v (2 + k)) else none }
    if (s.instRun p id).icb.isMsi (decide (t.kind = .memWrite)) t.addr then
      go l (.to (match s.vhRec v with | some x => s.portGeid x.port | none => 0) 0xFFF t1)
    else if isMem t then
      match s.translation r (decide (t.kind = .memRead)) (decide (t.kind = .memWrite)) t.addr.toNat t.len with
      | none => l.fail .partitionDeny
      | some e => go l (s.targetRoute v k { t1 with addr := t.addr - e.base + e.targetBase })
    else go l (s.targetRoute v k t1)

/-- The access of a request: reads, and writes. An atomic is both. -/
def accessOf (h : Hdr) : Bool × Bool :=
  if h.type = tyAtomic then (true, true)
  else if h.type = tyMemWrite ∨ (h.type = tyConfig ∧ h.subtype = 1) then (false, true)
  else (true, false)

/-- A frame that a shared endpoint sends on behalf of an instance: its state (Table 7.11, R265), its credits (R260) and its translation (R257).
INSTANCE, which named the sender, names nothing from here on (log entry 47). -/
def State.fromInstance (s : State) (l : Lookup) : Lookup :=
  match l.fromInst with
  | none => l
  | some (p, id) =>
    let x := s.instRun p id
    let h := l.f.hdr
    match s.policy.instAt p id with
    | none => l
    | some r =>
      let l0 := l.hdr fun h => { h with inst := 0xFFF }
      if x.state = .resetting ∧ x.forced then l0.fail .instanceReset
      else if x.state = .resetting ∨ x.state = .failed then { l0 with drop := true, stop := true }
      else
        let l1 := if h.kind = .nonPosted ∧ r.credits ≤ x.count.length then l0.note .creditOver else l0
        match l.f.tlp with
        | some t => s.tunnelFromInst p id r t l1
        | none =>
          if h.type = tyMemRead ∨ h.type = tyMemWrite ∨ h.type = tyAtomic ∨ h.type = tyConfig then
            match x.icb.isMsi (decide (h.type = tyMemWrite)) h.addr, s.instVdsp p id with
            | true, some (v, _) => l1.hdr fun h => { h with dst := match s.vhRec v with | some y => s.portGeid y.port | none => h.dst }
            | _, _ =>
              let (rd, wr) := accessOf h
              match s.translation r rd wr h.addr.toNat h.span with
              | none => l1.fail .partitionDeny
              | some e => l1.hdr fun h => { h with dst := e.target, addr := h.addr - e.base + e.targetBase }
          else l1

/-! ### Routing (R140 to R144) -/

/-- The window that decides for a frame (R144). -/
def Tables.windowFor (t : Tables) (part : BitVec 8) (a : Nat) : Option Window :=
  (t.window.find? fun e => e.2.valid && decide (e.2.partition = part) && decide (e.2.base.toNat ≤ a ∧ a < e.2.base.toNat + 2 ^ e.2.sizeLog2)).map Prod.snd

/-- Step 1 of R140. -/
def State.windowStep (s : State) (l : Lookup) : Lookup :=
  if l.f.hdr.dst ≠ 0xFFFFF then l
  else
    let t := s.fabric.tables
    match t.windowFor l.f.hdr.part l.f.hdr.addr.toNat with
    | none => l.fail .windowMiss
    | some w =>
      { l.hdr (fun h => { h with dst := w.target, addr := h.addr - w.base + w.targetBase, inst := if w.instValid then w.inst else h.inst }) with
        epochs := l.epochs ++ [(TableKind.window, t.ep .window)] }

/-- A frame is to leave by a port: its VC and the port's link (R95, R120). -/
def State.toPort (s : State) (p : Nat) (l : Lookup) : Lookup :=
  let l1 := { l with egress := ⟨leadOf p, p % 2⟩ }
  if s.up p = false then l1.note .linkDown
  else if (s.port p).pcie = false ∧ l.f.hdr.vc ≤ 5 ∧ (s.link p).vcs.toNat % 64 = 0 then l1.fail .noRoute
  else l1

/-- The internal target of a frame to index 0x03 (R512). -/
def State.moverTarget (s : State) (l : Lookup) : Lookup :=
  let h := l.f.hdr
  if h.kind = .completion then { l with egress := ⟨h.tag.toNat / 32, 2⟩ }
  else
    match (if h.type = tyMemWrite ∧ h.addr.toNat % 8 = 0 then s.moverRing (h.addr.toNat / 8) else none) with
    | some r => { l with egress := ⟨r.juggler / 4, 2⟩ }
    | none => l.fail .moverDeny

/-- The egress of an internal target (R21, Table 4.1). -/
def State.internalEgress (s : State) (i : Nat) : Egress :=
  if i = 0 then ⟨s.mgmt.homeRm, 3⟩ else if i = 1 then ⟨s.mgmt.homeA, 4⟩ else ⟨s.mgmt.homeB, 5⟩

/-- The owner of the target of a frame to a port of this switch, by R240; `none` where the frame is denied whatever its PARTITION. -/
def State.portTarget (s : State) (p : Nat) (h : Hdr) : Option (BitVec 8) :=
  let t := s.policy
  if h.kind = .completion then
    some (match t.inst.find? fun e => decide (e.1 / 256 = p) && (s.instRun p (e.1 % 256)).count.any fun c => decide (c.1 = h.dst ∧ c.2.1 = h.tag) with
      | some e => (match e.2 with | some r => r.owner | none => t.ownerOf p)
      | none => t.ownerOf p)
  else if h.inst = 0xFFF then some (t.ownerOf p)
  else if t.isShared p ∧ h.inst.toNat < 256 then (t.instAt p h.inst.toNat).map fun r => r.owner
  else none

/-- The partition check of R240 against an owner. -/
def State.check (s : State) (own : Option (BitVec 8)) (l : Lookup) : Lookup :=
  match own with
  | none => l.note .partitionDeny
  | some o =>
    if l.f.hdr.part = o ∨ Tab.get false s.policy.grant (256 * l.f.hdr.part.toNat + o.toNat) then l else l.note .partitionDeny

/-- A frame routed to a FABRIC port with an owner other than 0 must be of its partition (R240). -/
def State.checkFabricEgress (s : State) (p : Nat) (l : Lookup) : Lookup :=
  let own := s.policy.ownerOf p
  if s.actsAs s.policy p = 3 ∧ own ≠ 0 ∧ l.f.hdr.part ≠ own then l.note .partitionDeny else l

/-- A frame that addresses an instance: the instance's state (Table 7.11, R265) and, for a request that is not a tunnel frame, its aperture (R255). -/
def State.toInstance (s : State) (p : Nat) (l : Lookup) : Lookup :=
  let h := l.f.hdr
  let lostAt := s.policy.inst.any fun e => decide (e.1 / 256 = p) && (s.instRun p (e.1 % 256)).lost.contains (h.dst, h.tag)
  if h.kind = .completion then { l with drop := l.drop || lostAt }
  else if h.inst = 0xFFF ∨ s.policy.isShared p = false then l
  else
    match s.policy.instAt p h.inst.toNat with
    | none => l
    | some r =>
      let id := h.inst.toNat
      let l1 := { l with inst := some (p, id) }
      match (s.instRun p id).state with
      | .resetting => l1.note .instanceReset
      | .failed => l1.note .instanceReset
      | .quiescing => l1.note .quiescing
      | .quiesced => l1.note .quiescing
      | .active =>
        if h.type = tyMemRead ∨ h.type = tyMemWrite ∨ h.type = tyAtomic ∨ h.type = tyConfig then
          if 2 ^ r.log2 < h.addr.toNat + h.span then l1.fail .windowMiss
          else l1.hdr fun h => { h with addr := h.addr + r.base }
        else l1

/-- Steps 2 and 4 of R140 for a GEID of this switch. -/
def State.localStep (s : State) (l : Lookup) : Lookup :=
  let t := s.fabric.tables
  let h := l.f.hdr
  let l1 := { l.hdr (fun h => { h with epoch := t.ep .endpoint }) with epochs := l.epochs ++ [(TableKind.endpoint, t.ep .endpoint)] }
  match t.endpointAt (h.dst.toNat % 256) with
  | .unassigned => l1.fail .noRoute
  | .internal i =>
    if i = 3 then s.moverTarget l1
    else
      let l2 := { l1 with egress := s.internalEgress i }
      if i = 0 then l2
      else if h.kind ≠ .completion ∧ h.inst ≠ 0xFFF then l2.note .partitionDeny
      else s.check (some (s.pwOwner (if i = 1 then .a else .b))) l2
  | .port q sub =>
    match s.portNamed q sub with
    | none => l1.fail .noRoute
    | some p => (s.toPort p (s.toInstance p (s.check (s.portTarget p h) l1))).then_ (s.checkFabricEgress p)

/-- Steps 3 and 4 of R140 for a GEID of another switch (Table 4.6, R141, R143). -/
def State.remoteStep (s : State) (l : Lookup) : Lookup :=
  let t := s.fabric.tables
  let h := l.f.hdr
  let l1 := { l.hdr (fun h => { h with epoch := t.ep .route }) with epochs := l.epochs ++ [(TableKind.route, t.ep .route)] }
  let out (q : Nat) (l : Lookup) : Lookup :=
    let l2 := if h.hops.toNat = 31 then l.note .hopLimit else l
    (s.toPort (2 * q) l2).then_ (s.checkFabricEgress (2 * q))
  match Tab.get .invalid t.route (h.dst.toNat / 256) with
  | .invalid => l1.fail .noRoute
  | .port q => out q l1
  | .group g =>
    let l2 := { l1 with epochs := l1.epochs ++ [(TableKind.group, t.ep .group)] }
    match s.member t h g with
    | none => l2.fail .noRoute
    | some (q, other) => out q { l2 with failover := other }

/-- HOPS rises at the first lookup in a switch (R143). -/
def hopStep (l : Lookup) : Lookup :=
  if l.f.hdr.hops.toNat = 31 then l.note .hopLimit else l.hdr fun h => { h with hops := h.hops + 1 }

/-- The whole lookup of a frame at an input, with the tables in effect there. -/
def State.lookup (s : State) (r : FrameRec) : Lookup :=
  let t := s.fabric.tables
  let l0 : Lookup := { f := r.frame, epochs := [(TableKind.policy, t.ep .policy)], cause := r.ending }
  let l1 := if s.expired r then l0.note .lifetime else l0
  if malformed r.frame then l1.fail .malformed
  else if linkLocal r.frame.hdr then { l1 with egress := s.internalEgress 0 }
  else
    let l2 := hopStep l1
    let l3 := if r.src < 256 then s.setPartition r.src l2 else l2
    ((l3.then_ s.fromInstance).then_ s.windowStep).then_ fun l =>
      if l.f.hdr.dst.toNat / 256 = s.fabric.switchId.toNat then s.localStep l else s.remoteStep l

/-! ### What a lookup brings -/

/-- A denied frame is reported, and the first of each second raises EV_PARTITION_DENY (R241). -/
def State.denied (s : State) (pu src : Nat) (h : Hdr) : State :=
  let s1 := s.report (BitVec.ofNat 12 (0x300 + pu)) 1 0
  let quiet := match Tab.get none s.parts.denyAt pu with | some t => decide (s.now - t < 1000000000) | none => false
  if quiet then s1
  else
    (s1.modParts fun x => { x with denyAt := Tab.put none x.denyAt pu (some s.now) }).raise 0x0700
      [(src, 2), (h.dst.toNat, 3), (h.part.toNat, 1), (h.inst.toNat, 2)] (if src < 256 then [s.portOwner src] else [])

/-- The descriptor of a data-mover frame carries the port of its route (Table 8.4). -/
def State.notePort (s : State) (r : FrameRec) (e : Egress) : State :=
  match r.mover, r.desc, e.port with
  | some id, some k, some p =>
    s.modMover id fun x => { x with descs := x.descs.map fun d => if d.index = k then { d with ports := insertNat p d.ports } else d }
  | _, _, _ => s

/-- The requester of this switch records the destination of its request (R138). -/
def State.noteDst (s : State) (r : FrameRec) (h : Hdr) : State :=
  if h.kind = .nonPosted ∧ (256 ≤ r.src ∨ (s.port r.src).pcie) then
    match s.tagUse h.src h.tag with
    | some u => s.setTag h.src h.tag (some { u with dst := h.dst, inst := h.inst })
    | none => s
  else s

/-- A non-posted request of an instance counts as outstanding from its lookup (R260). -/
def State.instRise (s : State) (l : Lookup) : State :=
  match l.fromInst with
  | none => s
  | some (p, id) =>
    if l.f.hdr.kind = .nonPosted then
      s.modInst p id fun x =>
        { x with count := x.count ++ [(l.f.hdr.src, l.f.hdr.tag, s.now)], lost := x.lost.filter fun e => decide (e ≠ (l.f.hdr.src, l.f.hdr.tag)) }
    else s

/-- A tunnel frame of an instance takes the posted count of the PU that rewrote it (R249). -/
def State.orderInst (s : State) (pu : Nat) (l : Lookup) : State × Frame :=
  match l.fromInst, l.f.tlp with
  | some _, some t =>
    let (q, s1) := s.nextPseq pu l.f.hdr.dst t
    (s1, { l.f with hdr := { l.f.hdr with addr := q.setWidth 64 } })
  | _, _ => (s, l.f)

/-- The end of a frame at lookup. -/
def State.endLookup (s : State) (uid pu : Nat) (r : FrameRec) (l : Lookup) : State :=
  let q := match l.cause with | some .linkDown => l.egress.pu | _ => pu
  if l.drop then (s.discard uid).countPart pu fun x => { x with instResetDrop := inc48 x.instResetDrop }
  else
    let c := l.cause.getD .unsupported
    let s0 := (if c = .creditOver then s else s.instRise l).noteDst r l.f.hdr
    let s1 := (s0.setFrame uid (some { r with frame := { r.frame with hdr := l.f.hdr }, egress := l.egress, ending := none })).endFrame uid q c
    let s2 := if c = .partitionDeny then s1.denied pu r.src l.f.hdr else s1
    let s3 := match l.fromInst with
      | some (p, id) => if c = .creditOver then s2.report (BitVec.ofNat 12 (0x800 + leadOf p)) 2 (BitVec.ofNat 64 id) else s2
      | none => s2
    match l.acs with
    | some fn => s3.puWork pu 2 (.aer fn 21)
    | none => s3

/-- Frames of a port whose TLP decides their lookup are looked up once whole (log entry 46). -/
def State.lookupReady (s : State) (r : FrameRec) : Bool :=
  r.whole || decide (r.frame.hdr.type ≠ tyPcie) ||
    !(decide (r.frame.hdr.kind = .completion) || (decide (r.src < 256) && decide (s.actsAs s.policy r.src = 2)))

/-- The lookup of the first frame of an input's VC that has not been looked up (R140, R174). -/
def State.lookupNext (s : State) (src vc : Nat) : State :=
  match (s.waitingAt src vc).find? fun u => match s.frame? u with | some r => decide (r.place = .arriving) | none => false with
  | none => s
  | some uid =>
    match s.frame? uid with
    | none => s
    | some r =>
      if s.lookupReady r = false then s
      else
        let pu := puOf src
        let l := (s.atPu pu).lookup r
        let s0 := ((if src < 256 then s.answered src r.frame else s).pmon pu 0x100 0 1).pmon pu 0x101 0 (b2n (l.epochs.any fun e => decide (e.1 = .window)))
        let s1 := if l.failover then (s0.countFab pu fun x => { x with failover := inc48 x.failover }).pmon pu 0x102 0 1 else s0
        if l.cause.isSome ∨ l.drop then (s1.endLookup uid pu r l).pmon pu 0x103 0 1
        else
          let (s2, f) := (s1.instRise l).orderInst pu l
          let inc := match l.egress.port with | some p => (s2.link p).inc | none => 0
          let r1 := { r with frame := f, place := .lookedUp, egress := l.egress, inc := inc, epochs := l.epochs, inst := l.inst, fromInst := l.fromInst, order := s2.car.lookups + 1 }
          ((((s2.modCar fun c => { c with lookups := c.lookups + 1 }).setFrame uid (some r1)).noteDst r f.hdr).notePort r l.egress).meterFrame (s.view pu).policy uid

end Sys2Proof.Machine
end

