-- ==== Sys2Proof/Machine/CarouselOps.lean ====
section
/-!
DEFINITION. The Carousel: admission to VOQs (R174, R175, R259), the choice and sending of cells (R170 to R188), room maps and shares (R180, R182), the second stage and its marks (R171, R190), egress pools and open periods (R184, R185), resequencing (R188, R191, R192), release to egress queues and internal targets, and the order of tunnelled traffic (R249).
-/

namespace Sys2Proof.Machine

/-! ### Egresses -/

/-- The configured port that uses an output, by EGRESS code 0 or 1. -/
def State.outPort (s : State) (o code : Nat) : Option Nat :=
  if code = 0 then s.mainPortOfQuad o else if code = 1 ∧ (s.port (2 * o + 1)).configured then some (2 * o + 1) else none

/-- The outputs of an egress: Qe of R184 and R187. -/
def State.egressQuads (s : State) (e : Egress) : Nat := match e.port with | some p => (s.port p).quads | none => 1

/-- The incarnation of an egress; 0 for an internal target. -/
def State.egressInc (s : State) (e : Egress) : BitVec 8 := match e.port with | some p => (s.link p).inc | none => 0

/-- A frame stamped with an incarnation that its egress port no longer has (R120). -/
def State.staleFrame (s : State) (r : FrameRec) : Bool :=
  match r.egress.port with
  | some p => decide ((s.link p).inc ≠ r.inc)
  | none => false

/-- Cells of a frame that have not left the first stage. -/
def FrameRec.left (r : FrameRec) : Nat := r.frame.blocks - r.sent

/-! ### Ends at the check points of R153 -/

/-- An instance that a frame is for or comes from ends it at a check point (R265). -/
def State.instEnds (s : State) (r : FrameRec) : Bool :=
  let bad (e : Option (Nat × Nat)) : Bool := match e with
    | some (p, id) => let x := s.instRun p id; (x.state == .resetting && x.forced) || x.state == .failed
    | none => false
  decide (r.frame.hdr.kind ≠ .completion) && (bad r.inst || bad r.fromInst)

/-- The cause that ends a frame at a check point where its age is checked. -/
def State.checkCause (s : State) (r : FrameRec) : Option EndCause :=
  let c := r.ending
  let c1 := if s.staleFrame r then some (firstCause c .linkDown) else c
  let c2 := if s.instEnds r then some (firstCause c1 .instanceReset) else c1
  if s.expired r then some (firstCause c2 .lifetime) else c2

/-- End a frame stamped with an old incarnation: as at link down, counted in STALE_DROP too (R120). -/
def State.endStale (s : State) (uid pu : Nat) : State :=
  match s.frame? uid with
  | none => s
  | some r =>
    let s1 := match r.egress.port with | some p => s.countLink p fun c => { c with staleDrop := inc48 c.staleDrop } | none => s
    s1.endFrame uid pu .linkDown

/-- End a frame at a check point. -/
def State.endAt (s : State) (uid pu : Nat) (c : EndCause) : State :=
  match s.frame? uid with
  | none => s
  | some r => if c = .linkDown ∧ s.staleFrame r then s.endStale uid pu else s.endFrame uid pu c

/-! ### Admission (R174, R175, R259) -/

/-- A VOQ. -/
def State.voq (s : State) (k : Nat) : Voq := Tab.get {} s.car.voqs k
/-- Change a VOQ. -/
def State.modVoq (s : State) (k : Nat) (f : Voq → Voq) : State := s.modCar fun c => { c with voqs := Tab.mod {} c.voqs k f }

/-- The flow key of a frame. -/
def FrameRec.flow (r : FrameRec) : Nat := flowKey r.src r.egress.key r.frame.hdr.vc

/-- Cells of a list of frames that have not left the first stage. -/
def State.cellsLeft (s : State) (l : List Nat) : Nat := (l.map fun u => match s.frame? u with | some r => r.left | none => 0).sum

/-- The pools that a native port advertises (R113). -/
def State.pools (s : State) (p : Nat) : List Nat := (s.link p).poolSet.getD (defaultPools (s.port p).quads)

/-- VOQ_LIMIT of an ingress port and VC; an injection input has none (R175). -/
def State.voqLimitOf (s : State) (src vc : Nat) : Option Nat :=
  if 256 ≤ src then none
  else
    match Tab.get none s.car.voqLimit (8 * src + vc) with
    | some n => some n
    | none => some (max 18 ((if (s.port src).pcie then s.storeOf src else nth 0 (s.pools src) vc) / 4))

/-- A frame fits in its VOQ. -/
def State.voqRoom (s : State) (r : FrameRec) : Bool :=
  match s.voqLimitOf r.src r.frame.hdr.vc with
  | none => true
  | some n => decide (s.cellsLeft (s.voq r.flow).frames + r.frame.blocks ≤ n)

/-- VOQ cells of the frames that an endpoint sent for an instance (R259). -/
def State.instCells (s : State) (i : Nat × Nat) : Nat :=
  (s.car.frames.map fun e => match e.2 with
    | some r => if r.place = .admitted ∧ r.fromInst = some i then r.left else 0
    | none => 0).sum

/-- A frame of an instance fits in the instance's BUFFER share (R259). -/
def State.instRoom (s : State) (r : FrameRec) : Bool :=
  match r.fromInst with
  | none => true
  | some (p, id) =>
    match s.policy.instAt p id with
    | none => true
    | some x => decide (s.instCells (p, id) + r.frame.blocks ≤ x.buffer)

/-- Admit the head of an input's VC, or count that it waits (R174, R197, R259). -/
def State.tryVoq (s : State) (src vc : Nat) : State :=
  match s.waitingAt src vc with
  | [] => s
  | uid :: _ =>
    match s.frame? uid with
    | none => s
    | some r =>
      if r.place ≠ .lookedUp ∨ r.whole = false then s
      else if s.instRoom r = false then
        if r.instWaited then s
        else (s.countPart (puOf src) fun c => { c with instWaits := inc48 c.instWaits }).setFrame uid (some { r with instWaited := true })
      else if s.voqRoom r = false then
        if r.waited then s
        else (s.countCar (puOf src) fun c => { c with voqWaits := inc48 c.voqWaits }).setFrame uid (some { r with waited := true })
      else
        let s0 := (s.pmon (puOf src) 0x108 r.frame.hdr.vc 1).pmon (puOf src) 0x109 r.frame.hdr.vc r.frame.blocks
        let s1 := ((s0.modWaiting src vc (·.erase uid)).setFrame uid (some { r with place := .admitted })).modVoq r.flow fun v => { v with frames := v.frames ++ [uid] }
        if 256 ≤ src then s1
        else
          let n := s1.cellsLeft (s1.voq r.flow).frames
          s1.modCar fun c => { c with hwm := Tab.mod {} c.hwm src fun h => { h with voq := modAt h.voq r.frame.hdr.vc (max n) } }

/-! ### Room maps (R180, R182) -/

/-- A count added at a place of a list. -/
def bump (l : List Nat) (v : Nat) : List Nat := modAt l v (· + 1)

/-- The cells of each VC that the room map of a middle buffer counts for an output: those queued, and departures of the last slot and this one. -/
def MidBuf.held (b : MidBuf) (o now : Nat) : List Nat :=
  let q := (Tab.get [] b.queues o).foldl (fun a c => bump a c.vc) [0, 0, 0, 0, 0, 0, 0, 0]
  b.recent.foldl (fun a e => if e.2.1 = o ∧ now ≤ e.1 + 1 then bump a e.2.2 else a) q

/-- The sum of the reservations. -/
def sumRes (l : List Share) : Nat := (l.map fun x => x.res).sum

/-- Cells held above the reservations. -/
def aboveRes : List Share → List Nat → Nat
  | x :: xs, n :: ns => (n - x.res) + aboveRes xs ns
  | _, _ => 0

/-- The share rules take one more cell of a VC (R182). -/
def admits (sh : List Share) (held : List Nat) (v : Nat) : Bool :=
  let x := nth ⟨0, 0⟩ sh v
  let n := nth 0 held v
  decide (n < x.max) && (decide (n < x.res) || decide (aboveRes sh held < 16 - sumRes sh))

/-- The room map bit of a middle buffer for an output and VC. -/
def State.room (s : State) (m o v : Nat) : Bool :=
  decide ((s.mid m).state = .inService) && admits s.car.shares ((s.mid m).held o s.car.slots) v

/-! ### Choosing a cell (R179) -/

/-- The next cell of a VOQ: its frame, and CSEQ as R187 counts it. -/
structure NextCell where
  key  : Nat
  uid  : Nat
  r    : FrameRec
  cseq : BitVec 16
  out  : Nat

/-- The next cell of a VOQ, if it has one. -/
def State.nextCell (s : State) (k : Nat) : Option NextCell :=
  match (s.voq k).frames with
  | [] => none
  | uid :: _ =>
    match s.frame? uid with
    | none => none
    | some r =>
      let v := s.voq k
      let n := if v.inc = s.egressInc r.egress then v.count else 0
      some ⟨k, uid, r, n, r.egress.pu + n.toNat % s.egressQuads r.egress⟩

/-- The VOQs of a side of an input that hold frames, in key order: the ports that use the quad, or the injection input. -/
def State.sideVoqs (s : State) (i : Nat) (link : Bool) : List Nat :=
  let srcs := if link then s.portsOfQuad i else [256 + i]
  (s.car.voqs.filter fun e => srcs.contains (flowSrc e.1) && !e.2.frames.isEmpty).map Prod.fst

/-- End the frames at the head of a VOQ that a check point ends (R153, R120): the age counts only until cell 0 has left. -/
def State.checkHead (s : State) (i k : Nat) : Nat → State
  | 0 => s
  | n + 1 =>
    match (s.voq k).frames with
    | [] => s
    | uid :: _ =>
      match s.frame? uid with
      | none => (s.modVoq k fun v => { v with frames := v.frames.drop 1 }).checkHead i k n
      | some r =>
        let c := if r.sent = 0 then s.checkCause r else if s.staleFrame r then some .linkDown else none
        match c with
        | none => s
        | some c => (s.endAt uid i c).checkHead i k n

/-- The cell that a side sends: its oldest eligible VC7 cell, or the next VOQ in round-robin order after the one served last. -/
def pickCell (l : List NextCell) (last : Option Nat) : Option NextCell :=
  match leastBy (fun c => c.uid) (l.filter fun c => decide (c.r.frame.hdr.vc = 7)) with
  | some c => some c
  | none =>
    match last with
    | none => l.head?
    | some k => match l.find? fun c => decide (k < c.key) with | some c => some c | none => l.head?

/-- There is an eligible VC7 cell. -/
def hasVc7 (l : List NextCell) : Bool := l.any fun c => decide (c.r.frame.hdr.vc = 7)

/-- The side that an input takes: true for the link side. -/
def takeLink (a : InputArb) (link inj : List NextCell) : Bool :=
  match hasVc7 link, hasVc7 inj with
  | true, false => true
  | false, true => false
  | true, true => a.vc7Inj
  | false, false => if inj.isEmpty then true else if link.isEmpty then false else decide (a.linkRun < 15)

/-- The arbitration history after a slot in which the link side was taken or not (R22, R179). -/
def InputArb.after (a : InputArb) (link inj : List NextCell) (tookLink : Bool) : InputArb :=
  { linkRun := if link.isEmpty ∨ inj.isEmpty then a.linkRun else if tookLink then min 15 (a.linkRun + 1) else 0
    vc7Inj := if hasVc7 link && hasVc7 inj then !tookLink else a.vc7Inj }

/-! ### Sending a cell (R187) -/

/-- Input `i` sends a cell to middle buffer `m`. -/
def State.sendCell (s : State) (i m : Nat) (c : NextCell) : State :=
  let r := c.r
  let v := s.voq c.key
  let last := decide (r.sent + 1 = r.frame.blocks)
  let cell : Cell :=
    { uid := c.uid, out := c.out, egress := r.egress.code, src := r.src, vc := r.frame.hdr.vc, first := decide (r.sent = 0), last := last, cidx := r.sent
      cseq := c.cseq, prevMid := if c.cseq = 0 then m else v.prevMid, inc := r.inc, born := r.bornPeriod, entered := s.car.slots
      bad := Tab.get false s.car.badIn i }
  let s1 := s.modMid m fun b =>
    let q := Tab.get [] b.queues c.out ++ [cell]
    { b with queues := Tab.put [] b.queues c.out q, hwm := max b.hwm q.length }
  let s2 := (s1.modVoq c.key fun v =>
      { v with count := c.cseq + 1, prevMid := m, inc := s.egressInc r.egress, frames := if last then v.frames.erase c.uid else v.frames }).setFrame c.uid
    (some { r with sent := r.sent + 1, cseq0 := if r.sent = 0 then c.cseq else r.cseq0, place := if last then .carousel else r.place })
  let s3 := if r.src < 256 then (s2.returnCredits r.src r.vc 1).countCar i fun x => { x with cellsSent := inc48 x.cellsSent }
    else (s2.countCar i fun x => { x with injCellsSent := inc48 x.injCellsSent }).pmon i 0x110 0 1
  ((s3.pmon i 0x111 0 1).pmon 0x90 0x141 0 1).modCar fun x => { x with badIn := Tab.put false x.badIn i false, lastVoq := Tab.put none x.lastVoq (if r.src < 256 then i else 256 + i) (some c.key) }

/-- The idle slots of the governor's ladder (R498, R499). -/
def State.idleSlot (s : State) (t : Nat) : Bool :=
  (([0, 8, 4, 12, 2, 10, 6, 14] : List Nat).take (max s.power.gov.step s.power.gov.throttle)).contains (t % 16)

/-- A slot of input `i` (R170, R179). A PU out of service sends nothing. -/
def State.inputSlot (s0 : State) (i : Nat) : State :=
  if s0.puRuns i = false then s0
  else
    let m := (i + s0.car.slot) % 128
    if (s0.mid m).state ≠ .inService then (s0.countCar i fun c => { c with slotSkipped := inc48 c.slotSkipped }).pmon i 0x113 0 1
    else
      let keys := s0.sideVoqs i true ++ s0.sideVoqs i false
      let s := s0.each keys fun t k => t.checkHead i k ((t.voq k).frames.length + 1)
      if s.idleSlot s.car.slot then s
      else
        let all (link : Bool) : List NextCell := (s.sideVoqs i link).filterMap s.nextCell
        let ok (l : List NextCell) : List NextCell := l.filter fun c => s.room m c.out c.r.frame.hdr.vc
        let link := ok (all true)
        let inj := ok (all false)
        if link.isEmpty && inj.isEmpty then
          if (all true).isEmpty && (all false).isEmpty then s.countCar i fun c => { c with slotNoCell := inc48 c.slotNoCell }
          else (s.countCar i fun c => { c with slotNoRoom := inc48 c.slotNoRoom }).pmon i 0x112 0 1
        else
          let a := Tab.get {} s.car.arb i
          let side := takeLink a link inj
          let s1 := s.modCar fun x => { x with arb := Tab.put {} x.arb i (a.after link inj side) }
          match pickCell (if side then link else inj) (Tab.get none s.car.lastVoq (if side then i else 256 + i)) with
          | none => s1
          | some c => s1.sendCell i m c

/-- What the Carousel monitor counts of a slot: the slot itself, one that the governor keeps idle, and the middle buffers draining or skipped. -/
def State.pmonSlot (s : State) : State :=
  let out := ((List.range 128).filter fun m => decide ((s.mid m).state ≠ .inService)).length
  ((s.pmon 0x90 0x140 0 1).pmon 0x90 0x143 0 (b2n (s.idleSlot s.car.slot))).pmon 0x90 0x144 0 out

/-- A slot of the first stage: inputs in increasing order (R176); then the next slot begins. -/
def State.firstStage (s : State) : State :=
  (s.pmonSlot.each (List.range 128) State.inputSlot).modCar fun c => { c with slot := (c.slot + 1) % 128, slots := c.slots + 1 }

/-! ### The second stage (R171, R190) -/

/-- The STATE that a cell takes at second-stage departure (R190). -/
def State.departureState (s : State) (c : Cell) (bad : Bool) : Nat :=
  let stale := if c.egress ≤ 1 then (match s.outPort c.out c.egress with | some p => decide ((s.link p).inc ≠ c.inc) | none => true) else false
  if stale then 3
  else if s.lifetimeNs ≤ (s.car.period - c.born).toNat * 256 then 1
  else if c.bad || bad then 2
  else 0

/-- A slot of middle buffer `m`: the oldest cell for the open output that it faces leaves. -/
def State.midSlot (s : State) (m : Nat) : State :=
  let b := s.mid m
  let o := (m + s.car.slot) % 128
  if b.state = .skippedFenced ∨ b.state = .skippedOff ∨ Tab.get false s.car.closed o then s
  else
    match Tab.get [] b.queues o with
    | [] => s
    | c :: rest =>
      if s.car.slots ≤ c.entered then s
      else
        let c1 := { c with state := s.departureState c b.bad }
        ((s.pmon 0x90 0x142 0 1).modMid m fun b =>
          { b with queues := Tab.put [] b.queues o rest, bad := false
                   recent := (s.car.slots, o, c.vc) :: b.recent.filter fun e => decide (s.car.slots ≤ e.1 + 1) }).modCar fun x =>
          { x with arrivals := Tab.mod [] x.arrivals o (· ++ [c1]) }

/-- A slot of the second stage. -/
def State.secondStage (s : State) : State := s.each (List.range 128) State.midSlot

/-! ### Egress pools (R184, R185) -/

/-- The quads whose pools serve together with quad `q`, and their number. -/
def State.poolQuads (s : State) (q : Nat) : List Nat :=
  match s.mainPortOfQuad q with
  | some p => s.quadsOf p
  | none => [q]

/-- Cells held by the resequencers of an egress. -/
def State.heldCells (s : State) (ekey : Nat) : Nat :=
  ((s.car.reseqs.filter fun e => decide (flowEgress e.1 = ekey)).map fun e => e.2.held.length).sum

/-- Cells in the pool of a list of quads: held cells, released cells of frames still incomplete, and released frames. -/
def State.poolCells (s : State) (qs : List Nat) : Nat :=
  ((s.car.reseqs.filter fun e => qs.contains (flowEgress e.1 / 8)).map fun e =>
    e.2.held.length + (match e.2.current with | some (_, n) => n | none => 0)).sum +
  (s.car.frames.map fun e => match e.2 with
    | some r => if (r.place = .queued ∨ r.place = .orderHeld ∨ r.place = .inbox) ∧ qs.contains r.egress.pu then r.frame.blocks else 0
    | none => 0).sum

/-- Keep the marks of an egress port (Table 5.8). -/
def State.markPool (s : State) (p : Nat) : State :=
  let h := s.heldCells (8 * leadOf p + p % 2)
  let n := s.poolCells (s.quadsOf p)
  s.modCar fun c => { c with hwm := Tab.mod {} c.hwm p fun x => { x with held := max x.held h, pool := max x.pool n } }

/-- The outputs open or close for the coming period; an output whose PU is fenced is open (R185, R186). -/
def State.openOutputs (s : State) : State :=
  s.each (List.range 128) fun t o =>
    let qs := t.poolQuads o
    let closed := decide (2048 * qs.length < t.poolCells qs + 128 * qs.length) && !puHeld (fun u => t.fenced u || t.marked u || t.testing u) o
    let t1 := t.modCar fun c => { c with closed := Tab.put false c.closed o closed }
    if closed then (t1.countCar o fun c => { c with periodsClosed := inc48 c.periodsClosed }).pmon o 0x11C 0 1
    else if qs.head? = some o then t1.modCar fun c => { c with openPeriods := Tab.mod 0 c.openPeriods o (· + 1) }
    else t1

/-- The start of a period (R169, R183, R185, R194). -/
def State.periodStart (s : State) : State :=
  ((s.pmon 0x90 0x145 0 ((s.car.mids.map fun e => (e.2.queues.map fun q => q.2.length).sum).sum)).modCar fun c =>
    { c with
      slot := 0, period := c.period + 1, shares := c.sharesPending.getD c.shares, sharesPending := none
      mids := Tab.mapAll {} c.mids fun b => if b.state = .draining then { b with drained := b.drained + 1 } else b }).openOutputs

/-! ### Egress queues and the order of tunnelled traffic (R201, R249) -/

/-- A frame enters its egress queue (R201). A sleeping handshake sees it (R471). -/
def State.enqueue (s : State) (p uid : Nat) : State :=
  match s.frame? uid with
  | none => s
  | some r =>
    let s1 := (s.setFrame uid (some { r with place := .queued, queuedAt := s.now })).modSched p fun x =>
      x.modQueue (egressQueue r.frame) fun q => { q with frames := q.frames ++ [uid], occHwm := max q.occHwm (q.frames.length + 1) }
    if (s.port p).pcie then s1 else s1.modLink p Link.sleepFrame

/-- PSEQ of a tunnel frame. -/
def pseqOf (h : Hdr) : BitVec 16 := h.addr.setWidth 16

/-- LASTP of a source and class at a port, 0 before any. -/
def State.lastpOf (s : State) (p : Nat) (h : Hdr) : BitVec 16 :=
  match (Tab.get [] s.parts.lastp p).find? fun e => decide (e.1 = h.src ∧ e.2.1 = h.cls) with
  | some e => e.2.2
  | none => 0

/-- A port tracks the order of a source: one of up to 64 source GEIDs, or room for it (R249). -/
def State.tracked (s : State) (p : Nat) (g : Geid) : Bool :=
  let l := ((Tab.get [] s.parts.lastp p).map fun e => e.1).eraseDups
  l.contains g || decide (l.length < 64)

/-- A port is the last on the way of its frames: its partner is no switch. -/
def State.finalPort (s : State) (p : Nat) : Bool := decide ((s.partner p).kind ≠ 1)

/-- A non-posted or completion tunnel frame to which the order of R249 applies. -/
def orderedTunnel (r : FrameRec) : Bool :=
  decide (r.frame.hdr.type = tyPcie ∧ r.frame.hdr.kind ≠ .posted) && !r.demoted && (match r.frame.tlp with | some t => !t.relaxed | none => true)

/-- PSEQ is ahead of LASTP. -/
def State.ahead (s : State) (p : Nat) (h : Hdr) : Bool :=
  let d := (pseqOf h - s.lastpOf p h).toNat
  decide (d ≠ 0 ∧ d < 32768)

/-- Release a held frame to its egress queue. -/
def State.unhold (s : State) (p uid : Nat) : State :=
  (s.modParts fun x => { x with held := Tab.mod [] x.held p (·.erase uid) }).enqueue p uid

/-- Held frames that no longer wait enter their queues in the order held. `newer` is the PSEQ of a posted frame that arrives. -/
def State.releaseHeld (s : State) (p : Nat) (src : Geid) (cls : BitVec 3) (newer : Option (BitVec 16)) : State :=
  s.each (Tab.get [] s.parts.held p) fun t uid =>
    match t.frame? uid with
    | none => t
    | some r =>
      let h := r.frame.hdr
      let later := match newer with | some n => let d := (n - pseqOf h).toNat; decide (d ≠ 0 ∧ d < 32768) | none => false
      if decide (h.src = src ∧ h.cls = cls) && (later || !t.ahead p h) then t.unhold p uid else t

/-- A whole frame for a port: held under R249, or queued. -/
def State.toEgress (s : State) (p uid : Nat) : State :=
  match s.frame? uid with
  | none => s
  | some r =>
    let h := r.frame.hdr
    if s.finalPort p = false ∨ h.type ≠ tyPcie then s.enqueue p uid
    else if h.kind = .posted then ((if r.demoted then s else s.releaseHeld p h.src h.cls (some (pseqOf h))).enqueue p uid)
    else if orderedTunnel r = false then s.enqueue p uid
    else if s.tracked p h.src = false then (s.countPart (leadOf p) fun c => { c with orderUntracked := inc48 c.orderUntracked }).enqueue p uid
    else if s.ahead p h then
      ((s.countPart (leadOf p) fun c => { c with orderHolds := inc48 c.orderHolds }).setFrame uid
        (some { r with place := .orderHeld, queuedAt := s.now })).modParts fun x => { x with held := Tab.mod [] x.held p (· ++ [uid]) }
    else s.enqueue p uid

/-- A posted tunnel frame starts transmission on its final port: LASTP advances, and frames that it held back enter their queues (R249). -/
def State.noteLastp (s : State) (p : Nat) (r : FrameRec) : State :=
  let h := r.frame.hdr
  if h.type = tyPcie ∧ h.kind = .posted ∧ r.demoted = false ∧ s.finalPort p ∧ s.tracked p h.src then
    (s.modParts fun x => { x with lastp := Tab.mod [] x.lastp p fun l =>
      (h.src, h.cls, pseqOf h) :: l.filter fun e => !decide (e.1 = h.src ∧ e.2.1 = h.cls) }).releaseHeld p h.src h.cls none
  else s

/-! ### The resequencer (R188, R190) -/

/-- A resequencer. -/
def State.reseq (s : State) (k : Nat) : Reseq := Tab.get {} s.car.reseqs k
/-- Change a resequencer. -/
def State.modReseq (s : State) (k : Nat) (f : Reseq → Reseq) : State := s.modCar fun c => { c with reseqs := Tab.mod {} c.reseqs k f }

/-- A frame of which a cell is lost: ended as FENCED where its cell 0 arrived, and otherwise discarded and counted (R190, R191). -/
def State.loseFrame (s : State) (uid pu : Nat) : State :=
  match s.frame? uid with
  | none => s
  | some r =>
    match r.firstAt with
    | some q => s.endFrame uid q .fenced
    | none => (s.discard uid).countCar pu fun c => { c with reseqFrameLost := inc48 c.reseqFrameLost }

/-- A frame that is whole goes to the egress scheduler, or reaches its internal target, which frees its epochs (R151, R188). -/
def State.handOver (s : State) (uid : Nat) (r : FrameRec) : State :=
  match r.egress.port with
  | some p => s.toEgress p uid
  | none => (s.setFrame uid (some { r with place := .inbox, epochs := [] })).modCar fun c => { c with inboxes := Tab.mod [] c.inboxes r.egress.key (· ++ [uid]) }

/-- A frame is whole at its egress: it ends for the cause of the check there, or is handed over (R151, R188). -/
def State.deliverRec (s : State) (uid pu : Nat) (r : FrameRec) (c : Option EndCause) : State :=
  match c with
  | some e => s.endAt uid (r.firstAt.getD pu) e
  | none => s.handOver uid r

/-- A frame is whole at its egress at PU `pu` (R151, R188). -/
def State.deliverFrame (s : State) (uid pu : Nat) : State :=
  match s.frame? uid with
  | none => s
  | some r => s.deliverRec uid pu r (s.checkCause r)

/-- A cell is released in CSEQ order at PU `pu` (R188, R190): cells of a frame that has ended are discarded. -/
def State.releaseCell (s0 : State) (k pu : Nat) (c : Cell) : State :=
  let s := s0.pmon pu 0x118 0 1
  match s.frame? c.uid with
  | none => s.modReseq k fun q => { q with current := none }
  | some r =>
    if c.state = 2 ∧ c.first then
      ((s.discard c.uid).countCar pu fun x => { x with reseqFrameLost := inc48 x.reseqFrameLost }).modReseq k fun q => { q with current := none }
    else
      let r1 := if c.state = 1 then { r with ending := some (firstCause r.ending .lifetime) } else r
      let r2 := if c.state = 2 then { r1 with frame := { r1.frame with hdr := { r1.frame.hdr with poison := true } } } else r1
      let s1 := (s.setFrame c.uid (some r2)).countPoison pu (decide (c.state = 2) && !r1.frame.hdr.poison)
      if c.last then (s1.modReseq k fun q => { q with current := none }).deliverFrame c.uid pu
      else s1.modReseq k fun q => { q with current := some (c.uid, c.cidx + 1) }

/-- Release the held cells of a flow with consecutive CSEQ from NEXT. -/
def State.releaseRun (s : State) (k pu : Nat) : Nat → State
  | 0 => s
  | n + 1 =>
    let q := s.reseq k
    match q.held.find? fun e => decide (e.1.cseq = q.next) with
    | none => s
    | some e => ((s.modReseq k fun q => { q with next := q.next + 1, held := q.held.erase e }).releaseCell k pu e.1).releaseRun k pu n

/-- A cell reaches the resequencer of its flow (R188). -/
def State.reseqCell (s : State) (k pu lead : Nat) (port : Option Nat) (c : Cell) : State :=
  let q := s.reseq k
  let d := (c.cseq - q.next).toNat
  if d = 0 then (((s.modReseq k fun q => { q with next := q.next + 1 }).releaseCell k pu c).releaseRun k pu (q.held.length + 1))
  else if d < 32768 then
    let s1 := s.modReseq k fun q => { q with held := q.held ++ [(c, Tab.get 0 s.car.openPeriods lead)] }
    match port with
    | some p => (s1.modCar fun x => { x with hwm := Tab.mod {} x.hwm p fun h => { h with displace := max h.displace d } }).markPool p
    | none => s1
  else s.countCar pu fun x => { x with reseqOld := inc48 x.reseqOld }

/-- The frame of a cell that an output discards. -/
def State.dropCell (s : State) (c : Cell) (pu : Nat) (cause : EndCause) : State :=
  match s.frame? c.uid with
  | none => s
  | some r => if cause = .linkDown ∧ s.staleFrame r then s.endStale c.uid (r.firstAt.getD pu) else s.endFrame c.uid (r.firstAt.getD pu) cause

/-- Count a cell that arrives at an output (Table 5.7). -/
def CarouselCounters.arrived (x : CarouselCounters) (st : Nat) : CarouselCounters :=
  let y := { x with cellsRcvd := inc48 x.cellsRcvd }
  match st with
  | 1 => { y with expiredCells := inc48 y.expiredCells }
  | 2 => { y with payloadErrCells := inc48 y.payloadErrCells }
  | 3 => { y with staleCells := inc48 y.staleCells }
  | _ => y

/-- The oldest cell that stands at output `o` is taken (R186, R188). -/
def State.takeCell (s0 : State) (o : Nat) : State :=
  match Tab.get [] s0.car.arrivals o with
  | [] => s0
  | c :: rest =>
    let s1 := (s0.modCar fun x => { x with arrivals := Tab.put [] x.arrivals o rest }).countCar o fun x => x.arrived c.state
    let s := if c.first then s1.modFrame c.uid fun r => { r with firstAt := some o } else s1
    if s.puRuns o = false then s.dropCell c o .fenced
    else if c.egress ≤ 1 then
      match s.outPort o c.egress with
      | none => s.dropCell c o .linkDown
      | some p =>
        if s.up p = false ∨ Tab.get false s.power.quadOn o = false ∨ c.state = 3 ∨ c.inc ≠ (s.link p).inc then s.dropCell c o .linkDown
        else (s.reseqCell (flowKey c.src (8 * leadOf p + p % 2) c.vc) o (leadOf p) (some p) c).markPool p
    else if Tab.get false s.power.ringDiscard (ringOf o) then s.dropCell c o .fenced
    else s.reseqCell (flowKey c.src (8 * o + c.egress) c.vc) o o none c

/-! ### Gaps (R191, R192) -/

/-- The lowest held cell of a flow above NEXT, with its distance. -/
def Reseq.lowest (q : Reseq) : Option (Cell × Nat) := leastBy (fun e => (e.1.cseq - q.next).toNat) q.held

/-- The frames of a flow with a cell among `n` CSEQs from `q`. -/
def State.framesOfGap (s : State) (k : Nat) (q : BitVec 16) (n : Nat) : List Nat :=
  s.framesWith fun r => decide (r.flow = k) && decide (0 < r.sent) &&
    (decide ((q - r.cseq0).toNat < r.sent) || decide ((r.cseq0 - q).toNat < n))

/-- Skip the gap of a flow whose lowest held cell has waited 16 open periods (R191); an overrun is reported against the middle buffer that PREV_MID names (R192). -/
def State.skipGap (s : State) (k pu lead : Nat) : State :=
  let q := s.reseq k
  match q.lowest with
  | none => s
  | some (c, at_) =>
    if Tab.get 0 s.car.openPeriods lead - at_ < 15 then s
    else
      let n := (c.cseq - q.next).toNat
      let s1 := (s.countCar pu fun x => { x with reseqSkipped := satAdd x.reseqSkipped n }).pmon pu 0x11A 0 n
      let s2 := s1.each (s1.framesOfGap k q.next n) fun t uid => t.loseFrame uid pu
      let s3 := if (s2.mid c.prevMid).state = .inService then
          (s2.countCar pu fun x => { x with reseqOverrun := inc48 x.reseqOverrun }).report (BitVec.ofNat 12 (0x400 + c.prevMid)) 0x01 0
        else s2
      (s3.modReseq k fun q => { q with next := c.cseq, current := none }).releaseRun k pu (q.held.length + 1)

end Sys2Proof.Machine
end

