-- ==== Sys2Proof/Machine/Carousel.lean ====
section
/-!
DEFINITION. Meanings of the Carousel switch core (chapter 5).
-/

namespace Sys2Proof.Machine

/-! ### Group 0x05 commands (R199) -/

/-- R199: CAROUSEL_QUERY (Table 5.11). -/
def execCarouselQuery (mb : Mb) (s : State) : Out :=
  .next (runCmd { opcode := 0x0500, priv := true, query := true }
    (fun s _ _ => .done s (bytesOf 35 (packBits ((List.range 128).map (fun m => ((s.mid m).state.code, 2)) ++ [(s.car.period.toNat, 24)])))) mb.val s)

/-- R175: VOQ_LIMIT_SET (Table 5.11). -/
def execVoqLimitSet (mb : Mb) (s : State) : Out :=
  .next (runCmd { opcode := 0x0501, priv := true, len := fun _ => 5, fields := [(0, 8), (8, 1), (16, 8), (24, 16)],
                  checks := fun pl => [(24, decide (18 ≤ fld pl 24 16))] }
    (fun s pl _ => s.onPort mb.val (fld pl 0 8) (fld pl 8 1) 0 fun p =>
      if s.storeOf p < fld pl 24 16 then .fail stInvalidField 24
      else .done (s.modCar fun c =>
        { c with voqLimit := (List.range 8).foldl (fun t v => if bitOf pl (16 + v) then Tab.put none t (8 * p + v) (some (fld pl 24 16)) else t) c.voqLimit })
        []) mb.val s)

/-- RES and MAX of Table 5.10. -/
def sharesOf (pl : Nat) : List Share := (List.range 8).map fun v => ⟨fld pl (10 * v) 5, fld pl (10 * v + 5) 5⟩

/-- R183: MIDDLE_SHARE_SET (Table 5.10). -/
def execMiddleShareSet (mb : Mb) (s : State) : Out :=
  .next (runCmd { opcode := 0x0502, priv := true, len := fun _ => 16, fields := [(0, 80)],
                  checks := fun pl =>
                    (0, decide (sumRes (sharesOf pl) ≤ 16)) :: (List.range 8).flatMap fun v =>
                      let x := nth ⟨0, 0⟩ (sharesOf pl) v
                      [(10 * v, decide (x.res ≤ x.max ∧ (6 ≤ v → x.res ≠ 0))), (10 * v + 5, decide (1 ≤ x.max ∧ x.max ≤ 16))] }
    (fun s pl _ => .done (s.modCar fun c => { c with sharesPending := some (sharesOf pl) }) []) mb.val s)

/-- R178: PCIE_STORE_SET (Table 5.11). -/
def execPcieStoreSet (mb : Mb) (s : State) : Out :=
  .next (runCmd { opcode := 0x0503, priv := true, len := fun _ => 3, fields := [(0, 8), (8, 1), (9, 6), (15, 6)],
                  checks := fun pl => [(9, decide (4 ≤ fld pl 9 6 ∧ fld pl 9 6 + fld pl 15 6 ≤ 56)), (15, decide (4 ≤ fld pl 15 6))] }
    (fun s pl _ => s.onPort mb.val (fld pl 0 8) (fld pl 8 1) 0 fun p =>
      if (s.port p).pcie = false then .fail stBadState 0
      else .done (s.modCar fun c => { c with pcieSharePending := Tab.put none c.pcieSharePending p (some (fld pl 9 6, fld pl 15 6)) }) []) mb.val s)

/-- The counters of Table 5.7 in table order. -/
def CarouselCounters.list (c : CarouselCounters) : List Nat :=
  [c.cellsSent, c.injCellsSent, c.slotNoCell, c.slotNoRoom, c.slotSkipped, c.cellsRcvd, c.periodsClosed, c.expiredCells, c.payloadErrCells, c.staleCells,
   c.reseqSkipped, c.reseqOverrun, c.reseqFrameLost, c.reseqOld, c.voqWaits]

/-- R197: CAROUSEL_COUNTERS_READ. -/
def execCarouselCountersRead (mb : Mb) (s : State) : Out :=
  .next (runCmd { opcode := 0x0504, priv := false, query := true, len := fun _ => 1, fields := [(0, 7), (7, 1)] }
    (fun s pl _ => s.onPu mb.val (fld pl 0 7) (
      .done (if bitOf pl 7 then s.countCar (fld pl 0 7) fun _ => {} else s) (packCounters (Tab.get {} s.car.counters (fld pl 0 7)).list))) mb.val s)

/-- The fullest VOQ of a port on a VC. -/
def State.fullestVoq (s : State) (p v : Nat) : Nat :=
  ((s.car.voqs.filter fun e => decide (flowSrc e.1 = p ∧ e.1 % 8 = v)).map fun e => s.cellsLeft e.2.frames).foldl max 0

/-- The fullest queue of a middle buffer. -/
def MidBuf.fullest (b : MidBuf) : Nat := (b.queues.map fun e => e.2.length).foldl max 0

/-- The largest displacement of a held cell of an egress. -/
def State.displacement (s : State) (ekey : Nat) : Nat :=
  ((s.car.reseqs.filter fun e => decide (flowEgress e.1 = ekey)).flatMap fun e => e.2.held.map fun h => (h.1.cseq - e.2.next).toNat).foldl max 0

/-- The marks of a port at its present occupancy (R198). -/
def State.occupancy (s : State) (p : Nat) : PortHwm :=
  { voq := (List.range 8).map (s.fullestVoq p), store := s.storeCells p, held := s.heldCells (8 * leadOf p + p % 2), pool := s.poolCells (s.quadsOf p)
    displace := s.displacement (8 * leadOf p + p % 2) }

/-- The marks of a port and of the middle buffers of its quads (Tables 5.8 and 5.11). -/
def State.hwmBytes (s : State) (p : Nat) : List Byte :=
  let h := Tab.get {} s.car.hwm p
  packVals ((h.voq ++ [h.store, h.held, h.pool, h.displace]).map (fun n => (n, 2)) ++ (s.quadsOf p).map fun q => ((s.mid q).hwm, 1))

/-- The marks of a port return to its present occupancy (R198). -/
def State.resetHwm (s : State) (p : Nat) : State :=
  (s.modCar fun c => { c with hwm := Tab.put {} c.hwm p (s.occupancy p) }).each (s.quadsOf p) fun t q => t.modMid q fun b => { b with hwm := b.fullest }

/-- R198: BUFFER_HWM_READ (Table 5.11). -/
def execBufferHwmRead (mb : Mb) (s : State) : Out :=
  .next (runCmd { opcode := 0x0505, priv := false, query := true, len := fun _ => 2, fields := [(0, 8), (8, 1), (9, 1)] }
    (fun s pl _ => s.onPort mb.val (fld pl 0 8) (fld pl 8 1) 0 fun p => .done (if bitOf pl 9 then s.resetHwm p else s) (s.hwmBytes p)) mb.val s)

/-! ### Cells -/

/-- R174: VOQ_ADMIT. -/
def execVoqAdmit (src : SrcNo) (vc : VcNo) (s : State) : Out := .next (if s.running then s.tryVoq src.val vc.val else s)

/-- R179: FIRST_STAGE_SLOT, after the second stage of the same slot. -/
def execFirstStageSlot (s : State) : Out := .next (if s.running then s.firstStage else s)

/-- R171: SECOND_STAGE_SLOT. -/
def execSecondStageSlot (s : State) : Out := .next (if s.running then s.secondStage else s)

/-- R185: PERIOD_START. -/
def execPeriodStart (s : State) : Out := .next (if s.running then s.periodStart else s)

/-- R188: OUTPUT_CELL_ARRIVAL: the oldest cell that stands at an output. -/
def execOutputCellArrival (o : PuNo) (s : State) : Out := .next (if s.running then s.takeCell o.val else s)

/-- R191: RESEQ_GAP_SKIP, of the flow to a port and of the flows to the internal targets at its outputs. -/
def execReseqGapSkip (p : PortNo) (src : SrcNo) (vc : VcNo) (s : State) : Out :=
  .next (if s.running then
      let lead := leadOf p.val
      ([8 * lead + p.val % 2] ++ ([2, 3, 4, 5] : List Nat).flatMap fun c => (s.quadsOf p.val).map fun q => 8 * q + c).foldl
        (fun t ekey => t.skipGap (flowKey src.val ekey vc.val) lead lead) s
    else s)

/-! ### Middle buffers -/

/-- R194: MIDDLE_BUFFER_DRAIN_END: skipped once empty, or after 16 periods; cells still in it are lost. -/
def execMiddleBufferDrainEnd (m : MidNo) (s : State) : Out :=
  let b := s.mid m.val
  .next (if s.running && decide (b.state = .draining) && (b.queues.isEmpty || decide (16 ≤ b.drained)) then
      s.modMid m.val fun b => { b with state := if b.forOff then .skippedOff else .skippedFenced, queues := [], recent := [], drained := 0 }
    else s)

/-- R195: MIDDLE_BUFFER_RETURN: a skipped middle buffer that no fence, mark, test or powered-off Ring holds returns with its queues empty. -/
def execMiddleBufferReturn (m : MidNo) (s : State) : Out :=
  let b := s.mid m.val
  .next (if s.running && (b.state == .skippedFenced || b.state == .skippedOff) && !midHeld s.out m.val && !s.ringIsOff (ringOf m.val) then
      s.modMid m.val fun b => { b with state := .inService, queues := [], recent := [], drained := 0, forOff := false, bad := false }
    else s)

end Sys2Proof.Machine
end

