-- ==== Sys2Proof/Machine/MoverOps.lean ====
section
/-!
DEFINITION. The shared data mover: doorbells (R288, R512), descriptors (R289), fetches, chunks and flush reads (R291 to R294), and what ends them.
-/

namespace Sys2Proof.Machine

/-! ### Descriptors and tags -/

/-- A descriptor of 64 bytes (Table 8.3). -/
def Desc.ofBytes (l : List Byte) : Desc :=
  let v := natOf l
  { op := fbv v 0 4, fence := bitOf v 4, irq := bitOf v 5, quiet := bitOf v 6, noFlush := bitOf v 7, cls := fbv v 8 3, userTag := fbv v 32 32,
    length := fbv v 64 32, srcGeid := fbv v 96 20, srcInst := fbv v 116 12, srcAddr := fbv v 128 64, dstGeid := fbv v 192 20,
    dstInst := fbv v 212 12, dstAddr := fbv v 224 64, reserved := decide (fld v 11 21 ≠ 0 ∨ fld v 288 224 ≠ 0) }

/-- A descriptor that is not executed (R289). -/
def Desc.bad (d : Desc) : Bool :=
  let n := d.length.toNat
  decide (2 < d.op) || d.reserved || (if d.op = 0 then decide (n ≠ 0) else decide (n = 0 ∨ 1073741824 < n))

/-- TAG of the k-th request of Juggler `j` (R293). -/
def moverTagOf (j k : Nat) : BitVec 12 := BitVec.ofNat 12 (8 * j + k)

/-- A free tag of a Juggler. -/
def State.moverFree (s : State) (j : Nat) : Option Nat := (List.range 8).find? fun k => (Tab.get none (s.juggler j).tags k).isNone

/-- A ring issues a MEM_READ under a tag of its Juggler (R291, R293). -/
def State.moverRead (s : State) (id : Nat) (r : MoverRing) (k : Nat) (rd : MoverRead) (desc : Option Nat) (g : Geid) (inst : BitVec 12) (a : BitVec 64)
    (n : Nat) (cls : BitVec 3) : State :=
  let h : Hdr := { dst := g, src := s.geid 3, type := tyMemRead, cls := cls, tag := moverTagOf r.juggler k, part := s.ringOwner r, inst := inst,
                   addr := a, tw := BitVec.ofNat 64 n }
  let uid := s.car.nextUid
  ((((s.takeTag h n none).modJuggler r.juggler fun x => { x with tags := Tab.put none x.tags k (some { ring := id, read := rd }) }).form r.juggler
    (some id) { hdr := h }).modFrame uid fun f => { f with desc := desc })

/-- A ring issues a MEM_WRITE of a descriptor's data (R291, R294). -/
def State.moverWrite (s : State) (id : Nat) (r : MoverRing) (d : DescRun) (off : Nat) (data : List Byte) (poison : Bool) : State :=
  let uid := s.car.nextUid
  let s1 := (s.form r.juggler (some id)
    { hdr := { dst := d.desc.dstGeid, src := s.geid 3, type := tyMemWrite, cls := d.desc.cls, poison := poison, length := BitVec.ofNat 13 data.length,
               part := s.ringOwner r, inst := d.desc.dstInst, addr := d.desc.dstAddr + BitVec.ofNat 64 off }
      payload := data }).modFrame uid fun f => { f with desc := some d.index }
  s1.countPoison (r.juggler / 4) poison

/-- Change a descriptor of a ring. -/
def MoverRing.modDesc (r : MoverRing) (k : Nat) (f : DescRun → DescRun) : MoverRing :=
  { r with descs := r.descs.map fun d => if d.index = k then f d else d }

/-! ### Ends of descriptors -/

/-- The completions of a descriptor's outstanding reads are to be discarded. -/
def State.killDesc (s : State) (id k : Nat) : State :=
  match s.moverRing id with
  | none => s
  | some r => s.modJuggler r.juggler fun x =>
      { x with tags := Tab.mapAll none x.tags fun t => t.map fun u =>
          if decide (u.ring = id) && (match u.read with | .chunk n _ _ => n == k | .flush n => n == k | .fetch _ _ => false) then { u with dead := true } else u }

/-- A ring with STOP_ON_ERROR enters ERROR at a failure; fetched descriptors not started are given up (R294). -/
def State.ringFailed (s : State) (id : Nat) : State :=
  match s.moverRing id with
  | none => s
  | some r => if r.stopOnError ∧ r.state ≠ .error then (s.modMover id MoverRing.giveUp).setRingState id .error 7 else s

/-- A descriptor ends at its first failure (R294). -/
def State.failDesc (s : State) (id k : Nat) (st : BitVec 8) : State :=
  ((s.killDesc id k).modMover id fun r => r.modDesc k fun d => { d with status := some (d.status.getD st), chunks := [], flush := false }).ringFailed id

/-! ### The steps of a ring -/

/-- Bytes up to the next 4 KiB boundary, at most `n`. -/
def toPage (a : BitVec 64) (n : Nat) : Nat := min n (4096 - a.toNat % 4096)

/-- Descriptors in progress on a Juggler (R294). -/
def State.inProgress (s : State) (j : Nat) : Nat :=
  ((s.ringsWith fun r => decide (r.juggler = j)).map fun id =>
    match s.moverRing id with | some r => (r.descs.filter fun d => d.started && d.status.isNone).length | none => 0).sum

/-- The bytes of a FILL from an offset (R291). -/
def fillBytes (pattern : BitVec 64) (off n : Nat) : List Byte := (List.range n).map fun i => BitVec.ofNat 8 (pattern.toNat >>> (8 * ((off + i) % 8)))

/-- Every byte of a descriptor has been written. -/
def DescRun.allWritten (d : DescRun) : Bool := decide (d.desc.length.toNat ≤ d.wrote)

/-- The first descriptor of a ring that is started and has not ended, if its turn to write has come (R292). -/
def MoverRing.writer (r : MoverRing) : Option DescRun := r.descs.find? fun d => d.started && d.status.isNone && !d.allWritten

/-- The record of the oldest descriptor, once it has ended and there is room for its frames. -/
def State.stepRecord (s : State) (id : Nat) (r : MoverRing) : Option State :=
  match r.descs with
  | d :: _ => if d.status.isSome ∧ s.canForm r.juggler 2 then some ((s.writeRingRecord id).settleRing id) else none
  | [] => none

/-- The next write of the data that the front chunk holds (R291, R294). -/
def State.stepWrite (s : State) (id : Nat) (r : MoverRing) : Option State :=
  match r.writer with
  | none => none
  | some d =>
    if d.desc.op = 2 then
      let n := toPage (d.desc.dstAddr + BitVec.ofNat 64 d.wrote) (min 4096 (d.desc.length.toNat - d.wrote))
      if s.canForm r.juggler (blocksFor n) then
        some (((s.moverWrite id r d d.wrote (fillBytes d.desc.srcAddr d.wrote n) false).jmon r.juggler 0x1D1 n).modMover id fun r =>
          { r.modDesc d.index (fun d => { d with wrote := d.wrote + n }) with bytesMoved := satAdd r.bytesMoved n })
      else none
    else
      match d.chunks with
      | [] => none
      | c :: rest =>
        let n := toPage (d.desc.dstAddr + BitVec.ofNat 64 c.off) c.len
        if c.done ∧ s.canForm r.juggler (blocksFor n) then
          let left := if n = c.len then rest else { c with off := c.off + n, len := c.len - n, data := c.data.drop n } :: rest
          let s1 := ((s.moverWrite id r d c.off (c.data.take n) c.poison).jmon r.juggler 0x1D1 n).modMover id fun r =>
            { r.modDesc d.index (fun d => { d with wrote := if c.poison then d.wrote else d.wrote + n, chunks := left }) with
                bytesMoved := satAdd r.bytesMoved n }
          some (if c.poison ∧ n = c.len then s1.failDesc id d.index 0x04 else s1)
        else none

/-- The next chunk read of a started COPY (R291). -/
def State.stepRead (s : State) (id : Nat) (r : MoverRing) : Option State :=
  match r.descs.find? fun d => d.started && d.status.isNone && decide (d.desc.op = 1) && decide (d.readOff < d.desc.length.toNat), s.moverFree r.juggler with
  | some d, some k =>
    if s.canForm r.juggler 1 then
      let a := d.desc.srcAddr + BitVec.ofNat 64 d.readOff
      let n := toPage a (min 4096 (d.desc.length.toNat - d.readOff))
      some (((s.moverRead id r k (.chunk d.index d.readOff n) (some d.index) d.desc.srcGeid d.desc.srcInst a n d.desc.cls).jmon r.juggler 0x1D2 1).modMover id fun r =>
        r.modDesc d.index fun d => { d with readOff := d.readOff + n, chunks := d.chunks ++ [{ off := d.readOff, len := n }] })
    else none
  | _, _ => none

/-- The flush read of a descriptor whose writes have all been sent, or its end (R292). -/
def State.stepFlush (s : State) (id : Nat) (r : MoverRing) : Option State :=
  match r.descs.find? fun d => d.started && d.status.isNone && d.allWritten && (d.flushed || !d.flush) with
  | none => none
  | some d =>
    if d.desc.op = 0 ∨ d.desc.noFlush ∨ d.flushed then some (s.modMover id fun r => r.modDesc d.index fun d => { d with status := some 0 })
    else
      match s.moverFree r.juggler with
      | none => none
      | some k =>
        if s.canForm r.juggler 1 then
          some ((s.moverRead id r k (.flush d.index) (some d.index) d.desc.dstGeid d.desc.dstInst
            (d.desc.dstAddr + BitVec.ofNat 64 (d.desc.length.toNat - 1)) 1 d.desc.cls).modMover id fun r => r.modDesc d.index fun d => { d with flush := true })
        else none

/-- The next descriptor of a RUNNING ring starts (R289, R291, R294). FENCE waits for the records of every earlier one. -/
def State.stepStart (s : State) (id : Nat) (r : MoverRing) : Option State :=
  match r.descs.find? fun d => !d.started && d.status.isNone with
  | none => none
  | some d =>
    if r.state ≠ .running ∨ r.moveTo.isSome ∨ 4 ≤ s.inProgress r.juggler then none
    else if d.desc.fence && (match r.descs with | x :: _ => x.index != d.index | [] => false) then none
    else if d.desc.bad then some ((s.modMover id fun r => r.modDesc d.index fun d => { d with started := true }).failDesc id d.index 0x10)
    else some (s.modMover id fun r => r.modDesc d.index fun d => { d with started := true })

/-- A fetch of a ring is outstanding. -/
def State.fetching (s : State) (id : Nat) (r : MoverRing) : Bool :=
  (s.juggler r.juggler).tags.any fun e => match e.2 with
    | some t => decide (t.ring = id) && !t.dead && (match t.read with | .fetch _ _ => true | _ => false)
    | none => false

/-- A RUNNING ring fetches up to 8 descriptors from HEAD toward TAIL (R291). -/
def State.stepFetch (s : State) (id : Nat) (r : MoverRing) : Option State :=
  let size := 2 ^ r.n
  let avail := (r.tail + size - r.head) % size
  let n := min (min 8 (min avail (size - r.head))) ((4096 - (64 * r.head + r.descAddr.toNat) % 4096) / 64)
  if r.state ≠ .running ∨ n = 0 ∨ r.moveTo.isSome ∨ s.fetching id r ∨ (r.descs.any fun d => !d.started && d.status.isNone) then none
  else
    match s.moverFree r.juggler with
    | none => none
    | some k =>
      if s.canForm r.juggler 1 then
        some (s.moverRead id r k (.fetch r.head n) none r.descGeid r.descInst (r.descAddr + BitVec.ofNat 64 (64 * r.head)) (64 * n) r.cls)
      else none

/-- The next step of a ring on its Juggler, if it has one. -/
def State.stepRing (s0 : State) (id : Nat) : Option State :=
  let s := s0.moveRing id
  match s.moverRing id with
  | none => none
  | some r =>
    match s.stepRecord id r with
    | some t => some t
    | none =>
      match s.stepWrite id r with
      | some t => some t
      | none =>
        match s.stepRead id r with
        | some t => some t
        | none =>
          match s.stepFlush id r with
          | some t => some t
          | none =>
            match s.stepStart id r with
            | some t => some t
            | none => s.stepFetch id r

/-- The rings of a Juggler in round-robin order after the one served last (R294). -/
def State.ringOrder (s : State) (j : Nat) : List Nat :=
  let l := s.ringsWith fun r => decide (r.juggler = j) && decide (r.state ≠ .disabled)
  match (s.juggler j).lastRing with
  | none => l
  | some n => (l.filter fun id => decide (n < id)) ++ l.filter fun id => decide (id ≤ n)

/-- A step of the data mover on a Juggler. -/
def State.stepMover (s : State) (j : Nat) : Option State :=
  (s.ringOrder j).findSome? fun id => (s.stepRing id).map fun t => t.modJuggler j fun x => { x with lastRing := some id }

/-! ### Doorbells -/

/-- A doorbell frame at index 0x03 (R288, R428, R512): `order` is its place in the order of lookups. -/
def State.doorbell (s : State) (f : Frame) (order : Nat) : State :=
  let h := f.hdr
  let deny := s.modJug fun x => { x with moverDbDeny := inc48 x.moverDbDeny }
  let id := h.addr.toNat / 8
  let tail := natOf f.payload % 32768
  match s.moverRing id with
  | none => deny
  | some r =>
    if h.type ≠ tyMemWrite ∨ h.addr.toNat % 8 ≠ 0 ∨ h.length ≠ 4 ∨ h.part ≠ s.ringOwner r ∨ r.state = .disabled ∨ 2 ^ r.n ≤ tail then deny
    else if h.poison ∨ order < r.doorbell then s
    else s.modMover id fun r => { r with tail := tail, doorbell := order }

/-! ### Completions -/

/-- Descriptors from the bytes of a fetch. -/
def descsOf (first : Nat) : Nat → List Byte → List DescRun
  | 0, _ => []
  | n + 1, l => { index := first, desc := Desc.ofBytes (l.take 64) } :: descsOf (first + 1) n (l.drop 64)

/-- A fetch has ended (R291, R294): its descriptors wait to start, or receive records with the status that ended it, and the ring enters ERROR. -/
def State.fetched (s : State) (id first n : Nat) (data : List Byte) (st : BitVec 8) : State :=
  match s.moverRing id with
  | none => s
  | some r =>
    let head := (first + n) % 2 ^ r.n
    if st = 0 then
      (if r.state = .running then s.modMover id fun r => { r with descs := r.descs ++ descsOf first n data, head := head } else s)
    else
      (s.modMover id fun r =>
        { r with descs := r.descs ++ (List.range n).map (fun i => { index := first + i, desc := {}, status := some st }), head := head }).setRingState id .error 8

/-- A read of the mover has ended with a status and its data. -/
def State.readEnded (s : State) (t : MoverTag) (st : BitVec 8) (poison : Bool) : State :=
  match t.read with
  | .fetch first n => s.fetched t.ring first n t.data (if st = 0 ∧ poison then 0x04 else st)
  | .chunk k off _ =>
    if st = 0 then
      s.modMover t.ring fun r => r.modDesc k fun d =>
        { d with chunks := d.chunks.map fun c => if c.off = off then { c with done := true, data := t.data, poison := poison } else c }
    else s.failDesc t.ring k st
  | .flush k =>
    if st = 0 then s.modMover t.ring fun r => r.modDesc k fun d => { d with flushed := true } else s.failDesc t.ring k st

/-- A completion to index 0x03 (R138, R293, R294, R299). -/
def State.moverCpl (s : State) (f : Frame) : State :=
  let h := f.hdr
  let j := h.tag.toNat / 8
  let k := h.tag.toNat % 8
  let g := s.geid 3
  let unexpected := s.countFab (j / 4) fun c => { c with unexpectedCpl := inc48 c.unexpectedCpl }
  match s.tagUse g h.tag, Tab.get none (s.juggler j).tags k with
  | some u, some t =>
    if u.dst ≠ h.src then unexpected
    else
      let t1 := { t with data := t.data ++ f.payload, poison := t.poison || h.poison }
      if endsRequest f then
        let s1 := (s.setTag g h.tag none).modJuggler j fun x => { x with tags := Tab.put none x.tags k none }
        if t.dead then s1 else s1.readEnded t1 (h.status.setWidth 8) t1.poison
      else s.modJuggler j fun x => { x with tags := Tab.put none x.tags k (some t1) }
  | _, _ => unexpected

/-- The completion timeout of a mover tag (R137, R293): its read ends with TIMEOUT. -/
def State.moverTimeout (s : State) (tag : BitVec 12) : State :=
  let j := tag.toNat / 8
  let k := tag.toNat % 8
  match Tab.get none (s.juggler j).tags k with
  | none => s
  | some t =>
    let s1 := s.modJuggler j fun x => { x with tags := Tab.put none x.tags k none }
    if t.dead then s1 else s1.readEnded t (csTimeout.setWidth 8) false

/-! ### A step of a Juggler (R280) -/

/-- A Juggler may do work of priorities 3 to 5 for a partition (R283). -/
def Juggler.serves (x : Juggler) (own : BitVec 8) : Bool := decide (x.owner = 0 ∨ x.owner = own)

/-- Synthesis of a completion (R154, R279). -/
def State.stepSynth (s : State) (j : Nat) : Option State :=
  match nth [] (s.juggler j).work 0 with
  | .synth h st :: rest =>
    if s.canForm j 1 then
      some (((s.modJuggler j fun x => { x with work := setAt x.work 0 rest, synthCpl := inc48 x.synthCpl }).jmon j 0x1D0 1).form j none (syntheticCpl h st))
    else none
  | _ => none

/-- AER logging. -/
def State.stepAer (s : State) (j : Nat) : Option State :=
  match nth [] (s.juggler j).work 1 with
  | .aer fn bit :: rest => some ((s.modJuggler j fun x => { x with work := setAt x.work 1 rest }).logAer fn bit)
  | _ => none

/-- Heritage bridging: an open block write is sent on (R329). -/
def State.stepBridge (s : State) (j : Nat) : Option State :=
  ([PwPort.a, PwPort.b].find? fun x => (s.pw x).openWrite.isSome && decide (s.workPu (s.pwHome x) = j / 4) && (s.juggler j).serves (s.pwOwner x)).map fun x => s.closeWrite x

/-- Configuration-space emulation (R244). -/
def State.stepConfig (s : State) (j : Nat) : Option State :=
  match nth [] (s.juggler j).work 3 with
  | .config p v n t :: rest =>
    if s.canForm j 1 then some (((s.modJuggler j fun x => { x with work := setAt x.work 3 rest }).jmon j 0x1D5 1).runCfg p v n t) else none
  | _ => none

/-- Count a step of a priority. -/
def State.countStep (s : State) (j prio : Nat) : State :=
  (s.modJuggler j fun x => { x with steps := modAt x.steps (prio - 1) inc48 }).jmon j (0x1C7 + prio) 1

/-- A Juggler carries out a step of its highest-priority work that can be done (R280). -/
def State.jugglerStep (s : State) (j : Nat) : State :=
  match s.stepSynth j with
  | some t => t.countStep j 1
  | none =>
    match s.stepAer j with
    | some t => t.countStep j 2
    | none =>
      match s.stepBridge j with
      | some t => t.countStep j 3
      | none =>
        match s.stepConfig j with
        | some t => t.countStep j 4
        | none =>
          match s.stepMover j with
          | some t => t.countStep j 5
          | none => s

end Sys2Proof.Machine
end

