-- ==== Sys2Proof/Machine/SchedOps.lean ====
section
/-!
DEFINITION. The egress scheduler: heads and colours (R121, R202), time gates (R222 to R228), eligibility (R203), bands and round robin (R204, R205), shapers (R212), and a frame boundary (R204, R208).
-/

namespace Sys2Proof.Machine

/-! ### Gate lists (R222 to R225) -/

/-- The gate bitmap of an entry. -/
def GateList.bits (g : GateList) (k : Nat) : BitVec 9 := (nth (0, 0) g.entries k).1

/-- The offset in the cycle at which entry `k` ends: the last entry lasts to the cycle boundary, which cuts a longer list short (R222). -/
def GateList.entryEnd (g : GateList) (k : Nat) : Nat :=
  if k + 1 < g.entries.length then min g.cycle ((g.entries.take (k + 1)).map Prod.snd).sum else g.cycle

/-- The entry after entry `k` of cycle `n`, with its cycle. -/
def GateList.next (g : GateList) (k n : Nat) : Nat × Nat := if g.entryEnd k < g.cycle then (k + 1, n) else (0, n + 1)

/-- The first instant at which the gate of queue `q` closes, from entry `k` of cycle `n` in which it is open; none where no entry closes it. -/
def GateList.closes (g : GateList) (q : Nat) : Nat → Nat → Nat → Option Nat
  | 0, _, _ => none
  | f + 1, k, n =>
    let e := g.next k n
    if (g.bits e.1).getLsbD q then g.closes q f e.1 e.2 else some (g.start + n * g.cycle + g.entryEnd k)

/-- The entries of one cycle for a queue: open or not, and how long. -/
def gateRuns (q : Nat) : List (BitVec 9 × Nat) → Nat → List (Bool × Nat)
  | [], _ => []
  | [e], left => [(e.1.getLsbD q, left)]
  | e :: r, left => if left ≤ e.2 then [(e.1.getLsbD q, left)] else (e.1.getLsbD q, e.2) :: gateRuns q r (left - e.2)

/-- The longest open window of a queue in a list, across cycle boundaries; none where the queue never closes (R225). -/
def GateList.longest (g : GateList) (q : Nat) : Option Nat :=
  let l := gateRuns q g.entries g.cycle
  if l.all fun e => e.1 then none
  else some ((l ++ l).foldl (fun (a : Nat × Nat) e => if e.1 then (a.1 + e.2, max a.2 (a.1 + e.2)) else (0, a.2)) (0, 0)).2

/-- The gate of queue `q` of a port is open (R223). -/
def Sched.gateOpen (x : Sched) (q : Nat) : Bool := match x.gate with | none => true | some g => (g.bits x.gateEntry).getLsbD q

/-- The window of queue `q` that is still open when a pending start takes effect: its end and GUARD, or none where it never closes. -/
def PendingGate.window (n : PendingGate) (q : Nat) : Option (Nat × Nat) :=
  match n.list with
  | none => none
  | some g => if (g.bits 0).getLsbD q then (g.closes q (g.entries.length + 1) 0 0).map fun t => (t, g.guard) else some (n.start, g.guard)

/-- The instant at which the open gate of queue `q` closes and the GUARD of the list in force then, across a pending start; none where it never closes (R224). -/
def Sched.windowEnd (x : Sched) (q : Nat) : Option (Nat × Nat) :=
  let op := x.gate.bind fun g => (g.closes q (g.entries.length + 1) x.gateEntry x.gateCycles).map fun t => (t, g.guard)
  match x.gatePending with
  | none => op
  | some n =>
    match op with
    | some (t, gd) => if t < n.start then some (t, gd) else n.window q
    | none => n.window q

/-- Bytes in 10^-4 ns on each lane at a PCI Express rate (Table 6.5). -/
def pcieSpeed (rate : BitVec 3) : Nat := nth 73750 [2500, 5000, 9846, 19692, 39385, 73750] rate.toNat

/-- The fit time of a frame as a fraction of ns (Tables 6.4 and 6.5). -/
def State.fitTime (s : State) (p : Nat) (f : Frame) : Nat × Nat :=
  let x := s.port p
  if x.pcie then ((f.hdr.length.toNat + 32) * 10000, pcieSpeed x.rate * max 1 (s.partner p).width.toNat)
  else (f.blocks * 1024, 100 * x.width)

/-- A fit time and a GUARD do not exceed a window. -/
def fitsIn (fit : Nat × Nat) (guard w : Nat) : Bool := decide (fit.1 + guard * fit.2 ≤ w * fit.2)

/-- A frame fits in the open window of its queue (R224). -/
def State.fits (s : State) (p q : Nat) (f : Frame) : Bool :=
  match (s.schedOf p).windowEnd q with
  | none => true
  | some (t, guard) => fitsIn (s.fitTime p f) guard (t - s.fabNs)

/-- A frame never fits in a window of its queue in the operational list (R225). -/
def State.neverFits (s : State) (p q : Nat) (f : Frame) : Bool :=
  match (s.schedOf p).gate with
  | none => false
  | some g => match g.longest q with | none => false | some w => !fitsIn (s.fitTime p f) g.guard w

/-! ### Heads (R121, R202) -/

/-- The order of colours; completions count as green (R202). -/
def colourRank (f : Frame) : Nat := if f.hdr.kind = .completion then 0 else min f.hdr.colour.toNat 2

/-- The frame that R202 selects from a queue: the oldest green head, else yellow, else red, among the heads that the outstanding-request table lets start (R121). -/
def State.selected (s : State) (p k : Nat) : Option (Nat × FrameRec) :=
  leastBy (fun e => colourRank e.2.frame) ((s.queueHeads p k).filter fun e => !s.outFull p e.2.frame)

/-- The credits for a frame: on its VC (R111), or of its PCI Express type (R208): `fc` bit 0 posted, bit 1 non-posted, bit 2 completion. -/
def State.creditsFor (s : State) (p : Nat) (fc : BitVec 3) (f : Frame) : Bool :=
  if (s.port p).pcie then
    (match f.hdr.kind with | .posted => fc.getLsbD 0 | .nonPosted => fc.getLsbD 1 | .completion => fc.getLsbD 2)
  else (s.link p).hasCredits f

/-- End the queued frames of a port that a check point ends (R120, R153, R265). -/
def State.sweepQueues (s : State) (p : Nat) : State :=
  s.each (s.framesWith fun r => decide (r.place = .queued) && decide (r.egress.port = some p) && (s.checkCause r).isSome) fun t uid =>
    match (t.frame? uid).bind t.checkCause with
    | some c => t.endAt uid (leadOf p) c
    | none => t

/-! ### Counters of a boundary -/

/-- Change a queue of a port. -/
def State.modQueue (s : State) (p k : Nat) (f : EgressQueue → EgressQueue) : State := s.modSched p fun x => x.modQueue k f

/-- Count the queues that hold a frame while their peak bucket is below 0 (Table 6.6). -/
def State.countShaperWaits (s : State) (p : Nat) : State :=
  s.each (List.range 9) fun t k =>
    let q := (t.schedOf p).queue k
    if q.peak.peakOk then t
    else
      let t1 := t.pmon (leadOf p) 0x182 k 1
      if q.frames.isEmpty then t1 else t1.modQueue p k fun q => { q with counters := { q.counters with shaperWaits := inc48 q.counters.shaperWaits } }

/-- A frame fails its fit test: it is counted once in GATE_WAITS, and once in GATE_OVERSIZE where it never fits (R225). -/
def State.countGateWait (s : State) (p k uid : Nat) (f : Frame) : State :=
  let q := (s.schedOf p).queue k
  if q.gateWaited.contains uid then s
  else
    let big := s.neverFits p k f
    s.modQueue p k fun q =>
      { q with
        gateWaited := uid :: q.gateWaited.filter fun u => q.frames.contains u
        gateOver := if big then uid :: q.gateOver.filter fun u => q.frames.contains u else q.gateOver
        counters := { q.counters with gateWaits := inc48 q.counters.gateWaits
                                      gateOversize := if big then inc48 q.counters.gateOversize else q.counters.gateOversize } }

/-- The eligible queues among RQ0 to RQ7 and CQ with the frame of each (R203): credits, the gate and its window, and the peak bucket, in this order. -/
def State.eligibleQueues (s : State) (p : Nat) (fc : BitVec 3) : List Nat → List (Nat × Nat) → State × List (Nat × Nat)
  | [], acc => (s, acc)
  | k :: l, acc =>
    match s.selected p k with
    | none => s.eligibleQueues p fc l acc
    | some (uid, r) =>
      if s.creditsFor p fc r.frame = false ∨ (s.schedOf p).gateOpen k = false then s.eligibleQueues p fc l acc
      else if s.fits p k r.frame = false then ((s.countGateWait p k uid r.frame).pmon (leadOf p) 0x184 k 1).eligibleQueues p fc l acc
      else if ((s.schedOf p).queue k).peak.peakOk = false then s.eligibleQueues p fc l acc
      else s.eligibleQueues p fc l (acc ++ [(k, uid)])

/-! ### Bands and round robin (R204, R205) -/

/-- Queues that have left S lose the rest of their turn: the count of a band whose current queue is not in S is spent (R205). -/
def Sched.leave (x : Sched) (l : List Nat) : Sched :=
  { x with rrCount := (x.rrQueue.zip x.rrCount).map fun e => if l.contains e.1 then e.2 else 255 }

/-- The round robin of band `b` within its queues of S: the queue chosen and the scheduler after it (R205). -/
def Sched.turn (x : Sched) (b : Nat) (l : List Nat) : Nat × Sched :=
  let cur := nth 0 x.rrQueue b
  let n := nth 0 x.rrCount b
  if l.contains cur ∧ n < (x.queue cur).weight then (cur, { x with rrCount := setAt x.rrCount b (n + 1) })
  else
    let q := ((l.find? fun k => decide (cur < k)).orElse fun _ => l.head?).getD 0
    (q, { x with rrQueue := setAt x.rrQueue b q, rrCount := setAt x.rrCount b 1 })

/-- The choice among eligible queues (R204): those within their committed rate first, then the lowest band, then its round robin. -/
def Sched.choose (x : Sched) (e : List Nat) : Option Nat × Sched :=
  let c := e.filter fun k => (x.queue k).committed.committedOk
  let l := if c.isEmpty then e else c
  let y := x.leave l
  match leastBy id (l.map fun k => (x.queue k).band.toNat) with
  | none => (none, y)
  | some b =>
    let r := y.turn b (l.filter fun k => decide ((x.queue k).band.toNat = b))
    (some r.1, r.2)

/-- The shapers of a queue and port are debited at the start of a frame (R212): a committed bucket below 0 is not. -/
def Sched.debit (x : Sched) (k : Nat) : Sched :=
  Sched.modQueue { x with portPeak := x.portPeak.debit } k fun q =>
    { q with peak := q.peak.debit, committed := if q.committed.committedOk then q.committed.debit else q.committed }

/-! ### A frame boundary -/

/-- A chosen frame starts at a port: LASTP of R249 and, on a PCIe-mode port, its TLP leaves. -/
def State.send (s : State) (p uid : Nat) (r : FrameRec) : State :=
  let s1 := ((s.startFrame p uid).pmon (leadOf p) 0x181 0 1).noteLastp p r
  if (s.port p).pcie then s1.tlpOut p r else s1

/-- The oldest MQ head with credits, while no VC7 frame is in transmission (R204). -/
def State.mqHead (s : State) (p : Nat) : Option (Nat × FrameRec) :=
  (s.queueHeads p 9).find? fun e => (s.port p).pcie || (s.link p).hasCredits e.2.frame

/-- A frame of VC0 to VC6 is chosen and started (R204, R206). -/
def State.boundaryChoice (s : State) (p : Nat) (fc : BitVec 3) : State :=
  let (s1, e) := s.eligibleQueues p fc (List.range 9) []
  let (q, x) := (s1.schedOf p).choose (e.map Prod.fst)
  let s2 := s1.modSched p fun _ => x
  match q.bind fun k => e.find? fun a => decide (a.1 = k) with
  | none => s2
  | some (k, uid) =>
    match s2.frame? uid with
    | none => s2
    | some r =>
      let s3 := (s2.modSched p fun x => x.debit k).send p uid r
      if (s.port p).pcie then s3 else s3.modSched p fun x => { x with current := some uid }

/-- A frame boundary of a port whose next block slot takes a new frame (R204). -/
def State.frameBoundary (s0 : State) (p : Nat) (fc : BitVec 3) : State :=
  let s := s0.sweepQueues p
  match s.mqHead p with
  | some (uid, r) => s.send p uid r
  | none =>
    let s1 := s.countShaperWaits p
    if (s1.schedOf p).portPeak.peakOk = false then
      (if (List.range 9).any fun k => !((s1.schedOf p).queue k).frames.isEmpty then
        s1.modSched p fun x => { x with portShaperWaits := inc48 x.portShaperWaits } else s1)
    else s1.boundaryChoice p fc

/-- No frame of VC0 to VC6 is in transmission and item 7 of Table 3.7 is next (R204): a native port has room in W, a SYNC since its last retrain, no sleep handshake, and no VC7 frame in transmission. -/
def State.atBoundary (s : State) (p : Nat) : Bool :=
  let x := s.port p
  let l := s.link p
  if x.pcie then decide (x.stage = .pcieL0)
  else s.active p && (s.schedOf p).current.isNone && l.sending.all (fun e => e.2.isNone) && !l.awaitSync && decide (l.u.length < l.w) && !l.sleep.busy

/-! ### Gate starts (R226, R227) -/

/-- The first cycle boundary at or after `t` of a base and cycle time. -/
def firstBoundary (base cycle t : Nat) : Nat := if t ≤ base then base else base + ceilDiv (t - base) (max 1 cycle) * cycle

/-- Schedule the start of a list, or of no gating, at the first boundary at least 10 µs after the command begins (R226). -/
def State.scheduleGate (s : State) (p : Nat) (list : Option GateList) (base cycle : Nat) : State :=
  let start := firstBoundary base cycle (s.fabNs + 10000)
  s.modSched p fun x =>
    { x with gatePending := some { list := list.map fun g => { g with start := start }, start := start, base := base, cycle := cycle } }

/-- A pending list replaces the operational one, or gating ends, at its start time (R227). -/
def State.startGate (s : State) (p : Nat) : State :=
  match (s.schedOf p).gatePending with
  | none => s
  | some g =>
    (s.modSched p fun x => { x with gate := g.list, gatePending := none, gateEntry := 0, gateCycles := 0 }).raise 0x0601
      [(p, 1), (g.start / 1000000000, 6), (g.start % 1000000000, 4)] [s.portOwner p]

end Sys2Proof.Machine
end

