-- ==== Sys2Proof/Machine/Sched.lean ====
section
/-!
DEFINITION. Meanings of scheduling, shaping, metering and time gates (chapter 6).
-/

namespace Sys2Proof.Machine

/-! ### Group 0x06 commands (R231, R232) -/

/-- BAND and WEIGHT of queue `k` in a SCHED_CONFIG payload; WEIGHT 0 keeps both, and the counts of the bands concerned become 0 (R207). -/
def Sched.configure (pl : Nat) (x : Sched) (k : Nat) : Sched :=
  let w := fld pl (18 + 10 * k) 8
  let b := fbv pl (16 + 10 * k) 2
  if w = 0 then x
  else
    let old := (x.queue k).band
    let y := x.modQueue k fun q => { q with band := b, weight := w }
    { y with rrCount := setAt (setAt y.rrCount old.toNat 0) b.toNat 0 }

/-- R207: SCHED_CONFIG (Table 6.10). -/
def execSchedConfig (mb : Mb) (s : State) : Out :=
  .next (runCmd { opcode := 0x0600, priv := true, len := fun _ => 14, fields := [(0, 8), (8, 1), (16, 90)] }
    (fun s pl _ => s.onPort mb.val (fld pl 0 8) (fld pl 8 1) 0 fun p =>
      .done (s.modSched p fun x => (List.range 9).foldl (Sched.configure pl) x) []) mb.val s)

/-- A burst meets the minimum of R210. -/
def burstOk (rate burst : Nat) : Bool := decide (minBurst rate ≤ burst)
/-- A PIR is 0, or at least 256 and at least CIR (R232). -/
def peakRateOk (cir pir : Nat) : Bool := decide (pir = 0 ∨ (256 ≤ pir ∧ cir ≤ pir))

/-- R212: SHAPER_SET (Table 6.10). -/
def execShaperSet (mb : Mb) (s : State) : Out :=
  .next (runCmd { opcode := 0x0601, priv := true, len := fun _ => 18, fields := [(0, 8), (8, 1), (9, 4), (16, 40), (56, 24), (80, 40), (120, 24)],
                  checks := fun pl =>
                    let port := decide (fld pl 9 4 = 15)
                    [(9, decide (fld pl 9 4 ≤ 8) || port), (16, !port || decide (fld pl 16 40 = 0)),
                     (56, burstOk (fld pl 16 40) (fld pl 56 24) && (!port || decide (fld pl 56 24 = 0))),
                     (80, peakRateOk (fld pl 16 40) (fld pl 80 40)), (120, burstOk (fld pl 80 40) (fld pl 120 24))] }
    (fun s pl _ => s.onPort mb.val (fld pl 0 8) (fld pl 8 1) 0 fun p =>
      .done (s.modSched p fun x =>
        if fld pl 9 4 = 15 then { x with portPeak := x.portPeak.configure (fld pl 80 40) (fld pl 120 24) }
        else x.modQueue (fld pl 9 4) fun q =>
          { q with committed := q.committed.configure (fld pl 16 40) (fld pl 56 24), peak := q.peak.configure (fld pl 80 40) (fld pl 120 24) }) [])
    mb.val s)

/-- A mailbox may name a meter: its owner is that of the instance to which it is allocated, or of the port that its PU serves (R231, R261). -/
def State.mayMeter (s : State) (n m : Nat) : Bool :=
  match s.policy.inst.findSome? fun e => e.2.bind fun r => if r.meter = some m then some r.owner else none with
  | some o => s.mayName n o
  | none => privilegedMb n || (s.portsOfQuad (m / 128)).any fun p => s.mayName n (s.portOwner p)

/-- R221: METER_SET (Table 6.8), in effect at the meter's next refill. -/
def execMeterSet (mb : Mb) (s : State) : Out :=
  .next (runCmd { opcode := 0x0602, priv := false, len := fun _ => 24,
                  fields := [(0, 14), (14, 1), (15, 1), (16, 1), (17, 6), (32, 40), (72, 24), (96, 40), (136, 24)],
                  checks := fun pl =>
                    [(72, burstOk (fld pl 32 40) (fld pl 72 24)), (96, peakRateOk (fld pl 32 40) (fld pl 96 40)),
                     (136, burstOk (fld pl 96 40) (fld pl 136 24))] }
    (fun s pl _ =>
      let m := fld pl 0 14
      if s.mayMeter mb.val m = false then .fail stNotPermitted 0
      else .done (s.modMeter m fun x =>
        { x with committed := x.committed.configure (fld pl 32 40) (fld pl 72 24), peak := x.peak.configure (fld pl 96 40) (fld pl 136 24)
                 pending := some (bitOf pl 14, bitOf pl 15, bitOf pl 16, fld pl 17 6) }) []) mb.val s)

/-- A meter may be mapped to an input (R213). -/
def State.mayMap (s : State) (src m : Nat) : Bool :=
  if src < 256 then (s.port src).configured && (s.quadsOf src).contains (m / 128) else decide (m / 128 = src - 256)

/-- R213: METER_MAP_SET (Table 6.10). -/
def execMeterMapSet (mb : Mb) (s : State) : Out :=
  .next (runCmd { opcode := 0x0603, priv := true, len := fun _ => 5, fields := [(0, 9), (16, 8), (24, 14), (38, 1)],
                  checks := fun pl => [(0, decide (fld pl 0 9 < 384))] }
    (fun s pl _ =>
      let src := fld pl 0 9
      if bitOf pl 38 && !s.mayMap src (fld pl 24 14) then .fail stInvalidField 24
      else
        let v := if bitOf pl 38 then some (fld pl 24 14) else none
        let t := (List.range 8).foldl (fun a c => if bitOf pl (16 + c) then Tab.put none a (8 * src + c) v else a) s.sched.meterMap
        .done { s with sched := { s.sched with meterMap := t } } []) mb.val s)

/-- R219: PENALTY_QUEUE_SET (Table 6.10). -/
def execPenaltyQueueSet (mb : Mb) (s : State) : Out :=
  .next (runCmd { opcode := 0x0604, priv := true, len := fun _ => 3, fields := [(0, 7), (7, 6), (13, 11)],
                  checks := fun pl => [(13, decide (1 ≤ fld pl 13 11 ∧ fld pl 13 11 ≤ 1024))] }
    (fun s pl _ =>
      let k := 64 * fld pl 0 7 + fld pl 7 6
      .done ((s.modPenalty k fun q => { q with limit := fld pl 13 11 }).checkFull k) []) mb.val s)

/-- The bits of the entries of a GATE_LIST_SET payload that are reserved, and their intervals (Table 6.9, R232). -/
def gateEntryChecks (pl : Nat) (i : Nat) : List (Nat × Bool) :=
  let b := 192 + 48 * i
  [(b + 9, decide (fld pl (b + 9) 7 = 0)), (b + 16, decide (1 ≤ fld pl (b + 16) 30 ∧ fld pl (b + 16) 30 ≤ 1000000000)), (b + 46, decide (fld pl (b + 46) 2 = 0))]

/-- The entries of a GATE_LIST_SET payload that its COUNT gives. -/
def gateCount (pl : Nat) : Nat := if bitOf pl 9 ∧ fld pl 16 9 ≤ 256 then fld pl 16 9 else 0

/-- The list of a GATE_LIST_SET payload, or none with ENABLE 0. -/
def gateListOf (pl base : Nat) : Option GateList :=
  if bitOf pl 9 then
    some { guard := fld pl 25 10, base := base, cycle := fld pl 128 30,
           entries := (List.range (gateCount pl)).map fun i => (fbv pl (192 + 48 * i) 9, fld pl (192 + 48 * i + 16) 30) }
  else none

/-- R226: GATE_LIST_SET (Table 6.9). -/
def execGateListSet (mb : Mb) (s : State) : Out :=
  .next (runCmd { opcode := 0x0605, priv := true, len := fun pl => 24 + 6 * gateCount pl,
                  fields := [(0, 8), (8, 1), (9, 1), (16, 9), (25, 10), (40, 48), (88, 30), (128, 30), (192, 32448)],
                  checks := fun pl =>
                    [(16, !bitOf pl 9 || decide (1 ≤ fld pl 16 9 ∧ fld pl 16 9 ≤ 256)), (88, decide (fld pl 88 30 < 1000000000)),
                     (128, decide (1 ≤ fld pl 128 30 ∧ fld pl 128 30 ≤ 1000000000))] ++ (List.range (gateCount pl)).flatMap (gateEntryChecks pl) }
    (fun s pl _ => s.onPort mb.val (fld pl 0 8) (fld pl 8 1) 0 fun p =>
      let base := fld pl 40 48 * 1000000000 + fld pl 88 30
      let start := firstBoundary base (fld pl 128 30) (s.fabNs + 10000)
      let note := if s.fabNs + 10000 ≤ base then 0 else if base < s.fabNs then 1 else 2
      .done (s.scheduleGate p (gateListOf pl base) base (fld pl 128 30))
        (packVals [(start / 1000000000, 6), (start % 1000000000, 4), (note, 1)])) mb.val s)

/-- A gate list in the form of Table 6.9; without a list ENABLE and COUNT are 0. -/
def gateBytes (p : Nat) (g : Option GateList) (base cycle : Nat) : List Byte :=
  let l := match g with | some g => g.entries | none => []
  bytesOf 24 (packBits [(leadOf p, 8), (p % 2, 1), (b2n g.isSome, 1), (0, 6), (l.length, 9), ((match g with | some g => g.guard | none => 0), 10), (0, 5),
    (base / 1000000000, 48), (base % 1000000000, 30), (0, 10), (cycle, 30), (0, 34)]) ++
  l.flatMap fun e => bytesOf 6 (packBits [(e.1.toNat, 9), (0, 7), (e.2, 30), (0, 2)])

/-- R231: GATE_QUERY (Table 6.10). -/
def execGateQuery (mb : Mb) (s : State) : Out :=
  .next (runCmd { opcode := 0x0606, priv := false, query := true, len := fun _ => 2, fields := [(0, 8), (8, 1)] }
    (fun s pl _ => s.onPort mb.val (fld pl 0 8) (fld pl 8 1) 0 fun p =>
      let x := s.schedOf p
      let op := gateBytes p x.gate (match x.gate with | some g => g.base | none => 0) (match x.gate with | some g => g.cycle | none => 0)
      let pend := match x.gatePending with
        | some n => gateBytes p n.list n.base n.cycle ++ packVals [(n.start / 1000000000, 6), (n.start % 1000000000, 4)]
        | none => gateBytes p none 0 0 ++ packVals [(0, 6), (0, 4)]
      .done s (packVals [(b2n x.gate.isSome, 1), (x.gateEntry, 2), (x.gateCycles, 8)] ++ op ++ pend)) mb.val s)

/-- R231: METER_READ (Table 6.10). -/
def execMeterRead (mb : Mb) (s : State) : Out :=
  .next (runCmd { opcode := 0x0607, priv := false, query := true, len := fun _ => 2, fields := [(0, 14), (14, 1)] }
    (fun s pl _ =>
      let m := fld pl 0 14
      let x := s.meter m
      if s.mayMeter mb.val m = false then .fail stNotPermitted 0
      else .done (if bitOf pl 14 then s.modMeter m fun x => { x with green := 0, yellow := 0, red := 0, held := 0, released := 0, demoted := 0 } else s)
        (packCounters [signedNat 8 x.committed.level, signedNat 8 x.peak.level, x.green, x.yellow, x.red, x.held, x.released, x.demoted])) mb.val s)

/-- The counters of a queue in the order of Table 6.6; MQ has the first two. -/
def QueueCounters.list (c : QueueCounters) (mq : Bool) : List Nat :=
  [c.framesSent, c.blocksSent] ++ if mq then [] else [c.gateWaits, c.gateOversize, c.shaperWaits]

/-- Zero the counters of a port's scheduler (R230). -/
def Sched.clearCounters (x : Sched) : Sched :=
  (List.range 10).foldl (fun y k => y.modQueue k fun q => { q with counters := {} }) { x with portShaperWaits := 0 }

/-- R230: SCHED_COUNTERS_READ (Table 6.10). -/
def execSchedCountersRead (mb : Mb) (s : State) : Out :=
  .next (runCmd { opcode := 0x0608, priv := false, query := true, len := fun _ => 2, fields := [(0, 8), (8, 1), (9, 1)] }
    (fun s pl _ => s.onPort mb.val (fld pl 0 8) (fld pl 8 1) 0 fun p =>
      let x := s.schedOf p
      .done (if bitOf pl 9 then s.modSched p Sched.clearCounters else s)
        (packCounters (((List.range 10).flatMap fun k => (x.queue k).counters.list (k == 9)) ++ [x.portShaperWaits]))) mb.val s)

/-- The longest present wait of queued frames in ns, from their release or from another time. -/
def State.longestWait (s : State) (l : List Nat) (from_ : FrameRec → Nat) : Nat :=
  (l.filterMap fun u => (s.frame? u).map fun r => s.now - from_ r).foldl max 0

/-- OCC_HWM and SOJ_HWM of RQ0 to RQ7 and CQ, then AGE_HWM of a port (R229, Table 6.10). -/
def State.schedHwmBytes (s : State) (p : Nat) : List Byte :=
  let x := s.schedOf p
  packVals (((List.range 9).flatMap fun k => [((x.queue k).occHwm, 2), ((x.queue k).sojHwm, 4)]) ++ [(x.ageHwm, 4)])

/-- The marks of a port's scheduler return to its present state (R229). -/
def State.resetSchedHwm (s : State) (p : Nat) : State :=
  let all := (List.range 10).flatMap fun k => ((s.schedOf p).queue k).frames
  s.modSched p fun x =>
    (List.range 9).foldl (fun y k => y.modQueue k fun q =>
      { q with occHwm := q.frames.length, sojHwm := min (s.longestWait q.frames fun r => r.queuedAt) (2 ^ 32 - 1) })
      { x with ageHwm := s.longestWait all (fun r => r.born) / 1000 }

/-- OCC_HWM and SOJ_HWM of the penalty queues of a PU (R229). -/
def State.penaltyHwmBytes (s : State) (pu : Nat) : List Byte :=
  packVals ((List.range 64).flatMap fun k => [((s.penalty (64 * pu + k)).occHwm, 2), ((s.penalty (64 * pu + k)).sojHwm, 4)])

/-- The marks of a PU's penalty queues return to their present state (R229). -/
def State.resetPenaltyHwm (s : State) (pu : Nat) : State :=
  s.each (List.range 64) fun t k => t.modPenalty (64 * pu + k) fun q =>
    { q with occHwm := q.frames.length, sojHwm := min (s.longestWait q.frames fun r => r.queuedAt) (2 ^ 32 - 1) }

/-- R229: HWM_READ (Table 6.10). -/
def execHwmRead (mb : Mb) (s : State) : Out :=
  .next (runCmd { opcode := 0x0609, priv := false, query := true, len := fun _ => 3, fields := [(0, 1), (1, 8), (9, 1), (10, 7), (17, 1)] }
    (fun s pl _ =>
      if bitOf pl 0 then
        s.onPu mb.val (fld pl 10 7) (.done (if bitOf pl 17 then s.resetPenaltyHwm (fld pl 10 7) else s) (s.penaltyHwmBytes (fld pl 10 7)))
      else s.onPort mb.val (fld pl 1 8) (fld pl 9 1) 1 fun p => .done (if bitOf pl 17 then s.resetSchedHwm p else s) (s.schedHwmBytes p)) mb.val s)

/-! ### Events -/

/-- R204: EGRESS_FRAME_BOUNDARY. On a PCIe-mode port `fc` gives the partner's flow-control credits: bit 0 posted, bit 1 non-posted, bit 2 completion. -/
def execEgressFrameBoundary (p : PortNo) (fc : BitVec 3) (s : State) : Out :=
  .next (if s.running && s.atBoundary p.val then s.frameBoundary p.val fc else s)

/-- R209: BUCKET_REFILL, of every shaper and meter, with the release of penalty-queue heads (R217). -/
def execBucketRefill (s : State) : Out := .next (if s.running then s.refill else s)

/-- R219: PENALTY_QUEUE_ADMIT: the frame that waits at an ingress VC head joins its penalty queue once it has room. -/
def execPenaltyQueueAdmit (src : SrcNo) (vc : VcNo) (s : State) : Out :=
  .next (if s.running = false then s
    else
      match s.waitingAt src.val vc.val with
      | [] => s
      | uid :: _ =>
        match s.frame? uid with
        | none => s
        | some r => if r.place = .penaltyFull ∧ (s.penalty r.endPu).full = false then s.joinPenalty uid r.endPu else s)

/-- R222: GATE_ENTRY_CHANGE: the next entry of the operational list, or entry 0 at the cycle boundary. -/
def execGateEntryChange (p : PortNo) (s : State) : Out :=
  .next (if s.running then
      match (s.schedOf p.val).gate with
      | none => s
      | some g => s.modSched p.val fun x =>
          let e := g.next x.gateEntry x.gateCycles
          { x with gateEntry := e.1, gateCycles := e.2 }
    else s)

/-- R227: GATE_LIST_START. -/
def execGateListStart (p : PortNo) (s : State) : Out := .next (if s.running then s.startGate p.val else s)

end Sys2Proof.Machine
end

