-- ==== Sys2Proof/Machine/SnapOps.lean ====
section
/-!
DEFINITION. Reading performance monitors (R448 to R455) and the timed snapshot (R456, R457).
-/

namespace Sys2Proof.Machine

/-- A monitor. -/
def State.pmonOf (s : State) (mon : Nat) : Pmon := Tab.get {} s.bist.pmons mon
/-- Change a monitor. -/
def State.modPmon (s : State) (mon : Nat) (f : Pmon → Pmon) : State := s.modBist fun b => { b with pmons := Tab.mod {} b.pmons mon f }
/-- A counter of a monitor. -/
def Pmon.counter (m : Pmon) (k : Nat) : PmonCounter := Tab.get {} m.counters k
/-- Change a counter of a monitor. -/
def Pmon.modCounter (m : Pmon) (k : Nat) (f : PmonCounter → PmonCounter) : Pmon := { m with counters := Tab.mod {} m.counters k f }

/-- The clock of a monitor runs: the core die is on, and its Ring is powered (R450). -/
def State.pmonClocked (s : State) (mon : Nat) : Bool :=
  s.power.coreOn && (match pmonRing mon with | some r => !s.ringIsOff r | none => true)

/-- Bring the values that the model does not count up to date: free values for the cycle counter, and for the counters of events out of its sight, while they run (log entry 62). -/
def State.pmonSync (s : State) (mon : Nat) : State :=
  let m := s.pmonOf mon
  if m.frozen ∨ s.pmonClocked mon = false then s
  else
    let (w, s1) := s.draw
    s1.each ((m.counters.filter fun e => e.2.enabled && !eventCounted e.2.event).map Prod.fst) (fun t k =>
      let (v, t1) := t.draw
      t1.modPmon mon fun x => x.modCounter k fun c => { c with count := v.setWidth 48 })
      |>.modPmon mon fun x => { x with cycles := w }

/-- The OVF bits of a monitor. -/
def Pmon.ovfBits (m : Pmon) : Nat := packBits ((List.range 8).map fun k => (b2n (m.counter k).ovf, 1))

/-- The values of PMON_READ (Table 13.10). -/
def Pmon.values (m : Pmon) : List Byte :=
  packVals ([(m.cycles.toNat, 8)] ++ (List.range 8).map (fun k => ((m.counter k).count.toNat, 8)) ++ [(m.ovfBits, 1), (m.samplesLost, 8)])

/-- What a snapshot captures of a monitor. -/
def Pmon.snap (m : Pmon) (valid : Bool) : PmonSnap :=
  if valid then
    { valid := true, cycles := m.cycles, counters := (List.range 8).map fun k => (m.counter k).count, ovf := BitVec.ofNat 8 m.ovfBits, lost := m.samplesLost }
  else {}

/-- The values of a captured monitor in the form of PMON_READ. -/
def PmonSnap.values (x : PmonSnap) : List Byte :=
  packVals ([(x.cycles.toNat, 8)] ++ x.counters.map (fun c => (c.toNat, 8)) ++ [(x.ovf.toNat, 1), (x.lost, 8)])

/-- Capture one monitor; the capture itself is counted after it (SNAPSHOTS). -/
def State.captureMon (s : State) (mon : Nat) : State :=
  let s1 := s.pmonSync mon
  let on := s1.pmonClocked mon
  let s2 := s1.modBist fun b => { b with snaps := Tab.put {} b.snaps mon ((s1.pmonOf mon).snap on) }
  if on then s2.pmon mon 0x003 0 1 else s2

/-- Capture the marks of a port, and set them as a read with clear would. -/
def State.captureMarks (s : State) (p : Nat) (clear : Bool) : State :=
  let s1 := s.modBist fun b => { b with marksSnap := Tab.put {} b.marksSnap p { bytes := s.hwmBytes p ++ s.schedHwmBytes p } }
  if clear then (s1.resetHwm p).resetSchedHwm p else s1

/-- The snapshot pending is captured (R456, R457). -/
def State.capture (s : State) (skewOk : Bool) : State :=
  match s.bist.pending with
  | none => s
  | some (t, clear) =>
    let s1 := s.each pmonMons State.captureMon
    let s2 := s1.each s1.allPorts fun x p => x.captureMarks p clear
    let s3 := if clear then s2.each (List.range 128) State.resetPenaltyHwm else s2
    let s4 := s3.modBist fun b => { b with pending := none, snapSeq := b.snapSeq + 1, snapTime := t, skewOk := skewOk }
    s4.raise 0x0D01 [(s4.bist.snapSeq.toNat, 2), (t / 1000000000, 6), (t % 1000000000, 4), (b2n skewOk, 1)] []

/-- Fabric time has stepped: past a pending snapshot, which is captured at the step (R457). -/
def State.passSnapshot (s : State) (before : Nat) : State :=
  match s.bist.pending with
  | none => s
  | some (t, _) => if before < t ∧ t < s.fabNs then s.capture false else s

end Sys2Proof.Machine
end

