-- ==== Sys2Proof/Machine/Fabric.lean ====
section
/-!
DEFINITION. Meanings of fabric transactions, routing, discovery and time (chapter 4).
-/

namespace Sys2Proof.Machine

/-- Efnuquin runs and the core die is not stopped. -/
def State.firmwareRuns (s : State) : Bool := s.running && s.mgmt.available

/-- A native port with its link up in the sense of Table 4.12. -/
def Port.nativeUp (x : Port) : Bool :=
  !x.pcie && (x.stage == .exchange || x.stage == .active || x.stage == .sleep || (x.stage == .lock && x.retrain))

/-- A payload from bit `lo` up is 0: bits beyond the entries that a command counts are reserved. -/
def tailZero (pl lo : Nat) : Nat × Bool := (lo + (lowBit (pl >>> lo) 32640).getD 0, pl >>> lo == 0)

/-! ### Group 0x04 commands (R166, R167) -/

/-- The effect of FABRIC_CONFIG (Table 4.12). -/
def State.fabricConfig (s : State) (pl : Nat) : State :=
  let mode := fld pl 13 2
  let id := fbv pl 0 12
  let s1 := if bitOf pl 12 then s.modFab fun f => { f with switchId := id, idDefault := false } else s
  let s2 := if bitOf pl 15 then s1.modMgmt fun m => m.writeDir fun d => { d with savedSwitch := some id } else s1
  s2.modFab fun f =>
    { f with
      managed := if mode = 0 then f.managed else decide (mode = 2)
      topoPending := if mode = 1 ∧ f.managed then true else f.topoPending
      commitRetry := f.commitRetry && decide (mode ≠ 2)
      lifetimeMs := if fld pl 16 10 = 0 then f.lifetimeMs else fld pl 16 10
      cplTimeoutMs := if fld pl 32 16 = 0 then f.cplTimeoutMs else fld pl 32 16
      seedPending := if bitOf pl 64 then some (fbv pl 48 16) else f.seedPending }

/-- R145, R129: FABRIC_CONFIG (Table 4.12). -/
def execFabricConfig (mb : Mb) (s : State) : Out :=
  .next (runCmd { opcode := 0x0400, priv := true, len := fun _ => 12,
                  fields := [(0, 12), (12, 1), (13, 2), (15, 1), (16, 10), (32, 16), (48, 16), (64, 1)],
                  checks := fun pl =>
                    [(13, decide (fld pl 13 2 ≠ 3)), (15, !bitOf pl 15 || bitOf pl 12), (16, decide (fld pl 16 10 ≤ 1000)),
                     (32, decide (fld pl 32 16 ≤ 60000))] }
    (fun s pl _ =>
      if bitOf pl 12 && s.allPorts.any (fun p => (s.port p).nativeUp) then .fail stBadState 0 else .done (s.fabricConfig pl) []) mb.val s)

/-- A route table entry in the form of Table 4.6. -/
def RouteEntry.ofBits (v : Nat) : RouteEntry :=
  match v % 4 with
  | 1 => .port (fld v 2 7)
  | 2 => .group (fld v 16 8)
  | _ => .invalid

/-- The form of Table 4.6; fields that KIND does not use are 0. -/
def RouteEntry.bits : RouteEntry → Nat
  | .invalid => 0
  | .port q => 1 + 4 * q
  | .group g => 2 + 65536 * g

/-- Change the staged writes. -/
def State.modStaged (s : State) (f : Staged → Staged) : State := s.modFab fun x => { x with staged := f x.staged }

/-- R149: ROUTE_WRITE (Table 4.13). In autonomous mode it is refused (R145). -/
def execRouteWrite (mb : Mb) (s : State) : Out :=
  .next (runCmd { opcode := 0x0401, priv := true, len := fun pl => 4 + 4 * fld pl 12 8,
                  fields := [(0, 12), (12, 8)] ++ (List.range 255).flatMap fun i => [(32 + 32 * i, 9), (48 + 32 * i, 8)],
                  checks := fun pl =>
                    let n := fld pl 12 8
                    [(12, decide (1 ≤ n)), (0, decide (fld pl 0 12 + n ≤ 4096)), tailZero pl (32 + 32 * n)] ++
                      (List.range n).map fun i => (32 + 32 * i, decide (fld pl (32 + 32 * i) 2 ≠ 3)) }
    (fun s pl _ =>
      if s.fabric.managed = false then .fail stBadState 0
      else .done (s.modStaged fun w =>
        { w with route := (List.range (fld pl 12 8)).foldl (fun t i =>
                   Tab.put none t (fld pl 0 12 + i) (some (RouteEntry.ofBits (fld pl (32 + 32 * i) 32)))) w.route }) []) mb.val s)

/-- R141: GROUP_WRITE (Table 4.13). In autonomous mode it is refused (R145). -/
def execGroupWrite (mb : Mb) (s : State) : Out :=
  .next (runCmd { opcode := 0x0402, priv := true, len := fun _ => 50, fields := [(0, 8), (8, 4), (16, 128), (144, 256)],
                  checks := fun pl =>
                    ((List.range (fld pl 8 4 + 1)).map fun i => (16 + 8 * i, decide (fld pl (16 + 8 * i) 8 < 128))) ++
                      (List.range 64).map fun b => (144 + 4 * b, decide (fld pl (144 + 4 * b) 4 ≤ fld pl 8 4)) }
    (fun s pl _ =>
      if s.fabric.managed = false then .fail stBadState 0
      else
        let g : GroupEntry := { members := (List.range (fld pl 8 4 + 1)).map fun i => fld pl (16 + 8 * i) 8
                                buckets := (List.range 64).map fun b => fld pl (144 + 4 * b) 4 }
        .done (s.modStaged fun w => { w with group := Tab.put none w.group (fld pl 0 8) (some g) }) []) mb.val s)

/-- The window that a WINDOW_WRITE payload gives. -/
def Window.ofBits (pl : Nat) : Window :=
  { valid := bitOf pl 10, partition := fbv pl 11 8, sizeLog2 := fld pl 19 6, base := BitVec.ofNat 64 (fld pl 32 52 * 4096), target := fbv pl 96 20
    inst := fbv pl 116 12, instValid := bitOf pl 128, targetBase := BitVec.ofNat 64 (fld pl 140 52 * 4096) }

/-- R144: WINDOW_WRITE (Table 4.13). With VALID 0 only the reserved bits are checked. -/
def execWindowWrite (mb : Mb) (s : State) : Out :=
  .next (runCmd { opcode := 0x0403, priv := true, len := fun _ => 24,
                  fields := [(0, 10), (10, 1), (11, 8), (19, 6), (32, 52), (96, 20), (116, 12), (128, 1), (140, 52)],
                  checks := fun pl =>
                    [(19, !bitOf pl 10 || decide (12 ≤ fld pl 19 6)),
                     (32, !bitOf pl 10 || decide (fld pl 32 52 * 4096 % 2 ^ fld pl 19 6 = 0))] }
    (fun s pl _ => .done (s.modStaged fun w => { w with window := Tab.put none w.window (fld pl 0 10) (some (Window.ofBits pl)) }) []) mb.val s)

/-- The entry that an ENDPOINT_WRITE payload gives. -/
def EndpointEntry.ofBits (pl : Nat) : EndpointEntry :=
  match fld pl 8 3 with
  | 1 => .port (fld pl 11 8) (fld pl 19 1)
  | 2 => .internal (fld pl 20 4)
  | _ => .unassigned

/-- R130: ENDPOINT_WRITE (Table 4.13). -/
def execEndpointWrite (mb : Mb) (s : State) : Out :=
  .next (runCmd { opcode := 0x0404, priv := true, len := fun _ => 3, fields := [(0, 8), (8, 3), (11, 8), (19, 1), (20, 4)],
                  checks := fun pl =>
                    [(0, decide (fld pl 0 8 ≠ 255)), (8, decide (fld pl 8 3 ≤ 2)), (11, decide (fld pl 8 3 = 1 → fld pl 11 8 < 128)),
                     (20, decide (fld pl 8 3 = 2 → fld pl 20 4 < 4 ∧ (fld pl 0 8 < 4 → fld pl 20 4 = fld pl 0 8)))] }
    (fun s pl _ => .done (s.modStaged fun w => { w with endpoint := Tab.put none w.endpoint (fld pl 0 8) (some (EndpointEntry.ofBits pl)) }) [])
    mb.val s)

/-- The tables that a TABLES field names. -/
def tablesOf (v : Nat) : List TableKind := allTables.filter fun k => v.testBit k.code

/-- The epochs of the five tables in a response. -/
def State.epochBytes (s : State) : List Byte := bytesOf 2 s.fabric.tables.epochBits

/-- R149: TABLE_COMMIT (Table 4.13). BUSY names the table in DETAIL (R150). -/
def execTableCommit (mb : Mb) (s : State) : Out :=
  .next (runCmd { opcode := 0x0405, priv := true, len := fun _ => 1, fields := [(0, 5)] }
    (fun s pl _ =>
      match tablesOf (fld pl 0 5) with
      | [] => .done s s.epochBytes
      | k :: l =>
        match s.busyTable (k :: l) with
        | some b => .fail stBusy b.code
        | none => .done (s.commit (k :: l)) (s.commit (k :: l)).epochBytes) mb.val s)

/-- R149: TABLE_DISCARD (Table 4.13). -/
def execTableDiscard (mb : Mb) (s : State) : Out :=
  .next (runCmd { opcode := 0x0406, priv := true, len := fun _ => 1, fields := [(0, 5)] }
    (fun s pl _ => .done (s.modStaged fun w => w.drop (tablesOf (fld pl 0 5))) s.epochBytes) mb.val s)

/-- The table of a TABLE field. -/
def tableOf (v : Nat) : TableKind := nth .policy allTables v

/-- R152: EPOCH_WAIT (Table 4.13). -/
def execEpochWait (mb : Mb) (s : State) : Out :=
  .next (runCmd { opcode := 0x0407, priv := true, len := fun _ => 1, fields := [(0, 3), (3, 2)], checks := fun pl => [(0, decide (fld pl 0 3 ≤ 4))] }
    (fun s pl _ =>
      let k := tableOf (fld pl 0 3)
      let e := fbv pl 3 2
      let n := s.epochFrames k e
      .done (if n = 0 ∨ (k, e) ∈ s.fabric.waits then s else s.modFab fun f => { f with waits := f.waits ++ [(k, e)] })
        (packVals [(b2n (decide (n = 0)), 1), (n, 8)])) mb.val s)

/-- The entries of a table, and the bytes of each in its write form. -/
def tableSize : TableKind → Nat × Nat
  | .route => (4096, 4)
  | .group => (256, 50)
  | .endpoint => (255, 3)
  | .window => (1024, 24)
  | .policy => (0, 0)

/-- An entry of a table in its write form (Tables 4.6 and 4.13). -/
def Tables.entryBytes (t : Tables) (k : TableKind) (i : Nat) : List Byte :=
  match k with
  | .route => bytesOf 4 (Tab.get RouteEntry.invalid t.route i).bits
  | .group =>
    let g := Tab.get {} t.group i
    bytesOf 50 (packBits ([(i, 8), (g.members.length - 1, 4), (0, 4)] ++ (List.range 16).map (fun j => (nth 0 g.members j, 8)) ++
      (List.range 64).map fun b => (nth 0 g.buckets b, 4)))
  | .endpoint =>
    bytesOf 3 (match t.endpointAt i with
      | .unassigned => packBits [(i, 8)]
      | .port q sub => packBits [(i, 8), (1, 3), (q, 8), (sub, 1)]
      | .internal n => packBits [(i, 8), (2, 3), (0, 9), (n, 4)])
  | .window =>
    let w := Tab.get {} t.window i
    bytesOf 24 (packBits [(i, 10), (b2n w.valid, 1), (w.partition.toNat, 8), (w.sizeLog2, 6), (0, 7), (w.base.toNat / 4096, 52), (0, 12),
      (w.target.toNat, 20), (w.inst.toNat, 12), (b2n w.instValid, 1), (0, 11), (w.targetBase.toNat / 4096, 52)])
  | .policy => []

/-- R167: TABLE_READ (Table 4.13). The policy table has no entries in this form and is refused; STAGED returns what the entries would be after a commit (log entry 48). -/
def execTableRead (mb : Mb) (s : State) : Out :=
  .next (runCmd { opcode := 0x0408, priv := true, query := true, len := fun _ => 3, fields := [(0, 3), (3, 1), (4, 12), (16, 8)],
                  checks := fun pl =>
                    let (n, w) := tableSize (tableOf (fld pl 0 3))
                    [(0, decide (fld pl 0 3 < 4)), (4, decide (fld pl 0 3 = 4 ∨ fld pl 4 12 < n)),
                     (16, decide (fld pl 4 12 + fld pl 16 8 ≤ n ∧ fld pl 16 8 * w ≤ 4080))] }
    (fun s pl _ =>
      let k := tableOf (fld pl 0 3)
      let t := if bitOf pl 3 then s.nextTables [k] else s.fabric.tables
      .done s ((List.range (fld pl 16 8)).flatMap fun i => t.entryBytes k (fld pl 4 12 + i))) mb.val s)

/-- The partner record of a port (Table 4.9). -/
def State.partnerBytes (s : State) (p : Nat) : List Byte :=
  let x := s.partner p
  bytesOf 16 (packBits [((s.partnerKind p).toNat, 4), (b2n (s.port p).linkUp, 1), (b2n (s.partnerPresent p), 1), ((s.link p).inc.toNat, 8),
    (x.geid.toNat, 20), (x.port.toNat, 8), (x.slot.toNat, 6), (x.width.toNat, 5), (x.rate.toNat, 3), (0, 8), (x.uid.toNat, 64)])

/-- R160: PARTNER_QUERY. -/
def execPartnerQuery (mb : Mb) (s : State) : Out :=
  .next (runCmd { opcode := 0x0409, priv := false, query := true, len := fun _ => 2, fields := [(0, 8), (8, 1)] }
    (fun s pl _ => s.onPort mb.val (fld pl 0 8) (fld pl 8 1) 0 fun p => .done s (s.partnerBytes p)) mb.val s)

/-- A LINK_STATE record in a response: switch ID, NODE_UID, sequence number and the counted neighbours. -/
def linkRecBytes (r : LinkStateRec) : List Byte :=
  packVals ([(r.sw.toNat, 2), (r.uid.toNat, 8), (r.seq.toNat, 4), (r.nbrs.length, 2)] ++
    r.nbrs.flatMap fun n => [(n.sw.toNat, 2), (n.quad.toNat, 1), (n.width.toNat, 1)])

/-- As many records from the front as fit in a number of bytes. -/
def fitting : Nat → List (List Byte) → List (List Byte)
  | _, [] => []
  | n, x :: r => if x.length ≤ n then x :: fitting (n - x.length) r else []

/-- R146: TOPOLOGY_QUERY. Records beyond the size of a response are left out (log entry 48). -/
def execTopologyQuery (mb : Mb) (s : State) : Out :=
  .next (runCmd { opcode := 0x040A, priv := true, query := true }
    (fun s _ _ =>
      let held := s.fabric.links.filterMap fun e => if e.1 = s.fabric.switchId.toNat then none else e.2.map fun r => linkRecBytes r.record
      let l := fitting 4076 held
      .done s (bytesOf 2 l.length ++ l.flatMap id ++ bytesOf 2 s.rootSwitch)) mb.val s)

/-- R162: FABRIC_TIME_CONFIG (Table 4.13). SECONDS is the count that the next PPS_IN edge marks (R164, DEDUCED, log entry 49). -/
def execFabricTimeConfig (mb : Mb) (s : State) : Out :=
  .next (runCmd { opcode := 0x040B, priv := true, len := fun _ => 12, fields := [(0, 8), (8, 1), (9, 1), (10, 48), (58, 8), (66, 1), (80, 16)] }
    (fun s pl _ =>
      let s1 := s.modTime fun t =>
        { t with gmPriority := fbv pl 0 8, ppsInEn := bitOf pl 8, presetSec := if bitOf pl 9 then some (fbv pl 10 48) else t.presetSec }
      if bitOf pl 66 then
        s.onNative mb.val (fld pl 58 8) 58 fun p => .done (s1.modTime fun t => { t with asym := Tab.put 0 t.asym p (fldSigned pl 80 16) }) []
      else .done s1 []) mb.val s)

/-- R163: FABRIC_TIME_QUERY: fabric time, state, source port (0xFF for none) and hops to the grandmaster. -/
def execFabricTimeQuery (mb : Mb) (s : State) : Out :=
  .next (runCmd { opcode := 0x040C, priv := false, query := true }
    (fun s _ _ =>
      let t := s.fabric.time
      .done s (packVals [(t.seconds.toNat, 6), (t.ns.toNat, 4), (t.state.code, 1), (t.source.getD 0xFF, 1), (t.hops, 1)])) mb.val s)

/-- The counters of Table 4.10 in table order. -/
def FabricCounters.list (c : FabricCounters) : List Nat :=
  [c.malformed, c.noRoute, c.windowMiss, c.hopLimit, c.lifetimeNp, c.lifetimeDrop, c.cplTimeout, c.unexpectedCpl, c.failover]

/-- R165: FABRIC_COUNTERS_READ. -/
def execFabricCountersRead (mb : Mb) (s : State) : Out :=
  .next (runCmd { opcode := 0x040D, priv := false, query := true, len := fun _ => 1, fields := [(0, 7), (7, 1)] }
    (fun s pl _ => s.onPu mb.val (fld pl 0 7) (
      .done (if bitOf pl 7 then s.countFab (fld pl 0 7) fun _ => {} else s)
        (packCounters (Tab.get {} s.fabric.counters (fld pl 0 7)).list))) mb.val s)

/-- R160: PARTNER_SLOT_SET. -/
def execPartnerSlotSet (mb : Mb) (s : State) : Out :=
  .next (runCmd { opcode := 0x040E, priv := true, len := fun _ => 2, fields := [(0, 8), (8, 1), (9, 6)],
                  checks := fun pl => [(9, decide (fld pl 9 6 < 48 ∨ fld pl 9 6 = 0x3F))] }
    (fun s pl _ => s.onPort mb.val (fld pl 0 8) (fld pl 8 1) 0 fun p =>
      .done (s.modPartner p fun x => { x with slot := fbv pl 9 6 }) []) mb.val s)

/-! ### Completions and lookups -/

/-- A completion at the Ringmaster ends its request (R138); one of an ICB access with a status other than SUCCESS is ICB_FAIL of the endpoint (Table 12.3). -/
def State.rmCompletion (s : State) (f : Frame) : State :=
  let h := f.hdr
  let unexpected := s.countFab s.mgmt.homeRm fun c => { c with unexpectedCpl := inc48 c.unexpectedCpl }
  match s.tagUse h.dst h.tag with
  | none => unexpected
  | some u =>
    if u.dst ≠ h.src then unexpected
    else if endsRequest f = false then s
    else
      let s1 := s.setTag h.dst h.tag none
      match s.geidPort u.dst with
      | some p =>
        if h.status = csSuccess ∨ u.addr.toNat < 0x100000 then s1
        else s1.report (BitVec.ofNat 12 (0x800 + leadOf p)) 0x01 (BitVec.ofNat 64 ((u.addr.toNat - 0x100000) / 32))
      | none => s1

/-- The PU of a requester of this switch, which counts for it (R165). -/
def State.requesterPu (s : State) (g : Geid) (tag : BitVec 12) : Nat :=
  match g.toNat % 256 with
  | 0 => s.mgmt.homeRm
  | 1 => s.mgmt.homeA
  | 2 => s.mgmt.homeB
  | 3 => tag.toNat / 32
  | _ => match s.geidPort g with | some p => leadOf p | none => s.mgmt.homeRm

/-- A completion ends or continues a request of a requester of this switch (R136 to R138). -/
def State.completion (s : State) (f : Frame) : State :=
  match s.fabric.tables.endpointAt (f.hdr.dst.toNat % 256) with
  | .internal 0 => (s.takeInbox 3 f).rmCompletion f
  | .internal 1 => (s.takeInbox 4 f).pwCompletionAt .a f
  | .internal 2 => (s.takeInbox 5 f).pwCompletionAt .b f
  | .internal _ => (s.takeInbox 2 f).moverCpl f
  | .port q sub =>
    match s.portNamed q sub with
    | some p => if (s.port p).pcie then s.cplToPort p f else s
    | none => s
  | .unassigned => s

/-- R138: COMPLETION_RECEIVE. -/
def execCompletionReceive (f : Frame) (s : State) : Out :=
  require f.wellFormed <|
    .next (if s.running && decide (f.hdr.kind = .completion ∧ f.hdr.dst.toNat / 256 = s.fabric.switchId.toNat) then s.completion f else s)

/-- The TIMEOUT completion of a tag in use (R137). -/
def timeoutCpl (g : Geid) (tag : BitVec 12) (u : TagUse) : Frame :=
  { hdr := { dst := g, src := u.dst, type := tyCompletion, cls := u.cls, tag := tag, part := u.partition, status := csTimeout } }

/-- R137: COMPLETION_TIMEOUT: the requester's switch ends the request. -/
def execCompletionTimeout (requester : Geid) (tag : BitVec 12) (s : State) : Out :=
  .next (match s.tagUse requester tag with
    | none => s
    | some u =>
      if s.running = false then s
      else
        let s1 := s.countFab (s.requesterPu requester tag) fun c => { c with cplTimeout := inc48 c.cplTimeout }
        ((if requester.toNat % 256 = 3 then s1.moverTimeout tag else s1.completion (timeoutCpl requester tag u)).setTag requester tag none))

/-- R140: FRAME_LOOKUP. -/
def execFrameLookup (src : SrcNo) (vc : VcNo) (s : State) : Out := .next (if s.running then s.lookupNext src.val vc.val else s)

/-- R26: COMMIT_IN_EFFECT: the newest commit is in effect in a PU. -/
def execCommitInEffect (pu : PuNo) (s : State) : Out :=
  .next (if s.running then s.modFab fun f => { f with stale := Tab.put none f.stale pu.val none } else s)

/-- R152: EPOCH_DRAINED: the last frame of an awaited epoch has left or ended. -/
def execEpochDrained (tab : TableKind) (e : BitVec 2) (s : State) : Out :=
  .next (if s.firmwareRuns && decide ((tab, e) ∈ s.fabric.waits) && decide (s.epochFrames tab e = 0) then
      (s.modFab fun f => { f with waits := f.waits.filter fun w => decide (w ≠ (tab, e)) }).raise 0x0402 [(tab.code, 1), (e.toNat, 1)] []
    else s)

/-! ### Routes and LINK_STATE -/

/-- R147: ROUTE_COMPUTATION. In managed mode a topology change brings no commit (R145). -/
def execRouteComputation (s : State) : Out :=
  .next (if s.firmwareRuns && s.fabric.topoPending then
      (if s.fabric.managed then s.modFab fun f => { f with topoPending := false } else s.commitRoutes)
    else s)

/-- R147: ROUTE_COMMIT_RETRY. -/
def execRouteCommitRetry (s : State) : Out :=
  .next (if s.firmwareRuns && s.fabric.commitRetry && !s.fabric.managed then s.commitRoutes else s)

/-- R146: LINK_STATE_SEND, in autonomous mode. -/
def execLinkStateSend (s : State) : Out :=
  .next (if s.firmwareRuns && !s.fabric.managed then
      let s1 := s.modFab fun f => { f with ownLinkSeq := f.ownLinkSeq + 1 }
      s1.each s1.fabricPorts fun t p => t.sendLocal p 1 (Config.linkStateBytes s1.ownRecordLs)
    else s)

/-- Hold a record. -/
def State.setLinkRec (s : State) (sw : Nat) (r : Option LinkRec) : State := s.modFab fun f => { f with links := Tab.put none f.links sw r }

/-- EV_SWITCH_ID_CONFLICT with the switch ID and the two NODE_UIDs (R148). -/
def State.evConflict (s : State) (sw : BitVec 12) (a b : BitVec 64) : State := s.raise 0x0401 [(sw.toNat, 2), (a.toNat, 8), (b.toNat, 8)] []

/-- Forward a record to the other neighbours (R146). -/
def State.forwardRecord (s : State) (p : Nat) (r : LinkStateRec) : State :=
  s.each (s.fabricPorts.filter fun q => decide (q ≠ p)) fun t q => t.sendLocal q 1 (Config.linkStateBytes r)

/-- A LINK_STATE record from the neighbour on port `p` (R146, R148). -/
def State.linkRecord (s : State) (p : Nat) (r : LinkStateRec) : State :=
  let sw := r.sw.toNat
  if sw = s.fabric.switchId.toNat then
    if r.uid = s.part.nodeUid then s
    else
      match Tab.get none s.fabric.links sw with
      | some _ => s
      | none => (s.setLinkRec sw (some { record := s.ownRecordLs, conflict := some r.uid })).evConflict r.sw s.part.nodeUid r.uid
  else
    match Tab.get none s.fabric.links sw with
    | none => ((s.setLinkRec sw (some { record := r })).forwardRecord p r).topologyChange
    | some h =>
      if h.record.uid = r.uid then
        if r.seq ≤ h.record.seq then s
        else
          let s1 := (s.setLinkRec sw (some { h with record := r })).forwardRecord p r
          if h.record.nbrs = r.nbrs then s1 else s1.topologyChange
      else
        let s1 := if h.conflict = some r.uid then s else s.evConflict r.sw h.record.uid r.uid
        if r.uid < h.record.uid then ((s1.setLinkRec sw (some { record := r, conflict := some h.record.uid })).forwardRecord p r).topologyChange
        else s1.setLinkRec sw (some { h with conflict := some r.uid })

/-- R146: LINK_STATE_RECEIVE. -/
def execLinkStateReceive (p : PortNo) (r : LinkStateRec) (s : State) : Out :=
  require (decide (r.nbrs.length ≤ 128)) <|
    .next (let s1 := s.takeLocal p.val 1
      if s.firmwareRuns && decide (s.fabricPorts.contains p.val) then s1.linkRecord p.val r else s1)

/-- R146: LINK_STATE_AGE_OUT. A conflict goes with the record held (R148, log entry 50). -/
def execLinkStateAgeOut (sw : BitVec 12) (s : State) : Out :=
  .next (if s.firmwareRuns && (Tab.get none s.fabric.links sw.toNat).isSome then (s.setLinkRec sw.toNat none).topologyChange else s)

/-! ### Fabric time -/

/-- R162: TIME_SYNC_EXCHANGE. PCIe-mode ports carry no fabric time. -/
def execTimeSyncExchange (p : PortNo) (s : State) : Out :=
  .next (if s.firmwareRuns && !(s.port p.val).pcie && (s.port p.val).linkUp then s.sendLocal p.val 2 (Config.timeBytes s.fabNs) else s)

/-- The order of grandmasters: (GM_PRIORITY, switch ID) as one number. -/
def gmKey (prio : BitVec 8) (id : BitVec 12) : Nat := prio.toNat * 4096 + id.toNat

/-- This switch as a grandmaster; one with GM_PRIORITY 255 never is. -/
def State.ownGm (s : State) : Option Nat :=
  if s.fabric.time.gmPriority = 255 then none else some (gmKey s.fabric.time.gmPriority s.fabric.switchId)

/-- What the neighbours on native links say of grandmasters: port, grandmaster, hops. -/
def State.gmOffers (s : State) : List (Nat × Nat × Nat) :=
  s.fabric.time.offers.filterMap fun e =>
    match e.2 with
    | some (prio, id, hops) => if prio = 255 ∨ id = s.fabric.switchId then none else some (e.1, gmKey prio id, hops)
    | none => none

/-- The grandmaster of R162: the lowest pair known, this switch's own included. -/
def State.grandmaster (s : State) : Option Nat := leastBy id (s.ownGm.toList ++ s.gmOffers.map fun o => o.2.1)

/-- This switch is grandmaster. -/
def State.isGm (s : State) : Bool := s.ownGm.isSome && decide (s.grandmaster = s.ownGm)

/-- The port from which this switch takes time (R162): the fewest hops to the grandmaster, then the lowest lead quad. -/
def State.timeSource (s : State) : Option (Nat × Nat) :=
  if s.isGm then none
  else
    match s.grandmaster with
    | none => none
    | some g => (leastBy (fun (o : Nat × Nat × Nat) => 512 * o.2.2 + o.1) (s.gmOffers.filter fun o => decide (o.2.1 = g))).map fun o => (o.1, o.2.2)

/-- The mean of a list of numbers, or 0. -/
def mean (l : List Int) : Int := if l = [] then 0 else l.sum / (l.length : Int)

/-- This switch takes time from the port that R162 gives; a source that is new makes it acquire (R163, log entry 49). -/
def State.chooseSource (s : State) : State :=
  let new := s.timeSource
  let hops := match new with | some (_, h) => h + 1 | none => 0
  let s1 := s.modTime fun t => { t with source := new.map Prod.fst, hops := hops }
  if new.map Prod.fst = s.fabric.time.source then s1
  else match new with
    | some _ => s1.setTimeState .acquiring
    | none => s1.setTimeState .holdover

/-- The state of fabric time after an error in ps against its source: stepped above 1 µs, locked within 5 ns (R163, log entry 49). -/
def timeStateAfter (old : TimeState) (err : Int) : TimeState :=
  if err < -1000000 ∨ 1000000 < err then .acquiring
  else if -5000 ≤ err ∧ err ≤ 5000 then .locked
  else old

/-- R163: TIME_MESSAGE_RECEIVE: the link delay, the choice of source, and a step or slew toward it. -/
def execTimeMessageReceive (p : PortNo) (m : TimeMsg) (s0 : State) : Out :=
  .next (let s := s0.takeLocal p.val 2
    if s0.firmwareRuns && !(s.port p.val).pcie && (s.port p.val).linkUp then
      let d := ((m.t4 - m.t1) - (m.t3 - m.t2)) / 2
      let s1 := (s.modTime fun t =>
        { t with delays := Tab.mod [] t.delays p.val fun l => (d :: l).take 16
                 offers := Tab.put none t.offers p.val (some (m.gmPrio, m.gmId, m.hops)) }).chooseSource
      if s1.fabric.time.source = some p.val then
        let delay := mean (Tab.get [] s1.fabric.time.delays p.val) - Tab.get 0 s1.fabric.time.asym p.val
        let err := (m.timeNs : Int) * 1000 + delay - (s1.fabNs : Int) * 1000
        ((s1.steer err).passSnapshot s1.fabNs).setTimeState (timeStateAfter s1.fabric.time.state err)
      else s1
    else s)

/-- The whole second that a PPS_IN edge marks, in ns: the one set, or the nearest (R164). -/
def State.ppsSecond (s : State) : Nat :=
  match s.fabric.time.presetSec with
  | some n => n.toNat * 1000000000
  | none => (s.fabNs + 500000000) / 1000000000 * 1000000000

/-- R164: PPS_IN_EDGE: it steers a grandmaster's time with PPS_IN enabled, and wakes the module from Intermission where WAKE_CONFIG allows (R476). -/
def execPpsInEdge (s0 : State) : Out :=
  let s := s0.wake 3
  .next (if s.running && s.fabric.time.ppsInEn && s.isGm then
      let err := ((s.ppsSecond : Int) - (s.fabNs : Int)) * 1000
      (((s.modTime fun t => { t with presetSec := none }).steer err).passSnapshot s.fabNs).setTimeState (timeStateAfter s.fabric.time.state err)
    else s)

/-- R164: PPS_OUT_SECOND: PPS_OUT rises at a whole second of fabric time; it falls as time passes. -/
def execPpsOutSecond (s : State) : Out := .next (if s.running then s.modTime fun t => { t with ppsOut := true } else s)

end Sys2Proof.Machine
end

