-- ==== Sys2Proof/Machine/Mailbox.lean ====
section
/-!
DEFINITION. Meanings of the mailbox, register and serial-port commands and of groups 0x00 and 0x01 (chapter 11).
-/

namespace Sys2Proof.Machine

/-- R374: DOORBELL of a mailbox page. -/
def execDoorbell (mb : Mb) (s : State) : Out := .next (s.ring mb.val)

/-- R8: a write to a register acts according to its access code. `off` counts from the start of the page's registers: +0x2000 of a mailbox page. -/
def execRegisterWrite (pg : Page) (off : BitVec 12) (v : BitVec 64) (s : State) : Out :=
  .next (match pg with
    | .global => s.writeGlobal off.toNat v.toNat
    | .mailbox mb => s.writeMbReg mb.val (0x2000 + off.toNat) v.toNat)

/-- R375: EVQ_HEAD of a mailbox page. -/
def execEvqHeadWrite (mb : Mb) (v : BitVec 6) (s : State) : Out := .next (s.modMbox mb.val (·.setHead v))

/-- R384: writing 1 to EVQ_OVERFLOW clears it and zeroes EVQ_LOST. -/
def execEvqOverflowClear (mb : Mb) (s : State) : Out := .next (s.modMbox mb.val fun m => { m with evqOverflow := false, evqLost := 0 })

/-- R429: FORCE_STOP of the global page. -/
def execForceStop (s : State) : Out := .next s.forceStop

/-- The Ringmaster answers a request from its home PU. -/
def State.rmReply (s : State) (h : Hdr) (st : BitVec 4) (data : List Byte) : State := s.inject s.mgmt.homeRm (replyFrame h st data)

/-- The path of a frame to index 0x00: MB0 only when it entered this switch on a listed port, and not from another switch (R373). -/
def State.framePath (s : State) (entry : Option PortNo) (f : Frame) : Path :=
  .frame f.hdr.part (match entry with
    | some p => s.mgmt.portList.contains p.val && decide ((s.partner p.val).kind ≠ 1)
    | none => false)

/-- R372: a frame to local endpoint index 0x00 reads or writes the global page or a mailbox page.
A request of another type is answered UNSUPPORTED, and an access of a form that R372 does not allow COMPLETER_ABORT (log entry 20). -/
def execMailboxFrameAccess (entry : Option PortNo) (f : Frame) (s0 : State) : Out :=
  require f.wellFormed <|
  if s0.running = false then .next s0
  else
    let s := s0.takeInbox 3 f
    let x := s.framePath entry f
    let h := f.hdr
    let at_ := pageAddr h.addr.toNat
    if h.type = tyMemRead then
      .next (match at_ with
        | .nowhere => s.rmReply h csUnsupported []
        | .global off => if accessOk (0x2000 + off) h.reqLen then s.rmReply h csSuccess (s.readPage x at_ h.reqLen) else s.rmReply h csAbort []
        | .mailbox n off =>
          if (s.usable x).contains n = false then s.denyAccess.rmReply h csAbort []
          else if accessOk off h.reqLen then s.rmReply h csSuccess (s.readPage x at_ h.reqLen)
          else s.rmReply h csAbort [])
    else if h.type = tyMemWrite then
      if h.poison then .next s
      else
        .next (match at_ with
          | .nowhere => s
          | .global off =>
            if (s.usable x).contains 0 ∧ accessOk (0x2000 + off) h.length.toNat then s.writeGlobal off (natOf f.payload) else s
          | .mailbox n off =>
            if (s.usable x).contains n = false then s.denyAccess
            else if accessOk off h.length.toNat then s.writePage n off f.payload
            else s)
    else if h.kind = .nonPosted then .next (s.rmReply h csUnsupported [])
    else .next s

/-! ### The management serial port -/

/-- The serial port takes writes to MB63 in this stage (R391, R397): not in Intermission, under the start-up hold, or with no flash. -/
def State.serialWrites (s : State) : Bool :=
  !(s.mgmt.stage == stageIntermission || s.mgmt.stage == stageHeld || s.mgmt.stage == stageFailed || s.slots.restarting)

/-- Whether the last transaction was acknowledged. -/
def State.serialAck (s : State) (a : Bool) : State := s.modMgmt fun m => { m with serialAck := a }

/-- R390: Block Write. -/
def execSerialBlockWrite (ptr : BitVec 16) (data : List Byte) (pecOk : Bool) (s : State) : Out :=
  if s.slots.restarting ∨ pecOk = false ∨ data = [] ∨ 240 < data.length then .next (s.serialAck false)
  else if s.serialWrites = false then .next (s.serialAck true)
  else
    .next ((data.foldl (fun (t : State × Nat) b => (if t.2 < 0x4000 then t.1.writePageByte 63 t.2 b else t.1, t.2 + 1)) (s, ptr.toNat)).1.serialAck true)

/-- R391: Send Byte is the DOORBELL of MB63, and in Intermission a wake request.
A doorbell in Intermission or under the start-up hold is held until the mailboxes are ready. -/
def execSerialSendByte (pecOk : Bool) (s : State) : Out :=
  if s.slots.restarting ∨ pecOk = false then .next (s.serialAck false)
  else if s.mgmt.stage = stageFailed then .next (s.serialAck true)
  else .next (((s.ring 63).wake 2).serialAck true)

/-- R390: Write Word sets the read pointer. -/
def execSerialWriteWord (ptr : BitVec 16) (pecOk : Bool) (s : State) : Out :=
  if s.slots.restarting ∨ pecOk = false then .next (s.serialAck false)
  else .next ((s.modMgmt fun m => { m with serialPtr := ptr }).serialAck true)

/-- A byte that the serial port reads (R390): the MB63 page below 0x4000, the global page at 0x4000 to 0x4FFF, 0 elsewhere.
Outside READY and RESTARTING only the global page answers where R391 and R397 say so. -/
def State.serialByte (s : State) (a : Nat) : Byte :=
  if a < 0x4000 then (if s.serialWrites then s.pageByte 63 a else 0)
  else if a < 0x5000 then s.globalByte .serial (a - 0x4000)
  else 0

/-- R390: Block Read returns 240 bytes and advances the pointer by 240. -/
def execSerialBlockRead (s : State) : Out :=
  if s.slots.restarting then .next (s.serialAck false)
  else
    .next ((s.modMgmt fun m =>
      { m with serialData := (List.range 240).map fun i => s.serialByte ((m.serialPtr.toNat + i) % 65536), serialPtr := m.serialPtr + 240 }).serialAck true)

/-! ### Remote mailbox frames -/

/-- A remote command may use the mailbox (R389). -/
def State.remoteOk (s : State) (h : Hdr) (n : Nat) : Bool :=
  if n = 63 then false
  else if n = 0 then s.mgmt.switchList.contains (BitVec.ofNat 12 (h.src.toNat / 256))
  else decide ((s.mbox n).owner = h.part ∧ h.part ≠ 0)

/-- R389: a REMOTE_MAILBOX frame at index 0x00.
A response or event that comes back to this switch, a frame too short for its headers and a poisoned frame have no effect here. -/
def execRemoteMailboxReceive (f : Frame) (s0 : State) : Out :=
  require f.wellFormed <|
  if s0.running = false then .next s0
  else
    let s := s0.takeInbox 3 f
    let h := f.hdr
    let rh := natOf (f.payload.take 16)
    let n := fld rh 0 6
    let env := f.payload.drop 16
    let ev := natOf (env.take 16)
    let refuse (st : Nat) : State :=
      s.remoteFrame h.src h.part (remoteHeader n 1 (fbv rh 32 32) ++
        respBytes { opcode := fld ev 0 16, tag := fbv ev 16 16, length := 0, dryRun := bitOf ev 48, reserved := false, session := 0 } st 0 [])
    if fld rh 6 2 ≠ 0 ∨ f.payload.length < 32 ∨ h.poison then .next s
    else if s.remoteOk h n = false then .next (refuse stNotPermitted)
    else if (s.mbox n).busy then .next (refuse stBusy)
    else
      .next ((s.modMbox n fun m =>
        { m with cmd := cellsWrite m.cmd 0 (env.take 4096), remote := some ⟨h.src, fbv rh 32 32, h.part⟩,
                 requesters := if h.src ∈ m.requesters then m.requesters else m.requesters ++ [h.src] }).ring n)

/-! ### Sessions -/

/-- A session closes: EV_SESSION_END on the mailbox and on MB0 (R381). -/
def State.endSession (s : State) (n cause : Nat) : State :=
  match (s.mbox n).session with
  | none => s
  | some _ =>
    (s.modMbox n fun m => { m with session := none }).raiseTo 0x0100 (packVals [(n, 1), (cause, 1)]) [(s.mbox n).owner]
      fun k => k == n || k == 0

/-- R381: the lease of a session runs out. It does not run while AVAILABLE is 0. -/
def execSessionLeaseExpiry (mb : Mb) (s : State) : Out :=
  if s.mgmt.available then .next (s.endSession mb.val 0) else .next s

/-- R408: SYS_QUERY. -/
def execSysQuery (mb : Mb) (s : State) : Out :=
  .next (runCmd { opcode := 0x0000, priv := false, open_ := true, recovery := true, stopped := true, query := true }
    (fun s _ _ => .done s (packVals [(0x5120, 2), (s.part.stepping.toNat, 1), (b2n s.part.lcX, 1), (s.part.nodeUid.toNat, 8), (s.mgmt.bootWord, 8),
      (s.fabric.switchId.toNat, 2), (b2n s.fabric.idDefault, 1), ((s.now - s.mgmt.bootStart) / 1000000, 8), (s.mgmt.accessDeny, 8)])) mb.val s)

/-- R21: SYS_HOME_SET moves the Ringmaster's home PU. -/
def execSysHomeSet (mb : Mb) (s : State) : Out :=
  .next (runCmd { opcode := 0x0001, priv := true, len := fun _ => 1, fields := [(0, 7)] }
    (fun s pl _ =>
      let q := fld pl 0 7
      if s.puHome q then .done (s.modMgmt fun m => { m with homeRm := q }) [] else .fail stBadState 0) mb.val s)

/-- R373: MB_ACCESS_SET. -/
def execMbAccessSet (mb : Mb) (s : State) : Out :=
  .next (runCmd { opcode := 0x0002, priv := true, len := fun _ => 4, fields := [(0, 1), (1, 1), (2, 1), (3, 8), (11, 1), (16, 12)] }
    (fun s pl _ =>
      let add := bitOf pl 1
      let save (s : State) : State := if bitOf pl 2 then
          s.modMgmt fun m => m.writeDir fun d => { d with portList := m.portList, switchList := m.switchList } else s
      if bitOf pl 0 = false then
        let p := 2 * fld pl 3 8 + fld pl 11 1
        if add then
          match s.portNamed (fld pl 3 8) (fld pl 11 1) with
          | none => .fail stInvalidField 3
          | some p =>
            match addTo 8 s.mgmt.portList p with
            | none => .fail stNoResource 0
            | some l => .done (save (s.modMgmt fun m => { m with portList := l })) []
        else .done (save (s.modMgmt fun m => { m with portList := m.portList.filter fun x => decide (x ≠ p) })) []
      else
        let id := fbv pl 16 12
        if add then
          match addTo 8 s.mgmt.switchList id with
          | none => .fail stNoResource 0
          | some l => .done (save (s.modMgmt fun m => { m with switchList := l })) []
        else .done (save (s.modMgmt fun m => { m with switchList := m.switchList.filter fun x => decide (x ≠ id) })) []) mb.val s)

/-- A sequence number is at or after the first (R408, R434). -/
def atOrAfter (first x : BitVec 16) : Bool := decide ((x - first).toNat < 32768)

/-- R408: EVENT_LOG_READ. -/
def execEventLogRead (mb : Mb) (s : State) : Out :=
  .next (runCmd { opcode := 0x0003, priv := true, stopped := true, query := true, len := fun _ => 3, fields := [(0, 16), (16, 7)],
                  checks := fun pl => [(16, decide (fld pl 16 7 ≠ 0))] }
    (fun s pl _ =>
      let first := fbv pl 0 16
      let l := (s.mgmt.log.filter fun e => atOrAfter first e.entry.eseq).take (fld pl 16 7)
      let f := match l with | e :: _ => e.entry.eseq | [] => first
      .done s (packVals [(f.toNat, 2), (l.length, 2)] ++ l.flatMap fun e => e.entry.bytes)) mb.val s)

/-- R408: MB_QUERY: whether a session is open, lease left in s, subscriptions and notification of the issuing mailbox. -/
def execMbQuery (mb : Mb) (s : State) : Out :=
  .next (runCmd { opcode := 0x0004, priv := false, open_ := true, query := true }
    (fun s _ _ =>
      let m := s.mbox mb.val
      let left := match m.session with | none => 0 | some x => (x.leaseEnd - s.now) / 1000000000
      .done s (packVals [(b2n m.session.isSome, 1), (left, 2), (m.subs.toNat, 2), (b2n m.notify.enable, 1), (b2n m.notify.onDone, 1),
        (b2n m.notify.onEvent, 1), (m.notify.geid.toNat, 3), (m.notify.addr.toNat, 8), (m.notify.data.toNat, 4)])) mb.val s)

/-- A non-zero token from a free value (R380). -/
def tokenOf (w : BitVec 64) : BitVec 32 := if w.setWidth 32 = 0 then 1 else w.setWidth 32

/-- R380: SESSION_OPEN. The token is a free value other than 0. -/
def execSessionOpen (mb : Mb) (s : State) : Out :=
  .next (runCmd { opcode := 0x0100, priv := false, open_ := true, recovery := true, stopped := true, len := fun _ => 4, fields := [(0, 1), (16, 12)],
                  checks := fun pl => [(16, decide (fld pl 16 12 ≤ 3600))] }
    (fun s pl _ =>
      if (s.mbox mb.val).session.isSome ∧ bitOf pl 0 = false then .fail stBusy 0
      else
        let s1 := s.endSession mb.val 2
        let (w, s2) := s1.draw
        let lease := if fld pl 16 12 = 0 then 60 else fld pl 16 12
        .done (s2.modMbox mb.val fun m =>
          { m with session := some { token := tokenOf w, lease := lease, leaseEnd := s.now + lease * 1000000000 } })
          (bytesOf 4 (tokenOf w).toNat)) mb.val s)

/-- R381: SESSION_CLOSE. -/
def execSessionClose (mb : Mb) (s : State) : Out :=
  .next (runCmd { opcode := 0x0101, priv := false, recovery := true, stopped := true } (fun s _ _ => .done (s.endSession mb.val 1) []) mb.val s)

/-- R383: EVENT_SUBSCRIBE sets the groups delivered to the issuing mailbox. -/
def execEventSubscribe (mb : Mb) (s : State) : Out :=
  .next (runCmd { opcode := 0x0102, priv := false, stopped := true, len := fun _ => 2, fields := [(0, 16)] }
    (fun s pl _ => .done (s.modMbox mb.val fun m => { m with subs := fbv pl 0 16 }) []) mb.val s)

/-- R386: NOTIFY_SET. -/
def execNotifySet (mb : Mb) (s : State) : Out :=
  .next (runCmd { opcode := 0x0103, priv := false, stopped := true, len := fun _ => 20,
                  fields := [(0, 1), (1, 1), (2, 1), (12, 20), (64, 64), (128, 32)],
                  checks := fun pl => [(64, decide (fld pl 64 2 = 0))] }
    (fun s pl _ => .done (s.modMbox mb.val fun m =>
      { m with notify := { enable := bitOf pl 0, onDone := bitOf pl 1, onEvent := bitOf pl 2, geid := fbv pl 12 20, addr := fbv pl 64 64,
                           data := fbv pl 128 32 } }) []) mb.val s)

end Sys2Proof.Machine
end

