-- ==== Sys2Proof/Machine/Faults.lean ====
section
/-!
DEFINITION. Meanings of the safety net (chapter 12): detection, classification, the fault log, fences, ALIVE and the group 0x0B commands.
-/

namespace Sys2Proof.Machine

/-! ### Classification (R418, Table 12.2) -/

/-- The record time now: fabric seconds and ns. -/
def State.timeNow (s : State) : BitVec 32 × BitVec 30 := (s.fabric.time.seconds.setWidth 32, s.fabric.time.ns)

/-- The units that a classification fences: those of Table 12.3, or the fallback units for PAIR_ONLY (R418). -/
def fencedBy (src : BitVec 12) (code : BitVec 8) (detail : BitVec 64) (named : Option UnitId) : List UnitId :=
  if code = 0xFE then fallbackUnits src else errorUnits src code detail named

/-- Log an error and react to it: Contained fences its units, Fatal stops the XM5120 (R411). -/
def State.classify (s : State) (r : FaultRec) (named : Option UnitId) : State :=
  let units := if r.severity = svContained then fencedBy r.source r.error r.detail named else []
  let r1 := { r with unit := (match units with | u :: _ => u.bits | [] => 0xFFFFF), multi := decide (1 < units.length) }
  let s1 := s.logError r1
  if r.severity = svContained then
    units.foldl (fun t u => t.applyFence { unit := u, source := r.source, error := r.error } (decide (r.source = 0xF01))) s1
  else if r.severity = svFatal then s1.fatalStop 1
  else s1

/-- The fallback severity of a source (R418): the highest set for any of its errors, WIRE_FAULT among them, at most Degraded without a fallback unit. -/
def State.fallbackSeverity (s : State) (src : BitVec 12) : BitVec 3 :=
  let m := (errorCodes src).foldl (fun a c => if a < s.severityOf src c then s.severityOf src c else a) svDegraded
  if fallbackUnits src = [] ∧ svDegraded < m then svDegraded else m

/-- The current severity of an error, PAIR_ONLY at the fallback severity. -/
def State.currentSeverity (s : State) (src : BitVec 12) (code : BitVec 8) : BitVec 3 :=
  if code = 0xFE then s.fallbackSeverity src else s.severityOf src code

/-- A report precedes another of its source: higher severity, then lower error code (R415). -/
def State.reportBefore (s : State) (src : BitVec 12) (a b : Report) : Bool :=
  decide (s.severityOf src b.code < s.severityOf src a.code ∨ (s.severityOf src b.code = s.severityOf src a.code ∧ a.code ≤ b.code))

/-- The report that a source sends next (R415). -/
def State.nextReport (s : State) (src : BitVec 12) : Option Report :=
  (s.source src).reports.find? fun a => (s.source src).reports.all fun b => s.reportBefore src a b

/-- A source that has no report waiting shows 0b01 again (R414). -/
def Source.settle (x : Source) : Source :=
  if x.reports = [] then
    { x with pair := if x.pair = .invalid then .invalid else .idle, seenAt := none, noReport := false, pairInjected := false }
  else x

/-- R414: an error source detects an error. An uncorrectable payload error of an ingress or middle region also damages the next cell read there (log entry 52). -/
def execErrorDetect (src : BitVec 12) (code : BitVec 8) (detail : BitVec 64) (s : State) : Out :=
  require (sourceExists src && (errorRow src code).isSome) <|
  let s1 := s.report src code detail
  let q := fld src.toNat 0 8
  .next (if fld src.toNat 8 4 = 5 ∧ code = 2 then
      match fld detail.toNat 0 2 with
      | 0 => s1.modCar fun c => { c with badIn := Tab.put false c.badIn q true }
      | 2 => s1.modMid q fun b => { b with bad := true }
      | _ => s1
    else s1)

/-- R418: the collector sees a pair at 0b10 and takes the record time. A pair that was invalid shows a valid code again (R416). -/
def execPairChangeSeen (src : BitVec 12) (s : State) : Out :=
  require (sourceExists src) <|
  let x := s.source src
  if s.collectorOn = false then .next s
  else if x.pair = .invalid then .next (s.modSource src fun y => { y with pair := if y.reports = [] then .idle else .pending })
  else if x.pair = .pending ∧ x.unsupervised = false ∧ x.seenAt = none then
    .next (s.modSource src fun y => { y with seenAt := some s.timeNow, noReport := true })
  else .next s

/-- R418: the next report of a source arrives over the weft and is classified. -/
def execFaultReportClassify (src : BitVec 12) (code : BitVec 8) (s : State) : Out :=
  require (errorGiven src code) <|
  match s.nextReport src with
  | none => .next s
  | some r =>
    if s.collectorOn = false ∨ r.code ≠ code then .next s
    else
      let x := s.source src
      let t := if x.unsupervised then s.timeNow else x.seenAt.getD s.timeNow
      let s1 := s.modSource src fun y => ({ y with reports := y.reports.filter (fun z => decide (z.code ≠ code)), noReport := false }).settle
      .next (s1.classify
        { source := src, error := code, severity := s.severityOf src code, count := r.count, detail := r.detail, injected := r.injected,
          unsupervised := x.unsupervised, seconds := t.1, ns := t.2 } none)

/-- R418: no report within 500 ns of a pair change. -/
def execPairOnlyTimeout (src : BitVec 12) (s : State) : Out :=
  require (sourceExists src) <|
  let x := s.source src
  match x.seenAt with
  | none => .next s
  | some t =>
    if s.collectorOn = false ∨ x.noReport = false then .next s
    else
      let s1 := (s.modSource src fun y => ({ y with noReport := false }).settle).modFaults fun f => { f with pairOnly := inc48 f.pairOnly }
      .next (s1.classify
        { source := src, error := 0xFE, severity := s.fallbackSeverity src, pairOnly := true, injected := x.pairInjected,
          seconds := t.1, ns := t.2 } none)

/-- R416: a pair invalid for more than 2 WCLK cycles. The collector, or with the core die off the booth controller (R417), logs WIRE_FAULT. -/
def execWireFault (src : BitVec 12) (s : State) : Out :=
  require (sourceExists src) <|
  if (s.source src).unsupervised then .next s
  else
    let s1 := s.modSource src fun y => { y with pair := .invalid, unsupervised := true, seenAt := none, noReport := false }
    if s.collectorOn then
      .next (s1.classify { source := src, error := 0xFF, severity := svDegraded, seconds := s.timeNow.1, ns := s.timeNow.2 } none)
    else if selvedgeSource src then .next (s1.boothClassify src 0xFF 0)
    else .next s

/-- R420: 1 ms after a record, the merged occurrences are written as one record, whose own interval begins. -/
def execMergeIntervalEnd (src : BitVec 12) (code : BitVec 8) (s : State) : Out :=
  require (sourceExists src) <|
  let k := mergeKey src code
  let rec_ (m : Merge) : FaultRec :=
    { source := src, error := code, severity := m.severity, count := BitVec.ofNat 16 m.total, detail := m.detail, injected := m.injected,
      unsupervised := m.unsupervised, pairOnly := decide (code = 0xFE), seconds := s.timeNow.1, ns := s.timeNow.2 }
  if s.collectorOn then
    match Tab.get none s.faults.merges k with
    | none => .next s
    | some m =>
      if m.total = 0 then .next (s.modFaults fun f => { f with merges := Tab.put none f.merges k none })
      else .next ((s.writeRecord (rec_ m)).modFaults fun f => { f with merges := Tab.put none f.merges k (some {}) })
  else
    match Tab.get none s.faults.boothMerges k with
    | none => .next s
    | some m =>
      if m.total = 0 then .next (s.modFaults fun f => { f with boothMerges := Tab.put none f.boothMerges k none })
      else .next (s.boothRecord (rec_ m))

/-- R423: a FAULT frame at index 0x00. A poisoned one is discarded (R428). -/
def execFaultFrameReceive (f : Frame) (s0 : State) : Out :=
  require f.wellFormed <|
  if s0.running = false then .next s0
  else
    let s := s0.takeInbox 3 f
    let r := natOf (f.payload.drop 8)
    if f.hdr.poison ∨ f.payload.length < 40 then .next s
    else
      .next (s.raise 0x0B02 [(fld (natOf (f.payload.take 3)) 0 20, 3), (fld r 0 12, 2), (fld r 12 8, 1), (fld r 20 3, 1), (fld r 48 16, 2),
        (fld r 128 64, 8)] [])

/-! ### ALIVE (R430 to R432) -/

/-- R430: a running ALIVE changes level. -/
def execAliveToggle (s : State) : Out :=
  .next (if s.faults.aliveRunning then s.modFaults fun f => { f with aliveLevel := !f.aliveLevel } else s)

/-- R432: Efnuquin refreshes the liveness watchdog. -/
def execLivenessRefresh (s : State) : Out :=
  .next (if s.firmwareRuns then s.modFaults fun f => { f with refreshed := s.now } else s)

/-- R432: the liveness watchdog expires: 100 ms after the last refresh, at the end of the 1.5 s of a weft reset (R398), or at the wake limit. -/
def execLivenessExpiry (s : State) : Out :=
  .next (if s.faults.suspended = false ∨ s.mgmt.weftReset ∨ s.power.inter = .waking then (s.report 0xC04 0x01 0).stopAlive 2 else s)

/-! ### Fenced inputs (R425) -/

/-- R425: 16 periods after an input is fenced, its incomplete frames end at egress, and NEXT of its flows is 0. -/
def execFencedInputCleanup (pu : PuNo) (s : State) : Out :=
  let q := pu.val
  if s.faults.cleanup.contains q = false then .next s
  else
    let srcs := (256 + q) :: s.portsOfQuad q
    let s1 := s.each (s.framesWith fun r => srcs.contains r.src && decide (r.place = .carousel)) fun t uid =>
      match t.frame? uid with
      | some r => t.loseFrame uid r.egress.pu
      | none => t
    .next ((s1.modCar fun c => { c with reseqs := c.reseqs.filter fun e => !srcs.contains (flowSrc e.1) }).modFaults fun f =>
      { f with cleanup := f.cleanup.filter fun x => decide (x ≠ q) })

/-- R466: the booth controller's watchdog expires and the booth controller restarts. -/
def execBoothWatchdogExpiry (s : State) : Out := .next (if s.boothRuns then s.boothRestart else s)

/-! ### Group 0x0B commands (R434, R435) -/

/-- A record of a query that is not held: the reset values of Table 12.5. -/
def noRecord : FaultRec := { source := 0, error := 0, severity := 0, count := 0, frseq := 0 }

/-- R434: FAULT_QUERY. With an empty log the newest FRSEQ is one below the oldest (log entry 61). -/
def execFaultQuery (mb : Mb) (s : State) : Out :=
  .next (runCmd { opcode := 0x0B00, priv := true, stopped := true, query := true }
    (fun s _ _ =>
      let f := s.faults
      let oldest := match f.log with | r :: _ => r.frseq | [] => f.frseq
      .done s ((f.ffr.getD noRecord).bytes ++ (f.firstFatal.getD noRecord).bytes ++
        packVals [(f.ffrLevel.toNat, 1), (oldest.toNat, 2), ((f.frseq - 1).toNat, 2), (f.fences.length, 8),
          ((f.sources.filter fun e => e.2.unsupervised).length, 8)])) mb.val s)

/-- R434: FAULT_LOG_READ. -/
def execFaultLogRead (mb : Mb) (s : State) : Out :=
  .next (runCmd { opcode := 0x0B01, priv := true, stopped := true, query := true, len := fun _ => 3, fields := [(0, 16), (16, 7)],
                  checks := fun pl => [(16, decide (fld pl 16 7 ≠ 0))] }
    (fun s pl _ =>
      let first := fbv pl 0 16
      let l := (s.faults.log.filter fun r => atOrAfter first r.frseq).take (fld pl 16 7)
      let f := match l with | r :: _ => r.frseq | [] => first
      .done s (packVals [(f.toNat, 2), (l.length, 2)] ++ l.flatMap FaultRec.bytes)) mb.val s)

/-- R421: FAULT_CLEAR. -/
def execFaultClear (mb : Mb) (s : State) : Out :=
  .next (runCmd { opcode := 0x0B02, priv := true, len := fun _ => 1, fields := [(0, 1), (1, 1), (2, 1), (3, 3)],
                  checks := fun pl => [(3, decide (fld pl 3 3 ≤ 4))] }
    (fun s pl _ =>
      .done (s.modFaults fun f =>
        { f with ffr := if bitOf pl 0 then none else f.ffr, log := if bitOf pl 1 then [] else f.log,
                 ffrLevel := if bitOf pl 2 then fbv pl 3 3 else f.ffrLevel }) []) mb.val s)

/-- The row of Table 12.3 that FAULT_SEVERITY_SET names: the instance bits are ignored for kinds 0x0 to 0xB. -/
def severityRow (src : BitVec 12) (code : BitVec 8) : Option ErrorRow :=
  if 0xC00 ≤ src.toNat then errorRow src code
  else
    match errorRow (BitVec.ofNat 12 (256 * fld src.toNat 8 4)) code with
    | some r => some r
    | none => if fld src.toNat 8 4 = 0xA then errorRow 0xA30 code else none

/-- R413: FAULT_SEVERITY_SET. WIRE_FAULT keeps severity Degraded, and PAIR_ONLY its fallback severity. -/
def execFaultSeveritySet (mb : Mb) (s : State) : Out :=
  .next (runCmd { opcode := 0x0B03, priv := true, len := fun _ => 3, fields := [(0, 12), (12, 8), (20, 3)],
                  checks := fun pl =>
                    let src := fbv pl 0 12
                    let code := fbv pl 12 8
                    let sev := fbv pl 20 3
                    let row := severityRow src code
                    [(0, decide (src.toNat < 0xC00) || sourceExists src), (12, row.isSome || decide (code = 0xFE ∨ code = 0xFF)),
                     (20, match row with
                        | some r => decide (r.lo ≤ sev ∧ sev ≤ r.hi) && (r.unit || decide (sev ≠ svContained))
                        | none => decide (code = 0xFF ∧ sev = svDegraded))] }
    (fun s pl _ =>
      if fbv pl 12 8 = 0xFF then .done s []
      else .done (s.modFaults fun f => { f with severity := Tab.put none f.severity (severityKey (fbv pl 0 12) (fbv pl 12 8)) (some (fbv pl 20 3)) }) []) mb.val s)

/-- The number of units of a kind of Table 12.7. -/
def unitCount : Nat → Nat
  | 0 => 512 | 1 => 128 | 2 => 256 | 3 => 128 | 4 => 512 | 5 => 128 | 6 => 512 | 7 => 32768 | 8 => 2 | 9 => 48 | _ => 0

/-- The checks of Table 12.12. -/
def unitChecks (pl : Nat) : List (Nat × Bool) :=
  [(0, decide (fld pl 0 4 ≤ 9)), (4, decide (9 < fld pl 0 4 ∨ fld pl 4 16 < unitCount (fld pl 0 4)))]

/-- The unit of Table 12.12. -/
def unitField (pl : Nat) : UnitId := ⟨fbv pl 0 4, fbv pl 4 16⟩

/-- R424: FAULT_FENCE. MANAGER_FENCE is classified as the command runs (log entry 61). -/
def execFaultFence (mb : Mb) (s : State) : Out :=
  .next (runCmd { opcode := 0x0B04, priv := true, len := fun _ => 4, fields := [(0, 4), (4, 16)], checks := unitChecks }
    (fun s pl _ =>
      let u := unitField pl
      if s.fenced u then .done s []
      else .done (s.classify { source := 0xF01, error := 0x01, severity := svContained, seconds := s.timeNow.1, ns := s.timeNow.2 } (some u)) []) mb.val s)

/-- R426: FAULT_RELEASE. -/
def execFaultRelease (mb : Mb) (s : State) : Out :=
  .next (runCmd { opcode := 0x0B05, priv := true, len := fun _ => 4, fields := [(0, 4), (4, 16)], checks := unitChecks }
    (fun s pl _ =>
      let u := unitField pl
      if u.kind = 7 ∨ u.kind = 9 then .fail stBadState 0
      else if s.marked u then .fail stUnusable 0
      else .done (s.releaseFence u) []) mb.val s)

/-- A tenant mailbox owns a unit: every resource that the unit concerns belongs to its partition. -/
def State.ownsUnit (s : State) (n : Nat) (u : UnitId) : Bool :=
  privilegedMb n || (!(s.unitOwners u).isEmpty && (s.unitOwners u).any fun o => s.mayName n o)

/-- R434: FENCE_QUERY. -/
def execFenceQuery (mb : Mb) (s : State) : Out :=
  .next (runCmd { opcode := 0x0B06, priv := false, stopped := true, query := true, len := fun _ => 2, fields := [(0, 8), (8, 8)] }
    (fun s pl _ =>
      let l := ((s.faults.fences.filter fun f => s.ownsUnit mb.val f.unit).drop (fld pl 0 8)).take (fld pl 8 8)
      .done s (packVals ((l.length, 2) :: l.flatMap fun f => [(f.unit.bits.toNat, 3), (f.source.toNat, 2), (f.error.toNat, 1), (0, 2)]))) mb.val s)

/-- R416: FAULT_SUPERVISE. -/
def execFaultSupervise (mb : Mb) (s : State) : Out :=
  .next (runCmd { opcode := 0x0B07, priv := true, len := fun _ => 2, fields := [(0, 12)], checks := fun pl => [(0, sourceExists (fbv pl 0 12))] }
    (fun s pl _ =>
      if (s.source (fbv pl 0 12)).pair = .invalid then .fail stBadState 0
      else .done (s.modSource (fbv pl 0 12) fun x => { x with unsupervised := false }) []) mb.val s)

/-- The DETAIL of an injected report: the manual fixes only its layout (R415), so its fields are free (log entry 61). A lane lies in the source's quad. -/
def injectDetail (src : BitVec 12) (w : Nat) : BitVec 64 :=
  BitVec.ofNat 64 (match fld src.toNat 8 4 with
    | 0x0 => 4 * fld src.toNat 0 8 + w % 4
    | 0x1 => w % 2 ^ 19
    | 0x5 => w % 2 ^ 26
    | 0x6 => w % 8
    | 0x7 => w % 8
    | 0x8 => w % 256
    | 0x9 => w % 64
    | 0xA => w % 256
    | _ => 0)

/-- R435: FAULT_INJECT. PAIR_ONLY, or the error PAIR_ONLY itself, raises the pair without a report. -/
def execFaultInject (mb : Mb) (s : State) : Out :=
  .next (runCmd { opcode := 0x0B08, priv := true, len := fun _ => 3, fields := [(0, 12), (12, 8), (20, 1), (21, 1)],
                  checks := fun pl =>
                    [(0, sourceExists (fbv pl 0 12)),
                     (12, (errorRow (fbv pl 0 12) (fbv pl 12 8)).isSome || decide (fbv pl 12 8 = 0xFE ∨ fbv pl 12 8 = 0xFF))] }
    (fun s pl _ =>
      let src := fbv pl 0 12
      let code := fbv pl 12 8
      let only := bitOf pl 20 || decide (code = 0xFE)
      if bitOf pl 21 = false ∧ (s.currentSeverity src code = svFatal ∨ (code = 0xFE ∧ s.fallbackSeverity src = svFatal)) then .fail stBadState 0
      else if only then
        .done (s.modSource src fun x => { x with pair := if x.pair = .invalid then .invalid else .pending, pairInjected := true }) []
      else
        let (w, s1) := s.draw
        .done (s1.queueReport src { code := code, detail := injectDetail src w.toNat, injected := true }) []) mb.val s)

/-- R423: FAULT_FORWARD_SET. -/
def execFaultForwardSet (mb : Mb) (s : State) : Out :=
  .next (runCmd { opcode := 0x0B09, priv := true, len := fun _ => 4, fields := [(0, 1), (1, 1), (12, 20)] }
    (fun s pl _ =>
      let g : Option Geid := if bitOf pl 1 then some (fbv pl 12 20) else none
      .done (s.modFaults fun f => if bitOf pl 0 then { f with forward1 := g } else { f with forward0 := g }) []) mb.val s)

/-- R433: FAULT_COUNTERS_READ. -/
def execFaultCountersRead (mb : Mb) (s : State) : Out :=
  .next (runCmd { opcode := 0x0B0A, priv := true, stopped := true, len := fun _ => 3, fields := [(0, 12), (12, 7), (19, 1)],
                  checks := fun pl => [(0, sourceExists (fbv pl 0 12))] }
    (fun s pl _ =>
      let src := fbv pl 0 12
      let pu := fld pl 12 7
      let f := s.faults
      let resp := packCounters [(s.source src).correctable, Tab.get 0 f.poisonSet pu, Tab.get 0 f.poisonRx pu, f.pairOnly, f.merged,
        f.logOverwritten, f.fenceDrop]
      let clear := (s.modSource src fun x => { x with correctable := 0 }).modFaults fun f =>
        { f with poisonSet := Tab.put 0 f.poisonSet pu 0, poisonRx := Tab.put 0 f.poisonRx pu 0, pairOnly := 0, merged := 0,
                 logOverwritten := 0, fenceDrop := 0 }
      .done (if bitOf pl 19 then clear else s) resp) mb.val s)

end Sys2Proof.Machine
end

