-- ==== Sys2Proof/Machine/BistOps.lean ====
section
/-!
DEFINITION. Self-test of units: targets and their isolation (R437, R438), refusals (R441), results (R443, R444) and the end of a test (R439, R440, R445).
-/

namespace Sys2Proof.Machine

/-- The result record of a unit (R443). -/
def State.bistRec (s : State) (u : UnitId) : Option BistRec := Tab.get none s.bist.records u.key
/-- Write the result record of a unit. -/
def State.setBistRec (s : State) (u : UnitId) (r : BistRec) : State :=
  s.modBist fun b => { b with records := Tab.put none b.records u.key (some r) }

/-- A result record as Table 13.3 gives it. -/
def State.bistBytes (s : State) (u : UnitId) : List Byte :=
  let r := (s.bistRec u).getD { unit := u }
  bytesOf 48 (packBits [(u.kind.toNat, 4), (u.index.toNat, 16), (r.result.toNat, 3), (b2n r.sigValid, 1), (b2n r.verified, 1), (b2n (s.marked u), 1),
    (0, 6), (r.abortCause.toNat, 4), (r.failPart.toNat, 2), (0, 26), (r.signature.toNat, 64), (r.expected.toNat, 64), (r.failAddr.toNat, 32),
    (r.startSec.toNat, 32), (r.startNs.toNat, 30), (0, 2), (r.durationUs.toNat, 32), (0, 64)])

/-- What a target is tested as: an SRAM bank is isolated as the unit of Table 12.7. -/
inductive TestAs where
  | quad (q : Nat)
  | pu (q : Nat)
  | juggler (j : Nat)
  | mid (m : Nat)
  | heritage
  deriving DecidableEq, Repr

/-- The target that a kind and INDEX name (Table 13.1). -/
def testAs (u : UnitId) : TestAs :=
  let n := u.index.toNat
  match u.kind.toNat with
  | 1 => .quad n
  | 3 => .pu n
  | 4 => .juggler n
  | 5 => .mid n
  | 6 => if n % 4 < 2 then .quad (n / 4) else if n % 4 = 2 then .mid (n / 4) else .pu (n / 4)
  | _ => .heritage

/-- The kinds that BIST_START accepts (Table 13.1). -/
def testKind (k : Nat) : Bool := ([1, 3, 4, 5, 6, 8] : List Nat).contains k

/-- The Ring of a target (R441); a heritage port has none. -/
def testRing (u : UnitId) : Option Nat :=
  match testAs u with
  | .quad q => some (ringOf q)
  | .pu q => some (ringOf q)
  | .juggler j => some (j / 32)
  | .mid m => some (ringOf m)
  | .heritage => none

/-- Tests whose isolation holds. -/
def State.testsActive (s : State) : List UnitId :=
  s.bist.records.filterMap fun e => match e.2 with | some r => if r.active then some r.unit else none | none => none

/-- Tests in progress: PENDING or RUNNING. -/
def State.testsRunning (s : State) : List UnitId :=
  s.bist.records.filterMap fun e => match e.2 with | some r => if r.active && (r.result == 1 || r.result == 2) then some r.unit else none | none => none

/-- Every port that uses a quad is in DISABLED. -/
def State.quadIdle (s : State) (q : Nat) : Bool := (s.portsOfQuad q).all fun p => decide ((s.port p).stage = .disabled)

/-- The precondition of Table 13.1. -/
def State.testAllowed (s : State) (u : UnitId) : Bool :=
  match testAs u with
  | .quad q => s.quadIdle q
  | .pu q => s.quadIdle q
  | .heritage => decide ((s.pw (if u.index = 0 then .a else .b)).personality = .disabled)
  | _ => true

/-- The middle buffers that are draining, skipped or under test. -/
def State.midsOut (s : State) : List Nat := (List.range 128).filter fun m => decide ((s.mid m).state ≠ .inService) || midHeld s.underTest m

/-- Another Juggler may take every descriptor ring of a Juggler (R441). -/
def State.ringsPlaceable (s : State) (j : Nat) : Bool :=
  (s.ringsWith fun r => decide (r.juggler = j) && decide (r.state ≠ .disabled)).all fun id =>
    match s.moverRing id with
    | none => true
    | some r => (s.eligible r.port (s.ringOwner r)).any fun k => decide (k ≠ j) && decide (s.ringsOn k < 16)

/-- The refusals of R441. -/
def State.testRefusal (s : State) (u : UnitId) : Option Nat :=
  let ring := testRing u
  if !s.testAllowed u || (match ring with | some r => s.ringIsOff r | none => false) then some stBadState
  else if s.underTest u || (ring.isSome && s.testsActive.any fun v => decide (testRing v = ring)) then some stBusy
  else
    match testAs u with
    | .mid m => if 28 < (insertNat m s.midsOut).length then some stBusy else none
    | .juggler j => if s.ringsPlaceable j then none else some stNoResource
    | _ => none

/-- A test begins: PENDING, with isolation from here (R439). A quad in Quad Off is powered for it. -/
def State.testStart (s : State) (u : UnitId) : State :=
  let off := match testAs u with | .quad q => !Tab.get false s.power.quadOn q | _ => false
  let s1 := s.setBistRec u
    { unit := u, result := 1, expected := Config.bistExpected u.kind s.part.stepping, since := s.now, active := true, wasOff := off }
  let s2 := match testAs u with
    | .quad q => s1.powerQuad q
    | .mid m => s1.midOut m
    | _ => s1
  s2.updateService.checkLapses

/-- The cell store, penalty queues and egress pool of a PU are empty (Table 13.1). -/
def State.puEmpty (s : State) (q : Nat) : Bool :=
  let ports := s.portsOfQuad q
  (s.framesWith fun r =>
    ((ports.contains r.src || decide (r.src = 256 + q)) && (r.atInput || decide (r.place = .admitted))) ||
      (match r.egress.port with
        | some p => (s.quadsOf p).contains q && (decide (r.place = .queued) || decide (r.place = .orderHeld))
        | none => decide (r.egress.pu = q) && decide (r.place = .inbox))).isEmpty &&
    (List.range 64).all fun k => (s.penalty (64 * q + k)).frames.isEmpty

/-- Isolation of a target is complete (Table 13.1). -/
def State.isolated (s : State) (u : UnitId) : Bool :=
  match testAs u with
  | .pu q => s.puEmpty q
  | .mid m => decide ((s.mid m).state ≠ .draining)
  | _ => true

/-- A test that has ended is re-initialised and its isolation lifted; EV_BIST_DONE carries the record, of which the 20 bytes of DATA hold the first 20 (log entry 63). -/
def State.testDone (s : State) (u : UnitId) : State :=
  match s.bistRec u with
  | none => s
  | some r =>
    let s1 := (s.reinitUnit u).setBistRec u { r with active := false, durationUs := BitVec.ofNat 32 ((s.now - r.since) / 1000) }
    let s2 := match testAs u with
      | .quad q => if r.wasOff && s1.quadIdle q then s1.quadOff q else s1
      | _ => s1
    (s2.returnUnit u false).raise 0x0C00 [(natOf ((s2.bistBytes u).take 20), 20)] []

/-- Every test that has ended and is not yet re-initialised. -/
def State.testsEnded (s : State) : List UnitId :=
  s.bist.records.filterMap fun e =>
    match e.2 with
    | some r => if r.active && (r.result == 3 || r.result == 4 || (r.result == 5 && r.abortCause != 5)) then some r.unit else none
    | none => none

/-- Efnuquin re-initialises the units of aborted tests before a weft reset ends (R445). -/
def State.finishTests (s : State) : State := s.testsEnded.foldl State.testDone s

end Sys2Proof.Machine
end

