-- ==== Sys2Proof/Machine/FirmwareOps.lean ====
section
/-!
DEFINITION. The configuration flash and its images (R392 to R397), the weft reset (R398 to R401) and the calibration store (R405 to R407).
-/

namespace Sys2Proof.Machine

/-! ### Image slots -/

/-- A byte of an image slot that FW_WRITE_BEGIN has erased: an erased byte reads 0xFF (PRESUMED of SPI NOR, log entry 59), so `ImageSlot.bytes` holds the complement. -/
def ImageSlot.byte (x : ImageSlot) (a : Nat) : Byte := ~~~ (Tab.get 0 x.bytes a)

/-- Bytes of an image slot. -/
def ImageSlot.read (x : ImageSlot) (a n : Nat) : List Byte := (List.range n).map fun i => x.byte (a + i)

/-- A field of an image header, at the place that the header format gives it. -/
def ImageSlot.field (x : ImageSlot) (k : Fin 9) (n : Nat) : Nat := natOf (x.read (Config.imageField k) n)

/-- A slot after an erase of `n` bytes: the factory image is gone, and so is the mark of FW_WRITE_END (R403). -/
def ImageSlot.erase (x : ImageSlot) (n : Nat) : ImageSlot :=
  { factory := none, checked := false, bytes := x.bytes.filter fun c => decide (n ≤ c.1) }

/-- Program bytes of a slot. -/
def ImageSlot.program (x : ImageSlot) (a : Nat) (data : List Byte) : ImageSlot := { x with bytes := cellsWrite x.bytes a (data.map fun b => ~~~ b) }

/-- The greatest LENGTH of an image body (R394). -/
def maxBody : Nat := 12 * 2 ^ 20

/-- What verification of the bytes of a slot finds (R394), without the comparison of SVN with the fused minimum, in the order of Table 11.14. -/
def ImageSlot.inspect (x : ImageSlot) : ImageInfo :=
  let length := x.field 4 4
  let sigAt := Config.imageField 8
  let key := x.read (Config.imageField 7) 96
  let err : BitVec 8 :=
    if x.field 0 4 ≠ 0x4D58494D ∨ x.field 1 1 ≠ 1 then 3
    else if Config.sha384 key ≠ Config.imageKeyHash then 4
    else if Config.ecdsaVerify (BitVec.ofNat 768 (natOf key)) (Config.sha384 (x.read 0 sigAt)) (BitVec.ofNat 768 (x.field 8 96)) = false then 5
    else if maxBody < length then 8
    else if Config.sha384 (x.read 4096 length) ≠ BitVec.ofNat 384 (x.field 6 48) then 6
    else 0
  { err := err, version := BitVec.ofNat 24 (x.field 2 3), svn := BitVec.ofNat 6 (x.field 3 1), length := BitVec.ofNat 32 length,
    hitlessMin := BitVec.ofNat 24 (x.field 5 3) }

/-- What the header and body of a slot say. -/
def ImageSlot.info (x : ImageSlot) : ImageInfo :=
  match x.factory with
  | some i => i
  | none => x.inspect

/-- An image slot: false image A, true image B. -/
def Mgmt.slot (m : Mgmt) (b : Bool) : ImageSlot := if b then m.imageB else m.imageA
/-- Change an image slot. -/
def Mgmt.modSlot (m : Mgmt) (b : Bool) (f : ImageSlot → ImageSlot) : Mgmt :=
  if b then { m with imageB := f m.imageB } else { m with imageA := f m.imageA }

/-- Verify an image (R394): a code of Table 11.14, 0 where it is valid. -/
def Mgmt.verify (m : Mgmt) (b : Bool) : BitVec 8 :=
  let i := (m.slot b).info
  if i.err = 0 ∧ i.svn < m.fusedSvn then 7 else i.err

/-- An image is valid (R394). -/
def Mgmt.imageOk (m : Mgmt) (b : Bool) : Bool := m.verify b == 0

/-- An option of an image as 0 none, 1 A, 2 B (log entry 59). -/
def imageCode : Option Bool → Nat
  | none => 0
  | some false => 1
  | some true => 2

/-! ### The weft reset -/

/-- A weft reset begins (R398, R399): staged writes are discarded, tests are aborted, and Efnuquin serves no mailbox. -/
def State.weftStart (s : State) (newImage : Bool) : State :=
  let dropped := decide (s.fabric.staged ≠ {})
  let s1 := ((s.unserve.modFab fun f => { f with staged := {} }).abortTests (fun _ => true) 3).modFaults fun f => { f with suspended := true }
  s1.modMgmt fun m => { m with stage := stageRestarting, weftReset := true, newImage := newImage, stagedDropped := dropped }

/-! ### The calibration store -/

/-- First address and size of the sections of Table 11.15, header first. -/
def calSections : List (Nat × Nat) := [(0, 0x100), (0x100, 0x8000), (0x8100, 0x600), (0x8700, 0x800), (0x8F00, 0x400)]

/-- The section that holds an address. -/
def calSection (a : Nat) : Option Nat := (List.range 5).find? fun k =>
  let x := nth (0, 0) calSections k
  decide (x.1 ≤ a ∧ a < x.1 + x.2)

/-- A byte of the store. The header holds the write count at a place that the manual does not give, so an unlisted header byte depends on the count (log entry 60). -/
def CalStore.byte (c : CalStore) (a : Nat) : Byte :=
  match c.bytes.find? fun x => x.1 == a with
  | some x => x.2
  | none => Config.calFactory (if a < 0x100 then a + 0x10000 * c.writeCount else a)

/-- Bytes of the store. -/
def CalStore.read (c : CalStore) (a n : Nat) : List Byte := (List.range n).map fun i => c.byte (a + i)

/-- List a byte of the store, whatever its value. -/
def calPut : List Host.Cell → Nat → Byte → List Host.Cell
  | [], a, v => [(a, v)]
  | (k, w) :: r, a, v => if a < k then (a, v) :: (k, w) :: r else if a = k then (a, v) :: r else (k, w) :: calPut r a v

/-- List bytes of the store from an address upward. -/
def calPutAll (l : List Host.Cell) (a : Nat) : List Byte → List Host.Cell
  | [] => l
  | b :: r => calPutAll (calPut l a b) (a + 1) r

/-- A write inside a section recomputes its CRC (R406). The CRC of the header changes with the write count, and stays unlisted (log entry 60). -/
def CalStore.write (c : CalStore) (k a : Nat) (data : List Byte) : CalStore :=
  let c1 := { c with bytes := calPutAll c.bytes a data, writeCount := c.writeCount + 1, invalid := c.invalid.filter fun x => decide (x ≠ k) }
  let x := nth (0, 0) calSections k
  if k = 0 then c1
  else { c1 with bytes := calPutAll c1.bytes (x.1 + x.2 - 4) (bytesOf 4 (Config.crc32 (c1.read x.1 (x.2 - 4))).toNat) }

/-- The sections whose CRC fails, but for the header, whose CRC Efnuquin writes with the count. -/
def CalStore.failing (c : CalStore) : List Nat :=
  ([1, 2, 3, 4] : List Nat).filter fun k =>
    let x := nth (0, 0) calSections k
    decide (natOf (c.read (x.1 + x.2 - 4) 4) ≠ (Config.crc32 (c.read x.1 (x.2 - 4))).toNat)

/-- The 65,888 bytes of a blob without its signature: header and store (R407). -/
def State.blobBody (s : State) (bytes : List Host.Cell) (count : Nat) : List Byte :=
  Config.calHeader s.part.nodeUid count ++ ({ bytes := bytes, writeCount := count : CalStore }).read 0 0x10000

/-- A blob of CAL_EXPORT (R407). -/
def State.blob (s : State) (bytes : List Host.Cell) (count : Nat) : List Byte :=
  let b := s.blobBody bytes count
  b ++ bytesOf 96 (Config.deviceSign (Config.sha384 b)).toNat

/-- CAL_IMPORT accepts a blob: the module's own NODE_UID, and a signature by the device key or by the calibration key (R407). -/
def State.blobOk (s : State) (b : List Byte) : Bool :=
  let digest := Config.sha384 (b.take 65792)
  let sig := BitVec.ofNat 768 (natOf ((b.drop 65792).take 96))
  decide (b.length = 65888) && (List.range 1001).any (fun n => decide (b.take 256 = Config.calHeader s.part.nodeUid n)) &&
    (Config.ecdsaVerify Config.deviceKey digest sig || Config.ecdsaVerify Config.calibrationKey digest sig)

/-- The whole store is written with the store of a blob as one write (R407). -/
def CalStore.import (c : CalStore) (b : List Byte) : CalStore :=
  let c1 := { c with bytes := calPutAll [] 0x100 ((b.drop 512).take 0xFF00), writeCount := c.writeCount + 1 }
  { c1 with invalid := c1.failing }

/-- EV_CAL_WRITTEN (R406): a mask of the sections changed, and the new count. -/
def State.evCal (s : State) (mask : Nat) : State := s.raise 0x0F00 [(mask, 1), (s.mgmt.cal.writeCount, 8)] []

/-- Change the calibration store. -/
def State.modCal (s : State) (f : CalStore → CalStore) : State := s.modMgmt fun m => { m with cal := f m.cal }

end Sys2Proof.Machine
end

