-- ==== Sys2Proof/Machine/Firmware.lean ====
section
/-!
DEFINITION. Meanings of the firmware and calibration commands and of the end of a weft reset (chapter 11).
-/

namespace Sys2Proof.Machine

/-- R408: FW_QUERY. -/
def execFwQuery (mb : Mb) (s : State) : Out :=
  .next (runCmd { opcode := 0x0F00, priv := true, recovery := true, query := true }
    (fun s _ _ =>
      let one (b : Bool) : List (Nat × Nat) :=
        let i := (s.mgmt.slot b).info
        [(b2n (s.mgmt.imageOk b), 1), (i.version.toNat, 3), (i.svn.toNat, 1), (i.length.toNat, 4), (i.hitlessMin.toNat, 3)]
      let d := s.mgmt.directory.getD {}
      .done s (packVals (one false ++ one true ++ [(b2n d.activeB, 1), (imageCode d.trialImage, 1), (s.mgmt.fusedSvn.toNat, 1)]))) mb.val s)

/-- R403: FW_WRITE_BEGIN. -/
def execFwWriteBegin (mb : Mb) (s : State) : Out :=
  .next (runCmd { opcode := 0x0F01, priv := true, recovery := true, len := fun _ => 5, fields := [(0, 32), (32, 1)],
                  checks := fun pl => [(0, decide (fld pl 0 32 ≤ 4096 + maxBody))] }
    (fun s pl _ =>
      let b := bitOf pl 32
      let n := fld pl 0 32
      if s.mgmt.stage ≠ stageRecovery ∧ (b = s.mgmt.image ∨ s.mgmt.trial) then .fail stBadState 0
      else
        .done (s.modMgmt fun m =>
          { m.modSlot b fun x => x.erase (ceilDiv n 65536 * 65536) with update := some { slotB := b, length := n, written := 0 } }) []) mb.val s)

/-- R403: FW_WRITE. -/
def execFwWrite (mb : Mb) (s : State) : Out :=
  .next (runCmd { opcode := 0x0F02, priv := true, recovery := true, len := fun _ => 9, fields := [(0, 32), (64, 8 * 4072)] }
    (fun s pl n =>
      match s.mgmt.update with
      | none => .fail stBadState 0
      | some u =>
        if fld pl 0 32 ≠ u.written ∨ u.length < u.written + (n - 8) then .fail stBadState 0
        else
          .done (s.modMgmt fun m =>
            { m.modSlot u.slotB fun x => x.program u.written (bytesOf (n - 8) (pl >>> 64)) with
              update := some { u with written := u.written + (n - 8) } }) []) mb.val s)

/-- R403: FW_WRITE_END verifies what the slot holds. -/
def execFwWriteEnd (mb : Mb) (s : State) : Out :=
  .next (runCmd { opcode := 0x0F03, priv := true, recovery := true }
    (fun s _ _ =>
      match s.mgmt.update with
      | none => .fail stBadState 0
      | some u =>
        if s.mgmt.imageOk u.slotB then
          .done (s.modMgmt fun m => { m.modSlot u.slotB fun x => { x with checked := true } with update := none, lastChecked := u.slotB }) []
        else .fail stAuthFail (s.mgmt.verify u.slotB).toNat) mb.val s)

/-- The image that FW_ACTIVATE names: the one that FW_WRITE_END checked and that is not running, in RECOVERY either (R397, R403). -/
def Mgmt.toActivate (m : Mgmt) : Option Bool :=
  let b := if m.stage = stageRecovery then m.lastChecked else !m.image
  if (m.slot b).checked then some b else none

/-- R402: FW_ACTIVATE. -/
def execFwActivate (mb : Mb) (s : State) : Out :=
  .next (runCmd { opcode := 0x0F04, priv := true, recovery := true, len := fun _ => 1, fields := [(0, 1)] }
    (fun s pl _ =>
      match s.mgmt.toActivate with
      | none => .fail stBadState 0
      | some b =>
        if bitOf pl 0 = false then .done (s.modMgmt fun m => m.writeDir fun d => { d with trialImage := some b }) []
        else if s.mgmt.stage = stageRecovery ∨ s.mgmt.fwVersion < (s.mgmt.slot b).info.hitlessMin then .fail stBadState 0
        else .done (s.weftStart true) []) mb.val s)

/-- R404: FW_CONFIRM. -/
def execFwConfirm (mb : Mb) (s : State) : Out :=
  .next (runCmd { opcode := 0x0F05, priv := true, len := fun _ => 1, fields := [(0, 1)] }
    (fun s pl _ =>
      if s.mgmt.trial = false then .fail stBadState 0
      else
        .done (s.modMgmt fun m =>
          let svn := (m.slot m.image).info.svn
          { m.writeDir fun d => { d with activeB := m.image } with
            trial := false, fusedSvn := if bitOf pl 0 ∧ m.fusedSvn < svn then svn else m.fusedSvn }) []) mb.val s)

/-- R398: FW_RESTART. -/
def execFwRestart (mb : Mb) (s : State) : Out :=
  .next (runCmd { opcode := 0x0F06, priv := true } (fun s _ _ => .done (s.weftStart false) []) mb.val s)

/-- R400: the weft reset ends: the mailboxes are served again, the events of the outage are delivered and EV_FW_RESTARTED follows.
After a restart into a new image TRIAL is 1 until FW_CONFIRM (R404). -/
def execWeftResetEnd (s : State) : Out :=
  if s.mgmt.weftReset = false then .next s
  else
    let s1 := s.finishTests.modMgmt fun m =>
      let b := if m.newImage then !m.image else m.image
      { m with image := b, fwVersion := if m.newImage then (m.slot b).info.version else m.fwVersion, trial := m.trial || m.newImage,
               fallback := m.fallback && !m.newImage, stage := stageReady, weftReset := false, newImage := false }
    let s2 := s1.serveMailboxes.modFaults fun f => { f with suspended := false, refreshed := s.now }
    .next (((s2.raise 0x0003 [(s2.mgmt.fwVersion.toNat, 3), (b2n s.mgmt.stagedDropped, 1)] []).modMgmt fun m => { m with stagedDropped := false }).answerHeld)

/-! ### The calibration store -/

/-- R408: CAL_READ. -/
def execCalRead (mb : Mb) (s : State) : Out :=
  .next (runCmd { opcode := 0x0F07, priv := true, query := true, len := fun _ => 4, fields := [(0, 16), (16, 12)],
                  checks := fun pl => [(16, decide (1 ≤ fld pl 16 12 ∧ fld pl 16 12 ≤ 4080 ∧ fld pl 0 16 + fld pl 16 12 ≤ 0x10000))] }
    (fun s pl _ => .done s (s.mgmt.cal.read (fld pl 0 16) (fld pl 16 12))) mb.val s)

/-- The last byte that CAL_WRITE may write in the section that holds an address, plus one; 0 in none. -/
def calLimit (a : Nat) : Nat :=
  match calSection a with
  | none => 0
  | some k => (nth (0, 0) calSections k).1 + (nth (0, 0) calSections k).2 - 4

/-- R406: CAL_WRITE. -/
def execCalWrite (mb : Mb) (s : State) : Out :=
  .next (runCmd { opcode := 0x0F08, priv := true, len := fun pl => 8 + fld pl 16 12, fields := [(0, 16), (16, 12), (64, 8 * 4072)],
                  checks := fun pl =>
                    [(0, decide (fld pl 0 16 < calLimit (fld pl 0 16))),
                     (16, decide (1 ≤ fld pl 16 12 ∧ fld pl 16 12 ≤ 4072 ∧ fld pl 0 16 + fld pl 16 12 ≤ calLimit (fld pl 0 16)))] }
    (fun s pl _ =>
      let a := fld pl 0 16
      let k := (calSection a).getD 0
      if 1000 ≤ s.mgmt.cal.writeCount then .fail stWearLimit 0
      else .done ((s.modCal fun c => c.write k a (bytesOf (fld pl 16 12) (pl >>> 64))).evCal (2 ^ k)) []) mb.val s)

/-- R407: CAL_EXPORT. -/
def execCalExport (mb : Mb) (s : State) : Out :=
  .next (runCmd { opcode := 0x0F09, priv := true, len := fun _ => 4, fields := [(0, 17), (17, 12)],
                  checks := fun pl =>
                    [(0, decide (fld pl 0 17 < 65888)), (17, decide (1 ≤ fld pl 17 12 ∧ fld pl 17 12 ≤ 4080 ∧ fld pl 0 17 + fld pl 17 12 ≤ 65888))] }
    (fun s pl _ =>
      let s1 := if fld pl 0 17 = 0 then s.modCal fun c => { c with snapshot := some (c.bytes, c.writeCount) } else s
      match s1.mgmt.cal.snapshot with
      | none => .fail stBadState 0
      | some x => .done s1 (((s1.blob x.1 x.2).drop (fld pl 0 17)).take (fld pl 17 12))) mb.val s)

/-- R407: CAL_IMPORT. -/
def execCalImport (mb : Mb) (s : State) : Out :=
  .next (runCmd { opcode := 0x0F0A, priv := true, len := fun _ => 9, fields := [(0, 17), (17, 1), (64, 8 * 4072)] }
    (fun s pl n =>
      let c := s.mgmt.cal
      if 1000 ≤ c.writeCount then .fail stWearLimit 0
      else if fld pl 0 17 ≠ c.importCount then .fail stBadState 0
      else
        let s1 := s.modCal fun c =>
          { c with importBytes := cellsWrite c.importBytes c.importCount (bytesOf (n - 8) (pl >>> 64)), importCount := c.importCount + (n - 8) }
        if bitOf pl 17 = false then .done s1 []
        else
          let b := cellsRead s1.mgmt.cal.importBytes 0 s1.mgmt.cal.importCount
          let s2 := s1.modCal fun c => { c with importBytes := [], importCount := 0 }
          if s2.blobOk b then .done ((s2.modCal fun c => c.import b).evCal 0x1F) [] else .failWith s2 stAuthFail 0) mb.val s)

end Sys2Proof.Machine
end

