-- ==== Sys2Proof/Machine/Governor.lean ====
section
/-!
DEFINITION. The power governor (R493, R497 to R499), the core-die supply monitors (R494), the reference clocks (R503) and JTAG (R505).
-/

namespace Sys2Proof.Machine

/-! ### The power governor -/

/-- Add a measurement to a history of runs. -/
def govPush (above : Bool) : List (Bool × Nat) → List (Bool × Nat)
  | [] => [(above, 1)]
  | (b, n) :: r => if b = above then (b, n + 1) :: r else (above, 1) :: (b, n) :: r

/-- The newest `k` measurements of a history. -/
def govTrim (k : Nat) : List (Bool × Nat) → List (Bool × Nat)
  | [] => []
  | (b, n) :: r => if k = 0 then [] else if k ≤ n then [(b, k)] else (b, n) :: govTrim (k - n) r

/-- ABOVE in measurements of 20 µs: how many of a history exceeded 1,350 W (R497). -/
def govAbove (h : List (Bool × Nat)) : Nat := ((h.filter fun e => e.1).map Prod.snd).sum

/-- The ladder applied: the larger of the power step count and the throttle step count (R499). -/
def Governor.ladder (g : Governor) : Nat := max g.step g.throttle

/-- A governor whose ladder may just have changed from `n`. -/
def Governor.since (g : Governor) (n : Nat) : Governor := if g.ladder = n then g else { g with sinceLadder := 0 }

/-- The governor after a measurement in mW (R497): a step when ABOVE reaches 195 ms and one more each 1 ms while power stays above, every step at 200 ms,
and a release once 10 ms have passed since the last change and power has been at or below 1,300 W for 10 ms or ABOVE is at most 100 ms. -/
def Governor.measure (g : Governor) (mw : Nat) : Governor :=
  let above := decide (1350000 < mw)
  let history := govTrim 100000 (govPush above g.history)
  let total := govAbove history
  let due := above && decide (9750 ≤ total)
  let wasDue := (match g.history with | (b, _) :: _ => b | [] => false) && decide (9750 ≤ govAbove g.history)
  let low := if mw ≤ 1300000 then min (g.lowRun + 1) 500 else 0
  let since := min (g.sinceStep + 1) 500
  let step :=
    if due ∧ 10000 ≤ total then 8
    else if due ∧ (wasDue = false ∨ 50 ≤ since) then min (g.step + 1) 8
    else if due = false ∧ 500 ≤ since ∧ (low = 500 ∨ total ≤ 5000) then g.step - 1
    else g.step
  { g with history := history, lowRun := low, step := step, sinceStep := if step = g.step then since else 0
           sinceLadder := min (g.sinceLadder + 1) 500 : Governor }.since g.ladder

/-- Change the governor. -/
def State.modGov (s : State) (f : Governor → Governor) : State := s.modPower fun x => { x with gov := f x.gov }

/-- The governor runs: Efnuquin has started it (R467), and the module is not stopped. -/
def State.govRuns (s : State) : Bool := s.running && s.collectorOn

/-- R497, R498: GOVERNOR_MEASURE. Each change of the step count is reported as GOVERNOR_STEP. -/
def execGovernorMeasure (milliwatts : Nat) (s : State) : Out :=
  .next (if s.govRuns then
      let s1 := s.modGov fun g => g.measure milliwatts
      if s1.power.gov.step = s.power.gov.step then s1 else (s1.report 0xC05 0x01 0).checkLapses
    else s)

/-- The code that VID moves to: the code asked for, one step at a time and never a reserved one (R493). -/
def vidStep (now target : BitVec 4) : BitVec 4 :=
  let t := if 10 < target then 10 else target
  if now < t then now + 1 else if t < now then now - 1 else now

/-- R493: VID_UPDATE. With an invalid coefficient section VID stays at 0x5; no code changes in the same ms as a step of the ladder. -/
def execVidUpdate (s : State) : Out :=
  .next (if s.govRuns && !s.mgmt.cal.invalid.contains 4 && decide (50 ≤ s.power.gov.sinceLadder) then
      s.modGov fun g => { g with vid := vidStep g.vid (Config.vidTarget (s.mgmt.cal.read 0x8F00 0x400) g.tj) }
    else s)

/-- A temperature check of the governor, one each ms (R499): throttle steps at 105 °C and above, and one fewer each 10 ms below 100 °C. -/
def Governor.thermal (g : Governor) (tj : Int) : Governor :=
  let cool := if tj < 100 then g.coolRun + 1 else 0
  { g with
    tj := tj
    hot := decide (105 ≤ tj)
    coolRun := if 10 ≤ cool then 0 else cool
    throttle := if 105 ≤ tj then min (g.throttle + 1) 8 else if 10 ≤ cool then g.throttle - 1 else g.throttle : Governor }.since g.ladder

/-- R499: THERMAL_CHECK: THROTTLE once for each period at or above 105 °C, and THERMAL_TRIP at 115 °C. -/
def execThermalCheck (tj : Int) (s : State) : Out :=
  .next (if s.govRuns then
      let s1 := s.modGov fun g => g.thermal tj
      let s2 := if 105 ≤ tj ∧ s.power.gov.hot = false then s1.report 0xC06 0x01 0 else s1
      let s3 := if 115 ≤ tj then s2.report 0xC06 0x02 0 else s2
      s3.checkLapses
    else s)

/-- R494: RAIL_FAULT. -/
def execRailFault (_r : RailNo) (s : State) : Out := .next (if s.power.coreOn then s.report 0xC07 0x01 0 else s)

/-! ### Reference clocks (R503) -/

/-- R503: REFCLK_AO_LOSS. -/
def execRefclkAoLoss (s : State) : Out :=
  .next (if s.power.refclkAo then (s.modPower fun x => { x with refclkAo := false }).report 0xE03 0x01 0 else s)

/-- R503: REFCLK_AO_RETURN. -/
def execRefclkAoReturn (s : State) : Out := .next (s.modPower fun x => { x with refclkAo := true })

/-- R503: REFCLK_LOSS: each PU of the Ring reports it. -/
def execRefclkLoss (r : RingNo) (s : State) : Out :=
  .next (if s.power.coreOn && !s.ringIsOff r.val then
      s.each ((List.range 8).map fun k => 8 * r.val + k) fun t q => t.report (BitVec.ofNat 12 (0x200 + q)) 0x01 0
    else s)

/-! ### JTAG (R505) -/

/-- What an unlock token signs: NODE_UID and the nonce that the TAP returns. -/
def State.unlockDigest (s : State) : BitVec 384 := Config.sha384 (bytesOf 8 s.part.nodeUid.toNat ++ bytesOf 4 s.power.jtagNonce.toNat)

/-- R505: JTAG_UNLOCK. An invalid token leaves the TAP as it is. -/
def execJtagUnlock (token : BitVec 768) (s : State) : Out :=
  .next (if Config.ecdsaVerify Config.unlockKey s.unlockDigest token then s.modPower fun x => { x with jtagUnlocked := true } else s)

end Sys2Proof.Machine
end

