-- ==== Sys2Proof/Machine/Partition.lean ====
section
/-!
DEFINITION. Meanings of partitions, virtual hierarchies and shared instances (chapter 7): the group 0x07 commands and the events of instances.
Staged commands are checked against the policy table as it will be once the staged writes take effect (log entry 54).
-/

namespace Sys2Proof.Machine

/-! ### Partitions (R233 to R241, R511) -/

/-- A partition is usable (R511). -/
def State.usablePart (s : State) (o : Nat) : Bool := decide (o = 0) || Tab.get false s.parts.usable o

/-- Stage a write of the policy table (R237). -/
def State.stagePolicy (s : State) (w : PolicyWrite) : State :=
  s.modFab fun f => { f with staged := { f.staged with policy := f.staged.policy ++ [w] } }

/-- A number that must be 1 to 255 (R276). -/
def partRange (pl lo : Nat) : Nat × Bool := (lo, decide (fld pl lo 8 ≠ 0))

/-- R511: PARTITION_CREATE. -/
def execPartitionCreate (mb : Mb) (s : State) : Out :=
  .next (runCmd { opcode := 0x0700, priv := true, len := fun _ => 1, fields := [(0, 8)], checks := fun pl => [partRange pl 0] }
    (fun s pl _ =>
      let o := fld pl 0 8
      .done (if s.usablePart o then s else s.modParts fun x =>
        { x with usable := Tab.put false x.usable o true, timing := Tab.put false x.timing o false, lapsed := Tab.put false x.lapsed o false }) []) mb.val s)

/-- A partition owns a virtual hierarchy or an instance, committed or staged (R235). -/
def State.ownsVirtual (s : State) (o : BitVec 8) : Bool :=
  [s.policy, s.stagedPolicy].any fun t =>
    (t.vh.any fun e => match e.2 with | some r => decide (t.ownerOf r.port = o) | none => false) ||
    (t.inst.any fun e => match e.2 with | some r => decide (r.owner = o) | none => false)

/-- The mailboxes of a partition return to partition 0. -/
def State.freeMailboxes (s : State) (o : BitVec 8) : State :=
  s.each (List.range 64) fun t n => if (t.mbox n).owner = o ∧ privilegedMb n = false then t.modMbox n fun m => { m with owner := 0 } else t

/-- R235: PARTITION_DESTROY. -/
def execPartitionDestroy (mb : Mb) (s : State) : Out :=
  .next (runCmd { opcode := 0x0701, priv := true, len := fun _ => 1, fields := [(0, 8)], checks := fun pl => [partRange pl 0] }
    (fun s pl _ =>
      let o := fld pl 0 8
      let ow := BitVec.ofNat 8 o
      if s.usablePart o = false then .done s []
      else if s.ownsVirtual ow then .fail stBusy 0
      else .done (((s.modParts fun x => { x with usable := Tab.put false x.usable o false }).stagePolicy (.destroy ow)).freeMailboxes ow) []) mb.val s)

/-- A port is bound to a vDSP, or serves a shared endpoint that has instances (R235). -/
def State.portBusy (s : State) (p : Nat) : Bool :=
  let t := s.stagedPolicy
  (t.bind.any fun e => e.2 == some (.endpoint (s.portGeid p))) || (t.inst.any fun e => decide (e.1 / 256 = p))

/-- R235: PARTITION_ASSIGN (Table 7.15). -/
def execPartitionAssign (mb : Mb) (s : State) : Out :=
  .next (runCmd { opcode := 0x0702, priv := true, len := fun _ => 3, fields := [(0, 8), (8, 2), (10, 8), (18, 1)],
                  checks := fun pl =>
                    let k := fld pl 8 2
                    [(8, decide (k ≠ 3)), (10, decide (k = 1 → fld pl 10 8 ≤ 1) && decide (k = 2 → 1 ≤ fld pl 10 8 ∧ fld pl 10 8 ≤ 62))] }
    (fun s pl _ =>
      let o := fld pl 0 8
      let ow := BitVec.ofNat 8 o
      let i := fld pl 10 8
      match fld pl 8 2 with
      | 0 => s.onPort mb.val i (fld pl 18 1) 10 fun p =>
          if s.usablePart o = false then .fail stBadState 0
          else if s.portBusy p then .fail stBusy 0
          else .done (s.stagePolicy (.owner p ow)) []
      | 1 => if s.usablePart o = false then .fail stBadState 0 else .done (s.stagePolicy (.pwOwner (i == 1) ow)) []
      | _ => if s.usablePart o = false then .fail stBadState 0 else .done (s.modMbox i fun m => { m with owner := ow }) []) mb.val s)

/-- R272: PARTITION_CONFIG (Table 7.15). -/
def execPartitionConfig (mb : Mb) (s : State) : Out :=
  .next (runCmd { opcode := 0x0703, priv := true, len := fun _ => 2, fields := [(0, 8), (8, 1)] }
    (fun s pl _ =>
      let o := fld pl 0 8
      let on := bitOf pl 8
      if s.usablePart o = false ∨ (on = true ∧ s.timingOk (BitVec.ofNat 8 o) = false) then .fail stBadState 0
      else .done (s.modParts fun x =>
        { x with timing := Tab.put false x.timing o on, lapsed := if on then x.lapsed else Tab.put false x.lapsed o false }) []) mb.val s)

/-- R240: PARTITION_GRANT (Table 7.15, R511). -/
def execPartitionGrant (mb : Mb) (s : State) : Out :=
  .next (runCmd { opcode := 0x0704, priv := true, len := fun _ => 3, fields := [(0, 8), (8, 8), (16, 1)] }
    (fun s pl _ =>
      if bitOf pl 16 && !(s.usablePart (fld pl 0 8) && s.usablePart (fld pl 8 8)) then .fail stBadState 0
      else .done (s.stagePolicy (.grant (fbv pl 0 8) (fbv pl 8 8) (bitOf pl 16))) []) mb.val s)

/-- R236: PORT_TRUST_SET (Table 7.15). -/
def execPortTrustSet (mb : Mb) (s : State) : Out :=
  .next (runCmd { opcode := 0x0705, priv := true, len := fun _ => 2, fields := [(0, 8), (8, 1), (9, 2)], checks := fun pl => [(9, decide (fld pl 9 2 ≠ 2))] }
    (fun s pl _ => s.onPort mb.val (fld pl 0 8) (fld pl 8 1) 0 fun p => .done (s.stagePolicy (.trust p (fbv pl 9 2))) []) mb.val s)

/-- A list with its 2-byte count (R510). -/
def countedList (l : List Nat) (w : Nat) : List (Nat × Nat) := (l.length, 2) :: l.map fun n => (n, w)

/-- The keys of a table's entries that satisfy a test. -/
def keysWith {α : Type} (t : Tab α) (f : Nat → α → Bool) : List Nat := (t.filter fun e => f e.1 e.2).map Prod.fst

/-- Resources, level and lapse state of a partition (R275; layout of log entry 55): ports, Patchwork A and B, mailboxes, VHs, instances as port and ID, Jugglers, level, lapse. -/
def State.partBytes (s : State) (o : BitVec 8) : List Byte :=
  let t := s.policy
  packVals (
    [(b2n (s.usablePart o.toNat), 1)] ++ countedList (s.allPorts.filter fun p => decide (t.ownerOf p = o)) 1 ++
    [(b2n (decide (t.ownerA = o)), 1), (b2n (decide (t.ownerB = o)), 1)] ++
    countedList ((List.range 64).filter fun n => !privilegedMb n && decide ((s.mbox n).owner = o)) 1 ++
    countedList (keysWith t.vh fun _ e => match e with | some r => decide (t.ownerOf r.port = o) | none => false) 1 ++
    countedList (keysWith t.inst fun _ e => match e with | some r => decide (r.owner = o) | none => false) 2 ++
    countedList ((List.range 512).filter fun j => decide ((s.juggler j).owner = o)) 2 ++
    [(b2n (Tab.get false s.parts.timing o.toNat), 1), (b2n (Tab.get false s.parts.lapsed o.toNat), 1)])

/-- R275: PARTITION_QUERY. -/
def execPartitionQuery (mb : Mb) (s : State) : Out :=
  .next (runCmd { opcode := 0x0706, priv := false, query := true, len := fun _ => 1, fields := [(0, 8)] }
    (fun s pl _ => if s.mayName mb.val (fbv pl 0 8) then .done s (s.partBytes (fbv pl 0 8)) else .fail stNotPermitted 0) mb.val s)

/-! ### Virtual hierarchies (R242 to R245) -/

/-- R242: VH_CREATE (Table 7.15). A VH number in use, or a port that carries a VH, is refused with BAD_STATE (log entry 56). -/
def execVhCreate (mb : Mb) (s : State) : Out :=
  .next (runCmd { opcode := 0x0707, priv := true, len := fun _ => 4, fields := [(0, 7), (7, 8), (15, 6), (21, 10)],
                  checks := fun pl => [(15, decide (1 ≤ fld pl 15 6 ∧ fld pl 15 6 ≤ 32)), (21, decide (fld pl 21 10 ≤ 1000))] }
    (fun s pl _ => s.onPort mb.val (fld pl 7 8) 0 7 fun p =>
      let t := s.stagedPolicy
      let v := fld pl 0 7
      if (s.port p).pcie = false ∨ (s.port p).upstream = false then .fail stInvalidField 7
      else if (Tab.get none t.vh v).isSome ∨ (t.vh.any fun e => match e.2 with | some r => decide (r.port = p) | none => false) then .fail stBadState 0
      else .done (s.stagePolicy (.vh v (some { port := p, vdsps := fld pl 15 6, orderWait := if fld pl 21 10 = 0 then 100 else fld pl 21 10 }))) []) mb.val s)

/-- A VH has bindings. -/
def Policy.bound (t : Policy) (v : Nat) : Bool := t.bind.any fun e => decide (e.1 / 32 = v) && e.2.isSome

/-- R275: VH_DESTROY. The payload is the VH number in [6:0] (log entry 56). -/
def execVhDestroy (mb : Mb) (s : State) : Out :=
  .next (runCmd { opcode := 0x0708, priv := true, len := fun _ => 1, fields := [(0, 7)] }
    (fun s pl _ =>
      let t := s.stagedPolicy
      let v := fld pl 0 7
      if (Tab.get none t.vh v).isNone then .fail stBadState 0
      else if t.bound v then .fail stBusy 0
      else .done (s.stagePolicy (.vh v none)) []) mb.val s)

/-- A target that R245 and Table 7.6 allow for vDSP key `vk` of a VH of partition `o`. A GEID of another switch is taken as the manager gives it. -/
def State.bindOk (s : State) (t : Policy) (vk : Nat) (o : BitVec 8) (b : Binding) : Bool :=
  let once := !(t.bind.any fun e => decide (e.1 ≠ vk) && decide (e.2 = some b))
  match b with
  | .endpoint g =>
    if g = 0xFFFFF then false
    else if g.toNat / 256 ≠ s.fabric.switchId.toNat then once
    else
      match s.geidPort g with
      | none => false
      | some p => once && decide (t.ownerOf p = o) && (if (s.port p).pcie then !(s.port p).upstream else true)
  | .inst g id =>
    match s.geidPort g with
    | none => false
    | some p => match t.instAt p id.toNat with | some r => once && decide (r.owner = o) | none => false

/-- R245: VH_BIND (Table 7.15). -/
def execVhBind (mb : Mb) (s : State) : Out :=
  .next (runCmd { opcode := 0x0709, priv := true, len := fun _ => 6, fields := [(0, 7), (7, 5), (12, 2), (14, 20), (34, 8)],
                  checks := fun pl => [(12, decide (fld pl 12 2 ≠ 3))] }
    (fun s pl _ =>
      let t := s.stagedPolicy
      let v := fld pl 0 7
      let k := fld pl 7 5
      match Tab.get none t.vh v with
      | none => .fail stBadState 0
      | some r =>
        if r.vdsps ≤ k then .fail stInvalidField 7
        else
          let b : Option Binding := match fld pl 12 2 with
            | 0 => none
            | 1 => some (.endpoint (fbv pl 14 20))
            | _ => some (.inst (fbv pl 14 20) (fbv pl 34 8))
          match b with
          | none => .done (s.stagePolicy (.bind v k none)) []
          | some x => if s.bindOk t (32 * v + k) (t.ownerOf r.port) x then .done (s.stagePolicy (.bind v k b)) [] else .fail stInvalidField 14) mb.val s)

/-- The registers of a VH's functions that a host has programmed: function number, offset and value of each. -/
def State.vhRegs (s : State) (v : Nat) : List (Nat × Nat × Nat) :=
  (s.parts.config.filter fun e => decide (e.1 / 128 = v)).flatMap fun e => e.2.map fun r => (e.1 % 128, r.1, r.2.toNat)

/-- Bindings and emulated register state of a VH (R275; layout of log entry 55). -/
def State.vhBytes (s : State) (v : Nat) (r : VhRec) : List Byte :=
  let regs := (s.vhRegs v).take 512
  packVals ([(r.port, 1), (r.orderWait, 2), (r.vdsps, 2)] ++
    (List.range r.vdsps).flatMap (fun k => match s.binding v k with
      | none => [(0, 1), (0, 3), (0, 1)]
      | some (.endpoint g) => [(1, 1), (g.toNat, 3), (0, 1)]
      | some (.inst g id) => [(2, 1), (g.toNat, 3), (id.toNat, 1)]) ++
    [(regs.length, 2)] ++ regs.flatMap fun e => [(e.1, 1), (e.2.1, 2), (e.2.2, 4)])

/-- R275: VH_QUERY. -/
def execVhQuery (mb : Mb) (s : State) : Out :=
  .next (runCmd { opcode := 0x070A, priv := false, query := true, len := fun _ => 1, fields := [(0, 7)] }
    (fun s pl _ =>
      match s.vhRec (fld pl 0 7) with
      | none => if privilegedMb mb.val then .fail stBadState 0 else .fail stNotPermitted 0
      | some r => if s.mayName mb.val (s.portOwner r.port) then .done s (s.vhBytes (fld pl 0 7) r) else .fail stNotPermitted 0) mb.val s)

/-! ### Shared endpoints and the pools of Table 7.10 -/

/-- The pools of a shared endpoint (Table 7.10, R286): BUFFER, CREDITS, METER, MOVER, XLATE. -/
def State.poolTotals (s : State) (p : Nat) : List Nat :=
  let q := (s.port p).quads
  [4096 * q - nth 0 (s.pools p) 6 - nth 0 (s.pools p) 7, 4096, 128 * q, 64 * q, 32768]

/-- R252: SHARED_ENDPOINT_SET (Table 7.15). `cap` is what Efnuquin's read of INSTANCE_CAP returned, none where it did not complete with SUCCESS. -/
def execSharedEndpointSet (mb : Mb) (cap : Option (BitVec 64)) (s : State) : Out :=
  .next (runCmd { opcode := 0x070B, priv := true, len := fun _ => 8, fields := [(0, 64)] }
    (fun s pl _ => s.onNative mb.val (fld pl 0 8) 0 fun p =>
      match cap with
      | none => .fail stBadState 0
      | some c =>
        let n := c.toNat % 512
        if (s.partner p).kind ≠ 2 ∨ n = 0 ∨ 256 < n then .fail stBadState 0
        else .done (s.stagePolicy (.shared p { cap := n, vendor := fbv pl 8 16, device := fbv pl 24 16, classCode := fbv pl 40 24 }))
          (packVals ((n, 2) :: (s.poolTotals p).map fun v => (v, 2)))) mb.val s)

/-- The instance records of a port but one. -/
def Policy.siblings (t : Policy) (p id : Nat) : List InstRec :=
  t.inst.filterMap fun e => if e.1 / 256 = p ∧ e.1 % 256 ≠ id then e.2 else none

/-- The lowest free start of `n` translation entries (R256, R258). -/
def Policy.freeXlate (t : Policy) (but n : Nat) : Option Nat :=
  let used := t.inst.filterMap fun e => if e.1 = but then none else e.2.map fun r => (r.firstXlate, r.firstXlate + r.xlate)
  leastBy id ((0 :: used.map Prod.snd).filter fun a => decide (a + n ≤ 32768) && used.all fun u => decide (a + n ≤ u.1 ∨ u.2 ≤ a))

/-- The lowest meter of a port's PUs that no instance holds (R261). -/
def State.freeMeter (s : State) (t : Policy) (p : Nat) : Option Nat :=
  let used := t.inst.filterMap fun e => e.2.bind fun r => r.meter
  ((s.quadsOf p).flatMap fun q => (List.range 128).map fun k => 128 * q + k).find? fun m => !used.contains m

/-- The pools of a port supply shares beside those of its other instances (R258). -/
def State.poolsSupply (s : State) (t : Policy) (p id buffer credits mover : Nat) : Bool :=
  let l := t.siblings p id
  decide ((l.map fun r => r.buffer).sum + buffer ≤ nth 0 (s.poolTotals p) 0) && decide ((l.map fun r => r.credits).sum + credits ≤ 4096) &&
    decide ((l.map fun r => r.mover).sum + mover ≤ nth 0 (s.poolTotals p) 3)

/-- R258: INSTANCE_CREATE (Table 7.14). -/
def execInstanceCreate (mb : Mb) (s : State) : Out :=
  .next (runCmd { opcode := 0x070C, priv := true, len := fun _ => 20,
                  fields := [(0, 8), (8, 8), (16, 8), (24, 6), (32, 16), (48, 13), (61, 1), (64, 16), (80, 16), (96, 64)],
                  checks := fun pl =>
                    [partRange pl 16, (24, decide (12 ≤ fld pl 24 6)), (32, decide (18 ≤ fld pl 32 16)), (48, decide (1 ≤ fld pl 48 13 ∧ fld pl 48 13 ≤ 4096)),
                     (64, decide (fld pl 64 16 ≤ 16)), (80, decide (1 ≤ fld pl 80 16 ∧ fld pl 80 16 ≤ 32768)), (96, decide (fld pl 96 64 % 2 ^ fld pl 24 6 = 0))] }
    (fun s pl _ => s.onNative mb.val (fld pl 0 8) 0 fun p =>
      let t := s.stagedPolicy
      let id := fld pl 8 8
      match Tab.get none t.shared p with
      | none => .fail stBadState 0
      | some sh =>
        if sh.cap ≤ id then .fail stInvalidField 8
        else if s.usablePart (fld pl 16 8) = false then .fail stBadState 0
        else if (t.instAt p id).isSome then .fail stBusy 0
        else if 4096 ≤ t.inst.length ∨ s.poolsSupply t p id (fld pl 32 16) (fld pl 48 13) (fld pl 64 16) = false then .fail stNoResource 0
        else
          let m := if bitOf pl 61 then s.freeMeter t p else none
          match t.freeXlate (256 * p + id) (fld pl 80 16) with
          | none => .fail stNoResource 0
          | some a =>
            if bitOf pl 61 && m.isNone then .fail stNoResource 0
            else .done (s.stagePolicy (.inst p id
                { owner := fbv pl 16 8, log2 := fld pl 24 6, base := fbv pl 96 64, buffer := fld pl 32 16, credits := fld pl 48 13, meter := m,
                  mover := fld pl 64 16, xlate := fld pl 80 16, firstXlate := a }))
              (packVals [(m.getD 0xFFFF, 2), (a, 2)])) mb.val s)

/-! ### Instances that exist -/

/-- An instance target: INVALID_FIELD for a port that is none or an ID at or above INSTANCE_CAP, BAD_STATE for no instance, NOT_PERMITTED for a tenant that does not own it (R275, R276). -/
def State.onInst (s : State) (n quad id : Nat) (k : Nat → InstRec → CmdResult) : CmdResult :=
  match s.portNamed quad 0 with
  | none => .fail stInvalidField 0
  | some p =>
    match Tab.get none s.policy.shared p with
    | none => if privilegedMb n then .fail stBadState 0 else .fail stNotPermitted 0
    | some sh =>
      if sh.cap ≤ id then .fail stInvalidField 8
      else
        match s.policy.instAt p id with
        | none => if privilegedMb n then .fail stBadState 0 else .fail stNotPermitted 0
        | some r =>
          if s.mayName n r.owner = false then .fail stNotPermitted 0
          else if (s.instRun p id).gone then .fail stBadState 0
          else k p r

/-- The commands that name an instance with a TIMEOUT (Table 7.15). -/
def instCmd (op : Nat) (priv query : Bool) : CmdSpec :=
  { opcode := op, priv := priv, query := query, len := fun _ => 4, fields := [(0, 8), (8, 8), (16, 14)],
    checks := fun pl => [(16, decide (fld pl 16 14 ≤ 10000))] }

/-- TIMEOUT of such a command in ms. -/
def instTimeout (pl : Nat) : Nat := if fld pl 16 14 = 0 then 100 else fld pl 16 14

/-- The translation entries of an instance become invalid. -/
def State.clearXlate (s : State) (r : InstRec) : State :=
  s.modParts fun x => { x with xlate := x.xlate.filter fun e => !decide (r.firstXlate ≤ e.1 ∧ e.1 < r.firstXlate + r.xlate) }

/-- An instance is ended: ENABLE 0, its rings and their slots are freed, its fence is lifted, and the next policy commit removes its record (R264, R266, R299). -/
def State.endInst (s : State) (p id : Nat) (r : InstRec) : State :=
  let u := unitOf 7 (256 * leadOf p + id)
  let s1 := ((s.clearXlate r).modInst p id fun x => { x with gone := true, destroy := false, count := [] }).writeIcb p id (fun i => { i with enable := false }) [0]
  let s2 := s1.each (s1.instRings p id) fun t k => (t.resetRing k).setMover k none
  match s2.faults.fences.find? fun f => decide (f.unit = u) with
  | none => s2
  | some f => (s2.modFaults fun x => { x with fences := x.fences.filter fun g => decide (g.unit ≠ u) }).evFence f true (s2.unitOwners u)

/-- RESET_REQ is written and the instance is RESETTING (R264). -/
def State.beginReset (s : State) (p id cause ms_ : Nat) (destroy : Bool) : State :=
  ((s.modInst p id fun x => { x with timeoutMs := ms_, forced := false, destroy := destroy, reqCleared := false, lifePassed := false }).setInst
    p id .resetting cause).writeIcb p id (fun i => { i with resetReq := true }) [0]

/-- R264, R266: INSTANCE_DESTROY. -/
def execInstanceDestroy (mb : Mb) (s : State) : Out :=
  .next (runCmd (instCmd 0x070D true false)
    (fun s pl _ => s.onInst mb.val (fld pl 0 8) (fld pl 8 8) fun p r =>
      let id := fld pl 8 8
      match (s.instRun p id).state with
      | .quiesced => .done (s.beginReset p id 3 (instTimeout pl) true) []
      | .failed => .done (s.endInst p id r) []
      | _ => .fail stBusy 0) mb.val s)

/-- Write an instance's record in the tables in force, and in those that PUs still use. -/
def State.setInstRec (s : State) (p id : Nat) (r : InstRec) : State :=
  let k := 256 * p + id
  let put (t : Tables) : Tables := { t with policy := { t.policy with inst := Tab.put none t.policy.inst k (some r) } }
  s.modFab fun f => { f with tables := put f.tables, stale := f.stale.map fun e => (e.1, e.2.map put) }

/-- Translation entries move to a new place; those beyond a smaller share become invalid. -/
def State.moveXlate (s : State) (r : InstRec) (first n : Nat) : State :=
  let l := (List.range (min r.xlate n)).map fun i => Tab.get {} s.parts.xlate (r.firstXlate + i)
  (s.clearXlate r).modParts fun x => { x with xlate := (l.zip (List.range l.length)).foldl (fun t e => Tab.put {} t (first + e.2) e.1) x.xlate }

/-- A share field of 0 keeps the current value. -/
def keepZero (v old : Nat) : Nat := if v = 0 then old else v

/-- R259: INSTANCE_SHARE_SET: the shares in force at once, and NP_CREDITS written (R260). -/
def execInstanceShareSet (mb : Mb) (s : State) : Out :=
  .next (runCmd { opcode := 0x070E, priv := true, len := fun _ => 12, fields := [(0, 8), (8, 8), (32, 16), (48, 13), (61, 1), (64, 16), (80, 16)],
                  checks := fun pl =>
                    [(32, decide (fld pl 32 16 = 0 ∨ 18 ≤ fld pl 32 16)), (48, decide (fld pl 48 13 ≤ 4096)), (64, decide (fld pl 64 16 ≤ 16)),
                     (80, decide (fld pl 80 16 ≤ 32768))] }
    (fun s pl _ => s.onInst mb.val (fld pl 0 8) (fld pl 8 8) fun p r =>
      let id := fld pl 8 8
      let t := s.stagedPolicy
      let buffer := keepZero (fld pl 32 16) r.buffer
      let credits := keepZero (fld pl 48 13) r.credits
      let mover := keepZero (fld pl 64 16) r.mover
      let xlate := keepZero (fld pl 80 16) r.xlate
      let m := if bitOf pl 61 ∧ r.meter = none then s.freeMeter t p else r.meter
      let at_ := if xlate ≤ r.xlate then some r.firstXlate else t.freeXlate (256 * p + id) xlate
      match at_ with
      | none => .fail stNoResource 0
      | some a =>
        if s.poolsSupply t p id buffer credits mover = false ∨ (bitOf pl 61 = true ∧ m = none) then .fail stNoResource 0
        else
          let r1 := { r with buffer := buffer, credits := credits, mover := mover, xlate := xlate, meter := m, firstXlate := a }
          let s1 := (s.moveXlate r a xlate).setInstRec p id r1
          .done (if credits = r.credits then s1 else s1.writeIcb p id (fun i => { i with npCredits := BitVec.ofNat 16 credits }) [0]) []) mb.val s)

/-- The RUNNING rings of an instance stop, and are remembered (R298). -/
def State.pauseRings (s : State) (p id : Nat) : State :=
  s.each (s.instRings p id) fun t k =>
    match t.moverRing k with
    | some r => if r.state = .running then (t.modMover k fun r => { r with wasRunning := true }).stopRing k 4 else t.modMover k fun r => { r with wasRunning := false }
    | none => t

/-- The rings of an instance that were RUNNING run again (R298). -/
def State.resumeRings (s : State) (p id : Nat) : State :=
  s.each (s.instRings p id) fun t k =>
    match t.moverRing k with
    | some r =>
      let t1 := t.modMover k fun r => { r with wasRunning := false }
      if r.wasRunning ∧ (r.state = .stopped ∨ r.state = .stopping) then t1.setRingState k .running 5 else t1
    | none => t

/-- R263: INSTANCE_QUIESCE: RUNNING rings of the instance stop (R298). -/
def execInstanceQuiesce (mb : Mb) (s : State) : Out :=
  .next (runCmd (instCmd 0x070F true false)
    (fun s pl _ => s.onInst mb.val (fld pl 0 8) (fld pl 8 8) fun p _ =>
      let id := fld pl 8 8
      if (s.instRun p id).state ≠ .active then .fail stBadState 0
      else
        let s1 := ((s.modInst p id fun x => { x with timeoutMs := instTimeout pl }).setInst p id .quiescing 1).writeIcb p id (fun i => { i with quiesceReq := true }) [0]
        .done (s1.pauseRings p id) []) mb.val s)

/-- R263: INSTANCE_RESUME: the rings that were RUNNING run again (R298). -/
def execInstanceResume (mb : Mb) (s : State) : Out :=
  .next (runCmd (instCmd 0x0710 true false)
    (fun s pl _ => s.onInst mb.val (fld pl 0 8) (fld pl 8 8) fun p _ =>
      let id := fld pl 8 8
      let g := (s.instRun p id).state
      if g ≠ .quiescing ∧ g ≠ .quiesced then .fail stBadState 0
      else
        let s1 := (s.setInst p id .active 2).writeIcb p id (fun i => { i with quiesceReq := false }) [0]
        .done (s1.resumeRings p id) []) mb.val s)

/-- R264: INSTANCE_RESET. -/
def execInstanceReset (mb : Mb) (s : State) : Out :=
  .next (runCmd (instCmd 0x0711 true false)
    (fun s pl _ => s.onInst mb.val (fld pl 0 8) (fld pl 8 8) fun p _ =>
      let id := fld pl 8 8
      if (s.instRun p id).state ≠ .quiesced then .fail stBusy 0 else .done (s.beginReset p id 3 (instTimeout pl) false) []) mb.val s)

/-- R265: INSTANCE_RESET_FORCE. -/
def execInstanceResetForce (mb : Mb) (s : State) : Out :=
  .next (runCmd (instCmd 0x0712 true false)
    (fun s pl _ => s.onInst mb.val (fld pl 0 8) (fld pl 8 8) fun p _ =>
      let id := fld pl 8 8
      if (s.instRun p id).state = .failed then .fail stBadState 0
      else .done ((s.modInst p id fun x => { x with timeoutMs := instTimeout pl }).forceReset p id) []) mb.val s)

/-- A translation entry of an INSTANCE_XLATE_SET payload (Table 7.15), at bit `b`. -/
def xlateOf (pl b : Nat) : Xlate :=
  { valid := bitOf pl b, readEn := bitOf pl (b + 1), writeEn := bitOf pl (b + 2), sizeLog2 := fbv pl (b + 3) 6, base := BitVec.ofNat 64 (fld pl (b + 12) 52 * 4096),
    target := fbv pl (b + 64) 20, targetBase := BitVec.ofNat 64 (fld pl (b + 140) 52 * 4096) }

/-- The checks of an entry: reserved bits, and for a valid one SIZE_LOG2 of 12 to 63 and BASE a multiple of SIZE (R256, R276). -/
def xlateChecks (pl i : Nat) : List (Nat × Bool) :=
  let b := 64 + 192 * i
  let e := xlateOf pl b
  [(b + 3, !e.valid || decide (12 ≤ e.sizeLog2.toNat)), (b + 9, decide (fld pl (b + 9) 3 = 0)),
   (b + 12, !e.valid || decide (e.base.toNat % 2 ^ e.sizeLog2.toNat = 0)), (b + 84, decide (fld pl (b + 84) 56 = 0))]

/-- R257: INSTANCE_XLATE_SET (Table 7.15). -/
def execInstanceXlateSet (mb : Mb) (s : State) : Out :=
  .next (runCmd { opcode := 0x0713, priv := false, len := fun pl => 8 + 24 * min 169 (fld pl 32 8),
                  fields := [(0, 8), (8, 8), (16, 15), (32, 8), (64, 32448)],
                  checks := fun pl => (32, decide (1 ≤ fld pl 32 8 ∧ fld pl 32 8 ≤ 169)) :: (List.range (min 169 (fld pl 32 8))).flatMap (xlateChecks pl) }
    (fun s pl _ => s.onInst mb.val (fld pl 0 8) (fld pl 8 8) fun _ r =>
      let n := fld pl 32 8
      if r.xlate < fld pl 16 15 + n then .fail stInvalidField 16
      else .done (s.modParts fun x =>
        { x with xlate := (List.range n).foldl (fun t i => Tab.put {} t (r.firstXlate + fld pl 16 15 + i) (xlateOf pl (64 + 192 * i))) x.xlate }) []) mb.val s)

/-- State, shares, counts and ICB of an instance (R275; layout of log entry 55). -/
def State.instBytes (s : State) (p id : Nat) (r : InstRec) : List Byte :=
  let x := s.instRun p id
  packVals ([(x.state.code, 1), (r.buffer, 2), (r.credits, 2), (r.meter.getD 0xFFFF, 2), (r.mover, 2), (r.xlate, 2), (r.firstXlate, 2), (x.count.length, 8),
    (s.instCells (p, id), 8)] ++ (List.range 4).map fun k => (x.icb.word k, 8))

/-- R275: INSTANCE_QUERY. -/
def execInstanceQuery (mb : Mb) (s : State) : Out :=
  .next (runCmd (instCmd 0x0714 false true)
    (fun s pl _ => s.onInst mb.val (fld pl 0 8) (fld pl 8 8) fun p r => .done s (s.instBytes p (fld pl 8 8) r)) mb.val s)

/-- The counters of Table 7.12 in table order. -/
def PartCounters.list (c : PartCounters) : List Nat :=
  [c.partDeny, c.vhMiss, c.orderHolds, c.orderTimeout, c.orderUntracked, c.instWaits, c.instCreditOver, c.instQuiesceDrop, c.instResetDrop]

/-- R274: PART_COUNTERS_READ. -/
def execPartCountersRead (mb : Mb) (s : State) : Out :=
  .next (runCmd { opcode := 0x0715, priv := false, query := true, len := fun _ => 1, fields := [(0, 7), (7, 1)] }
    (fun s pl _ => s.onPu mb.val (fld pl 0 7) (
      .done (if bitOf pl 7 then s.countPart (fld pl 0 7) fun _ => {} else s) (packCounters (Tab.get {} s.parts.counters (fld pl 0 7)).list))) mb.val s)

/-! ### Events of instances -/

/-- The conditions of R263. -/
def State.quiet (s : State) (p id : Nat) (icbQuiesced : Bool) : Bool :=
  icbQuiesced && (s.instRun p id).count.isEmpty && (s.instReqs p id).isEmpty &&
    (s.framesWith fun r => decide (r.inst = some (p, id) ∨ r.fromInst = some (p, id))).isEmpty &&
    ((s.instRings p id).all fun k => match s.moverRing k with | some r => r.state == .stopped || r.state == .error || r.state == .disabled | none => true)

/-- R263: QUIESCE_CHECK. -/
def execQuiesceCheck (p : PortNo) (id : BitVec 8) (icbQuiesced timedOut : Bool) (s : State) : Out :=
  .next (if s.firmwareRuns && (s.policy.instAt p.val id.toNat).isSome && decide ((s.instRun p.val id.toNat).state = .quiescing) then
      (if s.quiet p.val id.toNat icbQuiesced then s.setInst p.val id.toNat .quiesced 1
       else if timedOut then s.evInst p.val id.toNat 6 else s)
    else s)

/-- The reset of an instance ends (R264, R298). -/
def State.endReset (s : State) (p id : Nat) : State :=
  match s.policy.instAt p id with
  | none => s
  | some r =>
    let s1 := match s.instVdsp p id with | some (v, k) => s.resetFn v (34 + k) | none => s
    let s2 := ((s1.clearXlate r).modInst p id fun x => { x with count := [], forced := false, reqCleared := false, lifePassed := false }).writeIcb p id
      (fun i => { i with msiData := 0, msiVecLog2 := 0, msiEn := false, msiAddr := 0 }) [2, 3]
    if (s.instRun p id).destroy then s2.endInst p id r
    else (s2.setInst p id .active 5).each (s2.instRings p id) State.resetRing

/-- R264: RESET_REQ_CLEARED: aborted entries are removed, and the reset ends, a forced one once the lifetime limit has passed too (R265). -/
def execResetReqCleared (p : PortNo) (id : BitVec 8) (s : State) : Out :=
  let x := s.instRun p.val id.toNat
  .next (if s.firmwareRuns && (s.policy.instAt p.val id.toNat).isSome && decide (x.state = .resetting) && x.icb.resetReq && !x.gone && !x.reqCleared then
      let s1 := (s.modInst p.val id.toNat fun x => { x with reqCleared := true, aborted := [], icb := { x.icb with resetReq := false, quiesceReq := false } }).modLink p.val
        fun l => { l with outReqs := l.outReqs.filter fun o => !x.aborted.contains (o.requester, o.tag) }
      (if x.forced && !x.lifePassed then s1 else s1.endReset p.val id.toNat)
    else s)

/-- R266: RESET_TIMEOUT: the instance enters FAILED and is reported, which fences it. -/
def execResetTimeout (p : PortNo) (id : BitVec 8) (s : State) : Out :=
  let x := s.instRun p.val id.toNat
  .next (if s.firmwareRuns && (s.policy.instAt p.val id.toNat).isSome && decide (x.state = .resetting) && x.icb.resetReq && !x.gone && !x.reqCleared then
      (s.failInst p.val id.toNat 7).report (BitVec.ofNat 12 (0x800 + leadOf p.val)) 4 (id.setWidth 64)
    else s)

/-- R265: RESETTING_LIFETIME_PASS. -/
def execResettingLifetimePass (p : PortNo) (id : BitVec 8) (s : State) : Out :=
  let x := s.instRun p.val id.toNat
  .next (if s.firmwareRuns && (s.policy.instAt p.val id.toNat).isSome && decide (x.state = .resetting) && x.forced && !x.gone then
      (if x.reqCleared then s.endReset p.val id.toNat else s.modInst p.val id.toNat fun x => { x with lifePassed := true })
    else s)

/-- R249: ORDER_HOLD_RELEASE: ORDER_WAIT has passed for a held tunnel frame. -/
def execOrderHoldRelease (p : PortNo) (uid : Nat) (s : State) : Out :=
  .next (if s.running && (Tab.get [] s.parts.held p.val).contains uid then
      (s.countPart (leadOf p.val) fun c => { c with orderTimeout := inc48 c.orderTimeout }).unhold p.val uid
    else s)

end Sys2Proof.Machine
end

