-- ==== Sys2Proof/Machine/JugglerSteps.lean ====
section
/-!
DEFINITION. Meanings of the Jugglers and the data mover (chapter 8): the group 0x08 commands, steps of work, doorbells and completions.
-/

namespace Sys2Proof.Machine

/-! ### Allocation (R284) -/

/-- A partition has a Juggler that may serve it among those that do the work of a PU (R282, R283). -/
def State.hasJuggler (s : State) (pu : Nat) (own : BitVec 8) : Bool := (s.jugglersOk (s.workPu pu)).any fun j => (s.juggler j).serves own

/-- The PUs whose work of priorities 3 and 4 needs a Juggler, with the partition that it is for: lead PUs of VHs and homes of Patchwork ports. -/
def State.engineNeeds (s : State) : List (Nat × BitVec 8) :=
  (s.policy.vh.filterMap fun e => e.2.map fun r => (leadOf r.port, s.portOwner r.port)) ++
    [(s.mgmt.homeA, s.pwOwner .a), (s.mgmt.homeB, s.pwOwner .b)]

/-- Rings placed on Jugglers that may no longer serve their instance's owner. -/
def State.foreignRings (s : State) : List Nat :=
  s.ringsWith fun r => decide (r.state ≠ .disabled) && !(s.juggler r.juggler).serves (s.ringOwner r)

/-- Move those rings to Jugglers that R290 allows; `none` where one has nowhere to go. -/
def moveForeign : List Nat → State → Option State
  | [], s => some s
  | id :: l, s =>
    match s.moverRing id with
    | none => moveForeign l s
    | some r =>
      match s.placeOn r.port (s.ringOwner r) with
      | none => none
      | some j => moveForeign l ((s.modMover id fun x => { x with moveTo := some j }).moveRing id)

/-- R284: JUGGLER_ALLOC. A ring with a descriptor in progress moves at its next descriptor boundary (log entry 58). -/
def execJugglerAlloc (mb : Mb) (s : State) : Out :=
  .next (runCmd { opcode := 0x0800, priv := true, len := fun _ => 4, fields := [(0, 9), (9, 10), (19, 8)],
                  checks := fun pl => [(9, decide (1 ≤ fld pl 9 10 ∧ fld pl 0 9 + fld pl 9 10 ≤ 512))] }
    (fun s pl _ =>
      let own := fbv pl 19 8
      let s1 := s.each (List.range (fld pl 9 10)) fun t i => t.modJuggler (fld pl 0 9 + i) fun x => { x with owner := own }
      if s.engineNeeds.any fun e => s.hasJuggler e.1 e.2 && !s1.hasJuggler e.1 e.2 then .fail stBadState 0
      else
        match moveForeign s1.foreignRings s1 with
        | none => .fail stBadState 0
        | some s2 => .done s2 []) mb.val s)

/-- The state that JUGGLER_QUERY gives: 0 in service, 1 fenced, 2 unusable, 3 off (log entry 58). -/
def State.jugglerState (s : State) (j : Nat) : Nat :=
  if jugglerHeld s.fenced j then 1 else if jugglerHeld s.marked j then 2 else if s.jugglerOk j then 0 else 3

/-- Queued items of a priority: open block writes for 3 and fetched descriptors for 5 (log entry 58). -/
def State.queuedItems (s : State) (j prio : Nat) : Nat :=
  match prio with
  | 3 => ([PwPort.a, PwPort.b].filter fun x => (s.pw x).openWrite.isSome && decide (s.workPu (s.pwHome x) = j / 4) && (s.juggler j).serves (s.pwOwner x)).length
  | 5 => ((s.ringsWith fun r => decide (r.juggler = j)).map fun id => match s.moverRing id with | some r => r.descs.length | none => 0).sum
  | p => (nth [] (s.juggler j).work (p - 1)).length

/-- R304: JUGGLER_QUERY. -/
def execJugglerQuery (mb : Mb) (s : State) : Out :=
  .next (runCmd { opcode := 0x0801, priv := true, query := true, len := fun _ => 2, fields := [(0, 9)] }
    (fun s pl _ =>
      let j := fld pl 0 9
      .done s (packVals ([((s.juggler j).owner.toNat, 1), (s.jugglerState j, 1), (s.ringsOn j, 8)] ++
        ([1, 2, 3, 4, 5] : List Nat).map fun p => (s.queuedItems j p, 8)))) mb.val s)

/-! ### Descriptor rings -/

/-- An address that is aligned to the smaller of `unit` × 2^n bytes and 4 KiB (R287). -/
def ringAligned (a unit n : Nat) : Bool := decide (a % min (unit * 2 ^ n) 4096 = 0)

/-- The configuration of a MOVER_RING_SET payload (Table 8.9) on a ring, with HEAD and TAIL 0. -/
def MoverRing.configure (r : MoverRing) (p pl : Nat) : MoverRing :=
  { r with
    port := p, inst := fld pl 8 8, ring := fld pl 16 4, n := fld pl 20 4, stopOnError := bitOf pl 24, irqEn := bitOf pl 25, cls := fbv pl 26 3
    descGeid := fbv pl 32 20, descInst := fbv pl 52 12, descAddr := fbv pl 64 64
    cplGeid := fbv pl 128 20, cplInst := fbv pl 148 12, cplAddr := fbv pl 160 64
    irqGeid := fbv pl 224 20, irqInst := fbv pl 244 12, irqAddr := fbv pl 256 64, irqData := fbv pl 320 32
    head := 0, tail := 0, phase := true, descs := [], wasRunning := false }

/-- A ring whose Juggler is out of service looks for another when it is configured, reset or started (R290, R300, log entry 58). -/
def State.reseat (s : State) (id : Nat) : State :=
  match s.moverRing id with
  | none => s
  | some r => if s.jugglerOk r.juggler then s else s.evictRing id

/-- R290: MOVER_RING_SET. -/
def execMoverRingSet (mb : Mb) (s : State) : Out :=
  .next (runCmd { opcode := 0x0802, priv := false, len := fun _ => 48,
                  fields := [(0, 29), (32, 352 - 32)],
                  checks := fun pl =>
                    [(20, decide (4 ≤ fld pl 20 4)), (64, ringAligned (fld pl 64 64) 64 (fld pl 20 4)), (160, ringAligned (fld pl 160 64) 32 (fld pl 20 4)),
                     (256, decide (fld pl 256 64 % 4 = 0))] }
    (fun s pl _ => s.onInst mb.val (fld pl 0 8) (fld pl 8 8) fun p r =>
      if r.mover ≤ fld pl 16 4 then .fail stInvalidField 16
      else
        match (s.ringsWith fun x => decide (x.port = p ∧ x.inst = fld pl 8 8 ∧ x.ring = fld pl 16 4)).head? with
        | some id =>
          match s.moverRing id with
          | none => .fail stBadState 0
          | some x =>
            if x.state = .running ∨ x.state = .stopping then .fail stBadState 0
            else
              let s1 := ((((s.dropStaged id).killTags id).modMover id fun x => x.configure p pl).setRingState id .stopped 0).reseat id
              .done s1 (packVals [(id, 2), ((match s1.moverRing id with | some y => y.juggler | none => 0), 2)])
        | none =>
          match (List.range 8192).find? fun i => (s.moverRing i).isNone, s.placeOn p r.owner with
          | some id, some j =>
            .done ((s.setMover id (some ({ juggler := j : MoverRing }.configure p pl))).setRingState id .stopped 0) (packVals [(id, 2), (j, 2)])
          | _, _ => .fail stNoResource 0) mb.val s)

/-- A ring that a mailbox may name (R304): a RING_ID of no ring is BAD_STATE for a privileged mailbox. -/
def State.onRing (s : State) (n id : Nat) (k : MoverRing → CmdResult) : CmdResult :=
  match s.moverRing id with
  | none => if privilegedMb n then .fail stBadState 0 else .fail stNotPermitted 0
  | some r => if s.mayName n (s.ringOwner r) then k r else .fail stNotPermitted 0

/-- R297: MOVER_RING_CONTROL (Table 8.10). -/
def execMoverRingControl (mb : Mb) (s : State) : Out :=
  .next (runCmd { opcode := 0x0803, priv := false, len := fun _ => 2, fields := [(0, 13), (13, 2)], checks := fun pl => [(13, decide (fld pl 13 2 ≠ 3))] }
    (fun s pl _ => s.onRing mb.val (fld pl 0 13) fun r =>
      let id := fld pl 0 13
      match fld pl 13 2 with
      | 0 => if r.state = .stopped then .done ((s.setRingState id .running 1).reseat id) [] else .fail stBadState 0
      | 1 => if r.state = .running then .done (s.stopRing id 2) [] else .fail stBadState 0
      | _ =>
        if r.state = .stopped ∨ r.state = .error then
          .done (((((s.dropStaged id).killTags id).modMover id fun x => { x with head := 0, tail := 0, phase := true, descs := [], wasRunning := false }).setRingState
            id .stopped 3).reseat id) []
        else .fail stBadState 0) mb.val s)

/-- R304: MOVER_RING_QUERY: state, HEAD, TAIL, Juggler, descriptors in progress, last cause. -/
def execMoverRingQuery (mb : Mb) (s : State) : Out :=
  .next (runCmd { opcode := 0x0804, priv := false, query := true, len := fun _ => 2, fields := [(0, 13)] }
    (fun s pl _ => s.onRing mb.val (fld pl 0 13) fun r =>
      .done s (packVals [(r.state.code, 1), (r.head, 2), (r.tail, 2), (r.juggler, 2), ((r.descs.filter fun d => d.started && d.status.isNone).length, 8),
        (r.cause.toNat, 1)])) mb.val s)

/-- R290: MOVER_PLACE. -/
def execMoverPlace (mb : Mb) (s : State) : Out :=
  .next (runCmd { opcode := 0x0805, priv := true, len := fun _ => 3, fields := [(0, 13), (13, 9)] }
    (fun s pl _ => s.onRing mb.val (fld pl 0 13) fun r =>
      let j := fld pl 13 9
      if (s.eligible r.port (s.ringOwner r)).contains j && decide (s.ringsOn j < 16) then
        .done ((s.modMover (fld pl 0 13) fun x => { x with moveTo := some j }).moveRing (fld pl 0 13)) []
      else .fail stInvalidField 13) mb.val s)

/-- R303: MOVER_COUNTERS_READ: a Juggler's counters with those of its PU and of the switch, which a clear zeroes with it. -/
def execMoverCountersRead (mb : Mb) (s : State) : Out :=
  .next (runCmd { opcode := 0x0806, priv := false, query := true, len := fun _ => 2, fields := [(0, 13), (13, 1), (14, 1)],
                  checks := fun pl => [(9 + (lowBit (fld pl 9 4) 4).getD 0, !bitOf pl 13 || decide (fld pl 9 4 = 0))] }
    (fun s pl _ =>
      if bitOf pl 13 then
        (if privilegedMb mb.val = false then .fail stNotPermitted 0
         else
          let j := fld pl 0 9
          let x := s.juggler j
          let s1 := if bitOf pl 14 then
              (s.modJuggler j fun x => { x with synthCpl := 0, steps := [0, 0, 0, 0, 0] }).modJug fun y =>
                { y with synthWaits := Tab.put 0 y.synthWaits (j / 4) 0, moverDbDeny := 0 } else s
          .done s1 (packCounters ([x.synthCpl] ++ x.steps ++ [Tab.get 0 s.jug.synthWaits (j / 4), s.jug.moverDbDeny])))
      else
        s.onRing mb.val (fld pl 0 13) fun r =>
          .done (if bitOf pl 14 then s.modMover (fld pl 0 13) fun x => { x with descDone := 0, descErr := 0, bytesMoved := 0 } else s)
            (packCounters [r.descDone, r.descErr, r.bytesMoved])) mb.val s)

/-! ### Steps, doorbells and completions -/

/-- R280: JUGGLER_STEP: ends that wait for room in the synthesis queue are tried first (R281). -/
def execJugglerStep (j : JugglerNo) (s : State) : Out :=
  .next (if s.running && s.jugglerOk j.val then (s.retryEnds (j.val / 4)).jugglerStep j.val else s)

/-- R288: MOVER_DOORBELL: doorbells take effect in the order of their lookups (R512). -/
def execMoverDoorbell (f : Frame) (s : State) : Out :=
  require f.wellFormed (.next (
    if s.running && decide (f.hdr.kind ≠ .completion) then
      (match s.inboxFrame 2 f with
       | some (uid, r) => (s.discard uid).doorbell f r.order
       | none => s.doorbell f s.car.lookups)
    else s))

/-- R294: MOVER_COMPLETION_RECEIVE. -/
def execMoverCompletionReceive (f : Frame) (s : State) : Out :=
  require f.wellFormed (.next (if s.running && decide (f.hdr.kind = .completion) then (s.takeInbox 2 f).moverCpl f else s))

end Sys2Proof.Machine
end

