-- ==== Sys2Proof/Machine/Ports.lean ====
section
/-!
DEFINITION. Meanings of the main lanes and ports (chapter 2).
-/

namespace Sys2Proof.Machine

/-! ### Configuring ports -/

/-- Width in lanes of a WIDTH code (Table 2.17). -/
def widthOfCode (c : Nat) : Nat := 2 ^ c
/-- WIDTH code of a width. -/
def codeOfWidth (w : Nat) : Nat := if w = 16 then 4 else if w = 8 then 3 else if w = 4 then 2 else if w = 2 then 1 else 0

/-- Remove a port (R77): its identity, link layer and scheduler go; the incarnation and SLOT stay; its quads without another sub-port become unused and enter Quad Off. -/
def State.removePort (s : State) (p : Nat) : State :=
  let quads := s.quadsOf p
  let inc := (s.link p).inc
  let f (t : State) : State :=
    let t1 := t.modPartner p fun x => { slot := x.slot }
    let t2 := { t1 with ports := Tab.put {} t1.ports p {}, links := Tab.put {} t1.links p { inc := inc }
                        sched := { t1.sched with ports := Tab.put {} t1.sched.ports p {} } }
    quads.foldl (fun u q => if (u.portsOfQuad q).isEmpty && !(u.port (2 * q + 1)).configured then u.quadOff q else u) t2
  s.partnerChange p f

/-- Ports of a list of quads, without repeats. -/
def State.portsIn (s : State) (quads : List Nat) : List Nat := (quads.flatMap s.portsOfQuad).eraseDups

/-- The refusals of PORT_CONFIGURE for the quads it uses and the ports that hold them (R77, R442). -/
def State.configureRefusal (s : State) (quads ports : List Nat) : Option Nat :=
  if ports.any (fun p => decide ((s.port p).stage ≠ .disabled)) || quads.any (fun q => s.ringIsOff (ringOf q)) then some stBadState
  else if ports.any (fun p => decide (0 < s.storeCells p)) || quads.any (quadHeld s.underTest) then some stBusy
  else if quads.any (quadHeld s.marked) then some stUnusable
  else none

/-- PORT_CONFIGURE with MODE unused (R77, R86). -/
def State.unconfigure (s : State) (q sub : Nat) : CmdResult :=
  match s.portNamed q sub with
  | none => if (s.portsOfQuad q).isEmpty then .done s [] else .fail stInvalidField 0
  | some p =>
    match s.configureRefusal (s.quadsOf p) [p] with
    | some st => .fail st 0
    | none => if sub = 0 ∧ (s.port (2 * q + 1)).configured then .fail stBadState 0 else .done (s.removePort p) []

/-- A quad that changes mode passes through Quad Off and powers up (R77, R84); one held by a fence or a mark stays off. -/
def State.cycleQuad (s : State) (q : Nat) (changed : Bool) : State :=
  let s1 := if changed then s.quadOff q else s
  if quadHeld s.out q then s1 else s1.powerQuad q

/-- PORT_CONFIGURE of a native or PCIe-mode port (R77, R86). -/
def State.configure (s : State) (q sub w : Nat) (pcie : Bool) (rate : BitVec 3) (upstream : Bool) (clocking : BitVec 2) (autoUp : Bool) : CmdResult :=
  let n := if w = 16 then 4 else if w = 8 then 2 else 1
  let p := 2 * q + sub
  let quads := (List.range n).map (q + ·)
  let other := 2 * q + (1 - sub)
  -- the other sub-port of the quad stays where both are PCIe-mode ports of at most ×2 (Table 2.1)
  let keeps := pcie && decide (w ≤ 2) && (s.port other).configured && (s.port other).pcie && decide ((s.port other).width ≤ 2)
  if q % n ≠ 0 ∨ 128 < q + n then .fail stInvalidField 0
  else if sub = 1 ∧ keeps = false then .fail stInvalidField 13
  else
    let held := s.portsIn quads
    match s.configureRefusal quads held with
    | some st => .fail st 0
    | none =>
      let was := quads.map fun x => (s.portsOfQuad x).map fun y => (s.port y).pcie
      let gone := held.filter fun y => !(keeps && decide (y = other))
      let s1 := gone.foldl State.removePort s
      let s2 := s1.modPort p fun _ =>
        { configured := true, pcie := pcie, width := w, maxRate := rate, upstream := upstream, clocking := clocking, autoUp := autoUp }
      let s3 := (quads.zip was).foldl (fun t e => t.cycleQuad e.1 (e.2 ≠ [] && e.2.any (· != pcie))) s2
      let s4 := if gone.contains p then s3 else s3.partnerChange p id
      .done (s4.autoUp [p]) []

/-- R77, R86: PORT_CONFIGURE (Table 2.17). SUBPORT must be 0 unless MODE is PCIe, as R86 says without exception (DEDUCED, log entry 39). -/
def execPortConfigure (mb : Mb) (s : State) : Out :=
  .next (runCmd { opcode := 0x0200, priv := true, len := fun _ => 4,
                  fields := [(0, 8), (8, 2), (10, 3), (13, 1), (14, 3), (17, 1), (18, 2), (20, 1)],
                  checks := fun pl =>
                    let mode := fld pl 8 2
                    let w := fld pl 10 3
                    [(0, decide (fld pl 0 8 < 128)), (8, decide (mode ≠ 3)),
                     (10, decide (w ≤ 4) && !(decide (mode = 0) && decide (w < 2)) && !(decide (mode = 2) && decide (w ≠ 0))),
                     (13, !(bitOf pl 13) || (decide (mode = 1) && decide (w ≤ 1))), (14, decide (fld pl 14 3 ≤ 5) && (decide (mode = 1) || decide (fld pl 14 3 = 0))),
                     (17, decide (mode = 1) || !bitOf pl 17), (18, decide (fld pl 18 2 ≠ 3) && (decide (mode = 1) || decide (fld pl 18 2 = 0))),
                     (20, !(decide (mode = 2) && bitOf pl 20))] }
    (fun s pl _ =>
      if fld pl 8 2 = 2 then s.unconfigure (fld pl 0 8) 0
      else s.configure (fld pl 0 8) (fld pl 13 1) (widthOfCode (fld pl 10 3)) (decide (fld pl 8 2 = 1)) (fbv pl 14 3) (bitOf pl 17) (fbv pl 18 2) (bitOf pl 20))
    mb.val s)

/-! ### PORT_ADMIN and queries -/

/-- A quad of the port is in Quad Off, or its Ring is off. -/
def State.portOff (s : State) (p : Nat) : Bool :=
  (s.quadsOf p).any fun q => !(Tab.get false s.power.quadOn q) || s.ringIsOff (ringOf q)

/-- PORT_ADMIN DOWN (R66): the port enters DISABLED; its generators and checkers stop. -/
def State.adminDown (s : State) (p : Nat) : State :=
  if (s.port p).stage = .disabled then s
  else (s.disable p rsAdmin).modLanes p fun l => { l with genEn := false, chkEn := false, prbsSync := false }

/-- PORT_ADMIN FULL_RETRAIN: a port past DETECT starts again from there, and a PCIe-mode port from link training. -/
def State.fullRetrain (s : State) (p : Nat) : State :=
  let again (g : Stage) : State := (s.goDown p g rsAdmin 0).modPort p fun x => { x with partials := 0, retrain := false, clockLost := false, waking := false }
  match (s.port p).stage with
  | .disabled => s
  | .test => s
  | .loopback => s
  | .detect => s
  | .pcieTraining => s
  | .pcieL0 => again .pcieTraining
  | .pcieL1 => again .pcieTraining
  | _ => again .detect

/-- PORT_ADMIN UP (R61, R65): the count of failures starts again; a port in DISABLED starts. -/
def State.adminUp (s : State) (p : Nat) : State :=
  (s.modPort p fun x => { x with failCount := 0, firstFail := true, waiting := false }).bringUp p

/-- PORT_ADMIN RETRAIN: to LOCK for a native port; a PCI Express link retrain leaves L1 and keeps the link up. -/
def State.adminRetrain (s : State) (p : Nat) : State :=
  match (s.port p).stage with
  | .active => s.retrain p rsAdmin
  | .exchange => s.retrain p rsAdmin
  | .pcieL1 => s.setStage p .pcieL0
  | _ => s

/-- R66: PORT_ADMIN (Table 2.18, R424, R446). -/
def execPortAdmin (mb : Mb) (s : State) : Out :=
  .next (runCmd { opcode := 0x0201, priv := true, len := fun _ => 2, fields := [(0, 8), (8, 1), (9, 2)] }
    (fun s pl _ => s.onPort mb.val (fld pl 0 8) (fld pl 8 1) 0 fun p =>
      if fld pl 9 2 = 1 then .done (s.adminDown p) []
      else if s.portHeld s.fenced p || s.portOff p then .fail stBadState 0
      else if s.portHeld s.underTest p then .fail stBusy 0
      else if s.portHeld s.marked p then .fail stUnusable 0
      else
        match fld pl 9 2 with
        | 0 => .done (s.adminUp p) []
        | 2 => .done (s.adminRetrain p) []
        | _ => .done (s.fullRetrain p) []) mb.val s)

/-- R85: PORT_QUERY (Table 2.18). MODE_WIDTH holds the WIDTH code in [6:4] and 1 in [7] for PCIe (log entry 40). -/
def execPortQuery (mb : Mb) (s : State) : Out :=
  .next (runCmd { opcode := 0x0202, priv := false, query := true, len := fun _ => 2, fields := [(0, 8), (8, 1)] }
    (fun s pl _ => s.onPort mb.val (fld pl 0 8) (fld pl 8 1) 0 fun p =>
      let x := s.port p
      .done s (bytesOf 5 (packBits [(x.stage.code, 4), (codeOfWidth x.width, 3), (b2n x.pcie, 1), (x.rate.toNat, 3), (0, 3), (x.failCount, 8),
        (x.lastFail.toNat, 8), (x.ltssm.toNat, 6)]))) mb.val s)

/-! ### Lanes -/

/-- A lane that a mailbox may name: one of a port that its partition owns (R85). -/
def State.onLane (s : State) (n ln : Nat) (k : CmdResult) : CmdResult :=
  if privilegedMb n then k
  else match s.portOfLane ln with
    | some p => if s.mayName n (s.portOwner p) then k else .fail stNotPermitted 0
    | none => .fail stNotPermitted 0

/-- R85: LANE_STATUS (Table 2.18): taps of a byte each; phase, deskew and signal-to-noise of 8 bytes; a flag; LIP (log entry 40). -/
def execLaneStatus (mb : Mb) (s : State) : Out :=
  .next (runCmd { opcode := 0x0203, priv := false, query := true, len := fun _ => 2, fields := [(0, 9)] }
    (fun s pl _ => s.onLane mb.val (fld pl 0 9) (
      let l := s.lane (fld pl 0 9)
      .done s (packVals ((l.taps.map fun v => (signedNat 1 v, 1)) ++
        [(signedNat 8 l.phase, 8), (l.deskew, 8), (l.snr, 8), (b2n l.inverted, 1), (l.lip.toNat, 1)])))) mb.val s)

/-- The lane belongs to a PCIe-mode port. -/
def State.pcieLane (s : State) (ln : Nat) : Bool := (s.portsOfQuad (ln / 4)).any fun p => (s.port p).pcie

/-- R69: LANE_FIR_SET. -/
def execLaneFirSet (mb : Mb) (s : State) : Out :=
  .next (runCmd { opcode := 0x0204, priv := true, len := fun _ => 8, fields := [(0, 9), (9, 1), (16, 48)],
                  checks := fun pl => (List.range 6).map fun k =>
                    (16 + 8 * k, !(bitOf pl 9) || (decide ((tapRange k).1 ≤ fldSigned pl (16 + 8 * k) 8) && decide (fldSigned pl (16 + 8 * k) 8 ≤ (tapRange k).2))) }
    (fun s pl _ =>
      let taps := (List.range 6).map fun k => fldSigned pl (16 + 8 * k) 8
      if s.pcieLane (fld pl 0 9) then .fail stInvalidField 0
      else .done (s.modLane (fld pl 0 9) fun l => { l with fixed := if bitOf pl 9 then some taps else none }) []) mb.val s)

/-- The refusals of LANE_PRBS and LANE_LOOPBACK for a port that is held (R424, R442, R446, Table 15.2). -/
def State.diagRefusal (s : State) (p : Nat) : Option Nat :=
  if s.portHeld s.fenced p || s.portOff p then some stBadState
  else if s.portHeld s.underTest p then some stBusy
  else if s.portHeld s.marked p then some stUnusable
  else none

/-- R78, R87: LANE_PRBS. A lane that no port uses is powered down or in Quad Off. -/
def execLanePrbs (mb : Mb) (s : State) : Out :=
  .next (runCmd { opcode := 0x0205, priv := true, len := fun _ => 2, fields := [(0, 9), (9, 1), (10, 2), (12, 1), (13, 1), (14, 1)],
                  checks := fun pl => [(10, decide (fld pl 10 2 ≠ 3))] }
    (fun s pl _ =>
      let ln := fld pl 0 9
      match s.portOfLane ln with
      | none => .fail stBadState 0
      | some p =>
        let on := decide (fld pl 10 2 ≠ 0) && (bitOf pl 12 || bitOf pl 13)
        let diag := decide ((s.port p).stage = .test) || decide ((s.port p).stage = .loopback)
        let set (l : Lane) : Lane :=
          { l with prbs := fbv pl 10 2, genEn := on && bitOf pl 12, chkEn := on && bitOf pl 13, precode := bitOf pl 14, prbsSync := false,
                   prbsRun := 0, prbsHist := [] }
        let t := if bitOf pl 9 then s.modLanes p set else s.modLane ln set
        if (s.port p).pcie && bitOf pl 14 then .fail stInvalidField 14
        else if on then
          match s.diagRefusal p with
          | some st => .fail st 0
          | none => .done (t.diagStage p) []
        else if diag then .done (t.diagStage p) []
        else .done s []) mb.val s)

/-- R82, R87: LANE_LOOPBACK. Far-end loopback needs a native port and PCIe lead a PCIe-mode port. -/
def execLaneLoopback (mb : Mb) (s : State) : Out :=
  .next (runCmd { opcode := 0x0206, priv := true, len := fun _ => 2, fields := [(0, 8), (8, 1), (9, 3)],
                  checks := fun pl => [(9, decide (fld pl 9 3 ≤ 4))] }
    (fun s pl _ => s.onPort mb.val (fld pl 0 8) (fld pl 8 1) 0 fun p =>
      let ty := fld pl 9 3
      let t := s.modPort p fun x => { x with loopback := BitVec.ofNat 3 ty }
      if (ty = 3 ∧ (s.port p).pcie) ∨ (ty = 4 ∧ (s.port p).pcie = false) then .fail stInvalidField 9
      else if ty = 0 then
        (if (s.port p).stage = .loopback then .done (t.diagStage p) [] else .done s [])
      else
        match s.diagRefusal p with
        | some st => .fail st 0
        | none => .done (t.diagStage p) []) mb.val s)

/-- R80: LANE_COUNTERS_READ. -/
def execLaneCountersRead (mb : Mb) (s : State) : Out :=
  .next (runCmd { opcode := 0x0207, priv := false, query := true, len := fun _ => 2, fields := [(0, 9), (9, 1)] }
    (fun s pl _ => s.onLane mb.val (fld pl 0 9) (
      let l := s.lane (fld pl 0 9)
      .done (if bitOf pl 9 then s.modLane (fld pl 0 9) fun l => { l with symErr := 0, bitErr := 0, cwCorr := 0, cwUncorr := 0 } else s)
        (packCounters [l.symErr, l.bitErr, l.cwCorr, l.cwUncorr]))) mb.val s)

/-- R81: LANE_ALARM_SET. -/
def execLaneAlarmSet (mb : Mb) (s : State) : Out :=
  .next (runCmd { opcode := 0x0208, priv := true, len := fun _ => 8, fields := [(0, 9), (9, 1), (32, 32)] }
    (fun s pl _ =>
      let set (l : Lane) : Lane := { l with threshold := fld pl 32 32 }
      .done (if bitOf pl 9 then s.each (List.range 512) fun t n => t.modLane n set else s.modLane (fld pl 0 9) set) []) mb.val s)

/-! ### Events of a port -/

/-- An event of a configured port while the core die runs. -/
def State.portEvent (s : State) (p : Nat) (ok : Port → Bool) (f : State → State) : Out :=
  .next (if s.running && (s.port p).configured && ok (s.port p) then f s else s)

/-- An event of a lane of a native port in a stage that `ok` picks. -/
def State.laneEvent (s : State) (ln : Nat) (ok : Stage → Bool) (f : Nat → State → State) : Out :=
  match s.portOfLane ln with
  | none => .next s
  | some p => s.portEvent p (fun x => !x.pcie && ok x.stage) (f p)

/-- R61: DETECT_ATTEMPT. A port that waits 1 s before each attempt (R65) makes none of those of every 12 ms. -/
def execDetectAttempt (p : PortNo) (found : Detection) (s : State) : Out :=
  s.portEvent p.val (fun x => x.stage == .detect && !x.waiting) fun s => s.detect p.val found

/-- R65: TRAIN_FAIL_WAIT_END: the attempt after the wait of 1 s. -/
def execTrainFailWaitEnd (p : PortNo) (found : Detection) (s : State) : Out :=
  s.portEvent p.val (fun x => x.stage == .detect && x.waiting) fun s => s.detect p.val found

/-- R68: TRAINING_FRAME_RECEIVE. An invalid control word is ignored. -/
def execTrainingFrameReceive (ln : LaneNo) (w : BitVec 128) (s : State) : Out :=
  s.laneEvent ln.val (· == .train) fun p s =>
    if controlOk w.toNat then (s.modLane ln.val fun l => l.control w.toNat).trainDone p else s

/-- R61: FORWARDED_CLOCK_LOCK_TIMEOUT. -/
def execForwardedClockLockTimeout (p : PortNo) (s : State) : Out :=
  s.portEvent p.val (fun x => x.stage == .train) fun s => s.attemptDown p.val 0x03

/-- R61: TRAIN_TIMEOUT. -/
def execTrainTimeout (p : PortNo) (s : State) : Out := s.portEvent p.val (fun x => x.stage == .train) fun s => s.attemptDown p.val 0x02

/-- R62: FEC_LOCK. -/
def execFecLock (ln : LaneNo) (s : State) : Out :=
  s.laneEvent ln.val (fun g => g == .lock) fun _ s => s.modLane ln.val fun l => { l with fecLock := true }

/-- R59, R60: ALIGNMENT_MARKER_RECEIVE. Markers outside LOCK place no lane. -/
def execAlignmentMarkerReceive (ln : LaneNo) (lip : BitVec 4) (arrival : Nat) (s : State) : Out :=
  s.laneEvent ln.val (· == .lock) fun p s =>
    if lip.toNat / 4 ≠ ln.val / 4 - leadOf p then s.attemptDown p 0x07
    else if s.skewOk p ln.val arrival = false then s.attemptDown p 0x06
    else (s.modLane ln.val fun l => { l with lip := lip, marker := some arrival }).deskew p

/-- R61, R63: LOCK_COMPLETE: RETRAIN is 0 on both sides for 16 codewords. -/
def execLockComplete (p : PortNo) (s : State) : Out :=
  s.portEvent p.val (fun x => x.stage == .lock && s.locked p.val) fun s =>
    if (s.port p.val).retrain ∧ (s.port p.val).fromExchange = false then s.returnActive p.val else s.enterExchange p.val

/-- R54: LOCK_TIMEOUT: CLOCK_LANE_LOSS where the clock is lost; else SYMBOL_LOCK_TIMEOUT while no lane has FEC lock, and FEC_LOCK_TIMEOUT (log entry 41). -/
def execLockTimeout (p : PortNo) (s : State) : Out :=
  s.portEvent p.val (fun x => x.stage == .lock) fun s =>
    s.attemptDown p.val (if (s.port p.val).clockLost then 0x0B else if (s.lanesOf p.val).any (fun n => (s.lane n).fecLock) then 0x05 else 0x04)

/-- R62: FEC_LOCK_LOSS: four codewords were uncorrectable. -/
def execFecLockLoss (ln : LaneNo) (s : State) : Out :=
  s.laneEvent ln.val (fun g => g == .lock || g == .exchange || g == .active) fun p s =>
    let s1 := s.modLane ln.val fun l => { l with fecLock := false, cwUncorr := satAdd l.cwUncorr 4 }
    if (s.port p).stage = .lock then s1 else s1.retrain p rsPhy

/-- R58: DESKEW_LOSS. -/
def execDeskewLoss (ln : LaneNo) (s : State) : Out :=
  s.laneEvent ln.val (fun g => g == .exchange || g == .active) fun p s => s.retrain p rsPhy

/-- R54: CLOCK_LANE_LOSS: a retrain from ACTIVE or EXCHANGE, a lost clock in LOCK, and an error of the quad's lane error source. -/
def execClockLaneLoss (q : QuadNo) (s : State) : Out :=
  match s.mainPortOfQuad q.val with
  | none => .next s
  | some p => s.portEvent p (fun x => !x.pcie && (x.stage == .active || x.stage == .exchange || x.stage == .lock)) fun s =>
      let s1 := s.report (laneSource q.val) 0x02 0
      if (s.port p).stage = .lock then s1.modPort p fun x => { x with clockLost := true } else s1.retrain p rsPhy

/-- R61: LOSS_OF_SIGNAL. -/
def execLossOfSignal (ln : LaneNo) (s : State) : Out :=
  s.laneEvent ln.val (fun g => g == .train || g == .lock || g == .exchange) fun p s => s.attemptDown p 0x01

/-- R63: RETRAIN_SIGNAL_RECEIVE. -/
def execRetrainSignalReceive (p : PortNo) (s : State) : Out :=
  s.portEvent p.val (fun x => x.stage == .active) fun s => s.retrain p.val rsPhy

/-- R70, R97: EXCHANGE_RECORD_SEND: a record is due in EXCHANGE, and in ACTIVE until a good block of another type has arrived. -/
def execExchangeRecordSend (p : PortNo) (s : State) : Out :=
  s.portEvent p.val (fun x => x.stage == .exchange || (x.stage == .active && !(s.link p.val).sawOther)) fun s =>
    s.modLink p.val fun l => { l with recordDue := true }

/-- R71: EXCHANGE_BLOCK_RECEIVE. -/
def execExchangeBlockReceive (p : PortNo) (pl : BlockPayload) (s : State) : Out :=
  s.portEvent p.val (fun x => x.stage == .exchange) fun s => s.recordReceived p.val (ExchangeRec.ofPayload pl)

/-- R61: EXCHANGE_TIMEOUT. -/
def execExchangeTimeout (p : PortNo) (s : State) : Out :=
  s.portEvent p.val (fun x => x.stage == .exchange) fun s => s.attemptDown p.val 0x08

/-- R81: SER_ALARM_WINDOW. -/
def execSerAlarmWindow (ln : LaneNo) (s : State) : Out :=
  let l := s.lane ln.val
  let above := decide (l.threshold ≠ 0 ∧ l.threshold < l.window)
  let s1 := s.modLane ln.val fun l => { l with window := 0, alarm := above }
  .next (if s.running = false then s
    else if above && !l.alarm then
      (s1.raise 0x0201 [(ln.val, 2)] (((s.portOfLane ln.val).toList).map s.portOwner)).report (laneSource (ln.val / 4)) 0x01 (BitVec.ofNat 64 ln.val)
    else s1)

/-- R73: FAST_RETRAIN_TIMEOUT. -/
def execFastRetrainTimeout (p : PortNo) (s : State) : Out :=
  s.portEvent p.val (fun x => x.stage == .sleep && x.waking) fun s => s.retrain p.val rsPhy

/-- R73: FAST_RETRAIN_COMPLETE: the link layer goes on with what it kept (R472). -/
def execFastRetrainComplete (p : PortNo) (s : State) : Out :=
  s.portEvent p.val (fun x => x.stage == .sleep && x.waking) fun s =>
    (s.modPort p.val fun x => { x with stage := .active, waking := false }).modLink p.val fun l => { l with timerOn := !l.u.isEmpty }

/-- R78: PRBS_CHECK: the bit errors of each received symbol at a checker that is on. -/
def execPrbsCheck (ln : LaneNo) (errs : List Nat) (s : State) : Out :=
  require (errs.all fun n => decide (n ≤ 2))
    (.next (if s.running && (s.lane ln.val).chkEn then (s.modLane ln.val fun l => errs.foldl Lane.prbsSymbol l).pmon (ln.val / 4) 0x043 (ln.val % 4)
      (errs.foldl (fun (a : Lane × Nat) n => (a.1.prbsSymbol n, if a.1.prbsSync then a.2 + n else a.2)) (s.lane ln.val, 0)).2 else s))

/-- R76: PCIE_LINK_DOWN: link training fails with reason PCIE_TRAINING, or the data link layer reports link down. -/
def execPcieLinkDown (p : PortNo) (training : Bool) (ltssm : BitVec 6) (s : State) : Out :=
  s.portEvent p.val (fun x => x.pcie && (x.stage == .pcieTraining || x.stage == .pcieL0 || x.stage == .pcieL1)) fun s =>
    let s1 := s.modPort p.val fun x => { x with ltssm := ltssm, hotReset := false, lastFail := if training then 0x0C else x.lastFail }
    s1.goDown p.val .pcieTraining rsPhy (if training then 0x0C else 0)

/-- A PCIe-mode port enters L0: its partner is a host or a device, and the cell-store shares that wait come into force (R76, R178). -/
def State.pcieUp (s : State) (p : Nat) (width : BitVec 5) (rate : BitVec 3) (ltssm : BitVec 6) (host : Bool) : State :=
  let s1 := s.modPort p fun x => { x with stage := .pcieL0, reached := true, ltssm := ltssm, rate := rate, failCount := 0, hotReset := false }
  let s2 := s1.modPartner p fun x =>
    { x with kind := if host then 4 else 3, geid := 0xFFFFF, port := 0, width := width, rate := rate, uid := 0 }
  let s3 := match Tab.get none s2.car.pcieSharePending p with
    | some e => s2.modCar fun c => { c with pcieShare := Tab.put (0, 0) c.pcieShare p e, pcieSharePending := Tab.put none c.pcieSharePending p none }
    | none => s2
  s3.raise 0x0300 [(p, 1), ((s3.link p).inc.toNat, 1), (width.toNat, 1), (0, 1)] [s3.portOwner p]

/-- R76: PCIE_LINK_UP. A port whose store still holds cells from before a link down does not begin link training (R177). -/
def execPcieLinkUp (p : PortNo) (width : BitVec 5) (rate : BitVec 3) (ltssm : BitVec 6) (host : Bool) (s : State) : Out :=
  require (decide (width.toNat ∈ [1, 2, 4, 8, 16] ∧ rate.toNat ≤ 5))
    (s.portEvent p.val (fun x => x.pcie && x.stage == .pcieTraining && decide (s.storeCells p.val = 0)) fun s =>
      ((s.partnerChange p.val fun s => s.pcieUp p.val width rate ltssm host).resetWoken p.val).checkLapses)

end Sys2Proof.Machine
end

