-- ==== Sys2Proof/Machine/Link.lean ====
section
/-!
DEFINITION. Meanings of the Pyroako link layer (chapter 3).
-/

namespace Sys2Proof.Machine

/-! ### Group 0x03 commands (R127) -/

/-- R106, R127: LINK_CONFIG (Table 3.15). A non-zero REPLAY_TIMER, REPLAY_LIMIT or LEAK_THRESH of a PCIe-mode port is refused. -/
def execLinkConfig (mb : Mb) (s : State) : Out :=
  .next (runCmd { opcode := 0x0300, priv := true, len := fun _ => 8, fields := [(0, 8), (8, 1), (16, 8), (24, 4), (28, 6), (48, 16)],
                  checks := fun pl =>
                    [(16, decide (fld pl 16 8 = 0 ∨ 4 ≤ fld pl 16 8)), (28, decide (fld pl 28 6 ≤ 32)), (48, decide (fld pl 48 16 ≤ 60000))] }
    (fun s pl _ => s.onPort mb.val (fld pl 0 8) (fld pl 8 1) 0 fun p =>
      let pick (lo w old : Nat) : Nat := if fld pl lo w = 0 then old else fld pl lo w
      if (s.port p).pcie && decide (fld pl 16 18 ≠ 0) then
        .fail stInvalidField (if fld pl 16 8 ≠ 0 then 16 else if fld pl 24 4 ≠ 0 then 24 else 28)
      else .done (s.modLink p fun l =>
        { l with replayTimer := pick 16 8 l.replayTimer, replayLimit := pick 24 4 l.replayLimit, leakThresh := pick 28 6 l.leakThresh
                 npExpiry := pick 48 16 l.npExpiry }) []) mb.val s)

/-- R113, R127: LINK_CREDIT_SET (Table 3.16): the pools of the next EXCHANGE. -/
def execLinkCreditSet (mb : Mb) (s : State) : Out :=
  .next (runCmd { opcode := 0x0301, priv := true, len := fun _ => 17, fields := [(0, 8), (8, 128)] }
    (fun s pl _ => s.onNative mb.val (fld pl 0 8) 0 fun p =>
      let pools := (List.range 8).map fun v => fld pl (8 + 16 * v) 16
      if 4096 * (s.port p).quads < pools.sum then .fail stInvalidField 8
      else if nth 0 pools 6 < 18 then .fail stInvalidField 104
      else if nth 0 pools 7 < 18 then .fail stInvalidField 120
      else .done (s.modLink p fun l => { l with poolSet := some pools }) []) mb.val s)

/-- The state of LINK_QUERY (Table 3.16): 0 down, 1 EXCHANGE, 2 ACTIVE, 3 retrain, 4 awaiting SYNC. A port in Quad Sleep, whose link is not down (R472), and a PCIe-mode port with its link up read 2 (log entry 43). -/
def State.linkState (s : State) (p : Nat) : Nat :=
  match (s.port p).stage with
  | .exchange => 1
  | .active => if (s.link p).awaitSync then 4 else 2
  | .lock => if (s.port p).retrain then 3 else 0
  | .sleep => 2
  | .pcieL0 => 2
  | .pcieL1 => 2
  | _ => 0

/-- R127: LINK_QUERY (Table 3.16). -/
def execLinkQuery (mb : Mb) (s : State) : Out :=
  .next (runCmd { opcode := 0x0302, priv := false, query := true, len := fun _ => 2, fields := [(0, 8), (8, 1)] }
    (fun s pl _ => s.onPort mb.val (fld pl 0 8) (fld pl 8 1) 0 fun p =>
      let l := s.link p
      let n := b2n !(s.port p).pcie
      let vc (v : Nat) : List (Nat × Nat) :=
        [(n * b2n (l.inUse v), 1), (n * nth 0 l.pool v, 2), (n * nth 0 l.partnerPool v, 2), (n * nth 0 l.credits v, 8)]
      let c := l.counters
      .done s (packVals ([(l.inc.toNat, 1), (s.linkState p, 1), (n * l.w, 2), (n * l.high.toNat, 2), (n * l.e.toNat, 2), (n * l.u.length, 8),
        (l.outReqs.length, 8)] ++ (List.range 8).flatMap vc ++
        (if (s.port p).pcie then [(c.postedDrop, 8), (c.cplDrop, 8), (c.rxPartialDrop, 8)] else [])))) mb.val s)

/-- The counters of Table 3.11 in table order. -/
def LinkCounters.list (c : LinkCounters) : List Nat :=
  [c.txData, c.txReplayNak, c.txReplayTimer, c.rxData, c.rxBad, c.rxDup, c.rxOow, c.rxRsvType, c.nakTx, c.nakRx, c.ackInvalid, c.framingErr,
   c.creditOverflow, c.creditLeakMax, c.retrainReplay, c.retrainLeak, c.retrainSync, c.retrainOther, c.linkDown, c.postedDrop, c.cplDrop,
   c.npLinkDown, c.rxPartialDrop, c.staleDrop, c.npExpired]

/-- R125: LINK_COUNTERS_READ. -/
def execLinkCountersRead (mb : Mb) (s : State) : Out :=
  .next (runCmd { opcode := 0x0303, priv := false, query := true, len := fun _ => 2, fields := [(0, 8), (8, 1), (9, 1)] }
    (fun s pl _ => s.onPort mb.val (fld pl 0 8) (fld pl 8 1) 0 fun p =>
      .done (if bitOf pl 9 then s.countLink p fun _ => {} else s) (packCounters (s.link p).counters.list)) mb.val s)

/-- R127: LINK_ERROR_INJECT (Table 3.16). -/
def execLinkErrorInject (mb : Mb) (s : State) : Out :=
  .next (runCmd { opcode := 0x0304, priv := true, len := fun _ => 3, fields := [(0, 8), (8, 3), (16, 8)],
                  checks := fun pl => [(8, decide (fld pl 8 3 ≤ 3)), (16, decide (fld pl 16 8 ≠ 0))] }
    (fun s pl _ => s.onPort mb.val (fld pl 0 8) 0 0 fun p =>
      if (s.port p).stage ≠ .active then .fail stBadState 0
      else .done (s.modLink p fun l => { l with inject := modAt l.inject (fld pl 8 3) (· + fld pl 16 8) }) []) mb.val s)

/-! ### Link-up and blocks sent -/

/-- R123: LINK_UP_HOLDOFF_END. -/
def execLinkUpHoldoffEnd (p : PortNo) (s : State) : Out :=
  s.portEvent p.val (fun _ => true) fun s => (s.modPort p.val fun x => { x with holdOff := false }).tryActive p.val

/-- R97: FIRST_BLOCK_TIMEOUT. -/
def execFirstBlockTimeout (p : PortNo) (s : State) : Out :=
  s.portEvent p.val (fun x => x.stage == .active && !(s.link p.val).sawOther) fun s => s.goDown p.val .detect rsProtocol 0

/-- R110: TRANSMIT_BLOCK_SLOT. -/
def execTransmitBlockSlot (p : PortNo) (s : State) : Out :=
  s.portEvent p.val (fun x => x.stage == .exchange || x.stage == .active) fun s => s.slot p.val

/-- R117: SYNC_SEND: a SYNC is due every 1 µs until SYNC_SEEN has been received. -/
def execSyncSend (p : PortNo) (s : State) : Out :=
  s.portEvent p.val (fun x => x.stage == .active) fun s => s.modLink p.val fun l => { l with syncDue := l.syncDue || l.syncing }

/-- R112: CREDIT_RETURN_DUE: a return has been pending for 100 ns. -/
def execCreditReturnDue (p : PortNo) (s : State) : Out :=
  s.portEvent p.val (fun x => x.stage == .active) fun s => s.modLink p.val fun l => { l with creditDue := l.creditDue || !l.pendOrder.isEmpty }

/-! ### Blocks received -/

/-- R101: DATA_BLOCK_RECEIVE. -/
def execDataBlockReceive (p : PortNo) (h : BitVec 64) (pl : BlockPayload) (s : State) : Out :=
  require (decide (h.toNat % 16 = btData)) <|
    s.portEvent p.val (fun x => x.stage == .active) fun s =>
      s.goodBlock p.val h true fun s => s.dataIn p.val ⟨bhSeq h, bhVc h, bhFirst h, bhLast h, pl⟩

/-- R90: BAD_BLOCK_RECEIVE: discarded whole, counted and reported. -/
def execBadBlockReceive (p : PortNo) (s : State) : Out :=
  s.portEvent p.val (fun x => x.stage == .exchange || x.stage == .active) fun s =>
    ((s.countLink p.val fun c => { c with rxBad := inc48 c.rxBad }).pmon (leadOf p.val) 0x065 0 1).linkError p.val 0x01 0 0

/-- R104: IDLE_BLOCK_RECEIVE. -/
def execIdleBlockReceive (p : PortNo) (h : BitVec 64) (s : State) : Out :=
  require (decide (h.toNat % 16 = btIdle)) <|
    s.portEvent p.val (fun x => x.stage == .active) fun s => s.goodBlock p.val h false id

/-- R105: NAK_BLOCK_RECEIVE. -/
def execNakBlockReceive (p : PortNo) (h : BitVec 64) (pl : BlockPayload) (s : State) : Out :=
  require (decide (h.toNat % 16 = btNak)) <|
    s.portEvent p.val (fun x => x.stage == .active) fun s => s.goodBlock p.val h false fun s => s.nakIn p.val pl

/-- R114, R117: CREDIT_BLOCK_RECEIVE. -/
def execCreditBlockReceive (p : PortNo) (h : BitVec 64) (pl : BlockPayload) (s : State) : Out :=
  require (decide (h.toNat % 16 = btCredit)) <|
    s.portEvent p.val (fun x => x.stage == .active) fun s => s.goodBlock p.val h false fun s => s.creditBlockIn p.val pl

/-- R471: POWER_BLOCK_RECEIVE. A block with a reserved OP is ignored but for its header. -/
def execPowerBlockReceive (p : PortNo) (h : BitVec 64) (pl : BlockPayload) (s : State) : Out :=
  require (decide (h.toNat % 16 = btPower)) <|
    s.portEvent p.val (fun x => x.stage == .active) fun s => s.goodBlock p.val h false fun s => s.powerOp p.val (fld pl.toNat 0 8)

/-- R91: RESERVED_TYPE_BLOCK_RECEIVE: discarded and counted, and no header field is used. -/
def execReservedTypeBlockReceive (p : PortNo) (h : BitVec 64) (s : State) : Out :=
  require (decide (6 ≤ h.toNat % 16)) <|
    s.portEvent p.val (fun x => x.stage == .exchange || x.stage == .active) fun s => s.countLink p.val fun c => { c with rxRsvType := inc48 c.rxRsvType }

/-! ### Timers -/

/-- R106: REPLAY_TIMER_EXPIRY. -/
def execReplayTimerExpiry (p : PortNo) (s : State) : Out :=
  s.portEvent p.val (fun x => x.stage == .active && (s.link p.val).timerOn) fun s =>
    match (s.link p.val).u with
    | [] => s
    | b :: _ => (s.pmon (leadOf p.val) 0x069 0 1).requeue p.val b.seq .timer

/-- R117: SYNC_TIMEOUT: a second consecutive one is a link down. -/
def execSyncTimeout (p : PortNo) (s : State) : Out :=
  s.portEvent p.val (fun x => x.stage == .active && (s.link p.val).awaitSync) fun s =>
    if (s.link p.val).syncTimeouts = 0 then (s.modLink p.val fun l => { l with syncTimeouts := 1 }).retrain p.val rsSyncTimeout
    else s.goDown p.val .detect rsSyncTimeout 0

/-- R121: NP_EXPIRY: the oldest entry of the requester and tag is removed and counted; a request of an instance counted for that long is no longer outstanding (R260). -/
def execNpExpiry (p : PortNo) (req : Geid) (tag : BitVec 12) (s : State) : Out :=
  s.portEvent p.val (fun _ => true) fun s =>
    let s1 := s.instFall p.val req tag
    match (s.link p.val).outReqs.find? fun o => decide (o.requester = req ∧ o.tag = tag) with
    | none => s1
    | some o => (s1.modLink p.val fun l => { l with outReqs := l.outReqs.erase o }).countLink p.val fun c => { c with npExpired := inc48 c.npExpired }

end Sys2Proof.Machine
end

