-- ==== Sys2Proof/Machine/Patchwork.lean ====
section
/-!
DEFINITION. Meanings of the Patchwork bridge and the side-band wires (chapter 9).
-/

namespace Sys2Proof.Machine

/-! ### Group 0x09 commands -/

/-- A Patchwork port that a mailbox may name (R339). -/
def State.onPw (s : State) (n : Nat) (b : Bool) (k : PwPort → CmdResult) : CmdResult :=
  if s.mayName n (s.pwOwner (pwOf b)) then k (pwOf b) else .fail stNotPermitted 0

/-- The first failing check of a list of (lowest bit, it holds). -/
def firstBad (l : List (Nat × Bool)) : Option Nat := leastBy id ((l.filter fun e => !e.2).map Prod.fst)

/-- A personality by its code. -/
def personalityOf : Nat → Personality
  | 1 => .vme
  | 2 => .pci
  | _ => .disabled

/-- R306: PW_CONFIG. -/
def execPwConfig (mb : Mb) (s : State) : Out :=
  .next (runCmd { opcode := 0x0900, priv := true, len := fun _ => 8,
                  fields := [(0, 1), (1, 2), (3, 1), (4, 1), (5, 1), (6, 1), (7, 2), (9, 1), (10, 2), (12, 1), (13, 3), (16, 10), (26, 7), (33, 8), (41, 8)],
                  checks := fun pl =>
                    let pe := fld pl 1 2
                    [(1, decide (pe ≠ 3)), (3, !(bitOf pl 3 && decide (pe = 2))), (4, !(bitOf pl 4 && decide (pe = 1))), (10, decide (fld pl 10 2 ≠ 3)),
                     (12, !(decide (pe = 2) && !bitOf pl 12)), (16, decide (fld pl 16 10 = 0 ∨ (2 ≤ fld pl 16 10 ∧ fld pl 16 10 ≤ 512)))] }
    (fun s pl _ =>
      let x := pwOf (bitOf pl 0)
      let p := s.pw x
      let pe := personalityOf (fld pl 1 2)
      if s.fenced (pwUnit x) then .fail stBadState 0
      else if s.underTest (pwUnit x) then .fail stBusy 0
      else if p.personality ≠ .disabled ∧ pe ≠ .disabled ∧ (pe ≠ p.personality ∨ bitOf pl 3 ≠ p.syscon ∨ bitOf pl 4 ≠ p.hostBridge) then .fail stBadState 0
      else if pe ≠ .disabled ∧ p.personality = .disabled ∧ s.marked (pwUnit x) then .fail stUnusable 0
      else if pe ≠ .disabled ∧ p.vddHb = false then .fail stBadState 0
      else
        let s1 := if p.personality ≠ .disabled ∧ pe = .disabled then s.pwEndWork x false else s
        .done (s1.modPw x fun p =>
          { p with
            personality := pe, syscon := bitOf pl 3, hostBridge := bitOf pl 4, bus64 := bitOf pl 5, m66 := bitOf pl 6, brLevel := fbv pl 7 2,
            ror := bitOf pl 9, arbMode := fbv pl 10 2, yieldOn := bitOf pl 12, yieldTime := fbv pl 13 3,
            busTimer := if fld pl 16 10 = 0 then p.busTimer else fld pl 16 10, reqEn := fbv pl 26 7, secBus := fbv pl 33 8,
            prefetchHold := if fld pl 41 8 = 0 then p.prefetchHold else fld pl 41 8,
            driving := if pe = .disabled then false else p.driving }) []) mb.val s)

/-- R308: PW_HOME_SET. -/
def execPwHomeSet (mb : Mb) (s : State) : Out :=
  .next (runCmd { opcode := 0x0901, priv := true, len := fun _ => 1, fields := [(0, 1), (1, 7)] }
    (fun s pl _ =>
      let q := fld pl 1 7
      if s.puHome q then .done (s.modMgmt fun m => if bitOf pl 0 then { m with homeB := q } else { m with homeA := q }) []
      else .fail stBadState 0) mb.val s)

/-- The window that a PW_WINDOW_SET payload spells (Table 9.8). -/
def PwWindow.ofPayload (pl : Nat) : PwWindow :=
  { valid := bitOf pl 7, dirIn := bitOf pl 8, space := fbv pl 9 2, priv := bitOf pl 11, width := fbv pl 12 2, block := fbv pl 14 2,
    lanes := fbv pl 16 2, sef := bitOf pl 18, prefetch := fbv pl 19 4, tunnel := bitOf pl 23, cls := fbv pl 24 3, bar := fbv pl 29 3,
    sizeLog2 := fbv pl 32 6, base := fbv pl 64 64, xlate := fbv pl 128 64, target := fbv pl 192 20, inst := fbv pl 212 12 }

/-- The 32 bytes of a window in the form of Table 9.8. -/
def PwWindow.bytes (w : PwWindow) (portB : Bool) (n : Nat) : List Byte :=
  bytesOf 32 (packBits [(b2n portB, 1), (n, 6), (b2n w.valid, 1), (b2n w.dirIn, 1), (w.space.toNat, 2), (b2n w.priv, 1), (w.width.toNat, 2),
    (w.block.toNat, 2), (w.lanes.toNat, 2), (b2n w.sef, 1), (w.prefetch.toNat, 4), (b2n w.tunnel, 1), (w.cls.toNat, 3), (0, 2), (w.bar.toNat, 3),
    (w.sizeLog2.toNat, 6), (0, 26), (w.base.toNat, 64), (w.xlate.toNat, 64), (w.target.toNat, 20), (w.inst.toNat, 12), (0, 32)])

/-- The bits of the bus address space of a window (R314); 64 where the port is DISABLED and its personality is not known. -/
def spaceBits (p : Personality) (space : BitVec 2) : Nat :=
  match p, space.toNat with
  | .vme, 0 => 16
  | .vme, 1 => 24
  | .vme, _ => 32
  | .pci, 1 => 32
  | _, _ => 64

/-- The checks of R314, R326 and R340 on a window. -/
def Patchwork.windowChecks (p : Patchwork) (n : Nat) (w : PwWindow) : List (Nat × Bool) :=
  let pe := p.personality
  let bus := if w.dirIn then w.base.toNat else w.xlate.toNat
  let device := decide (pe = .pci) && !p.hostBridge
  [(9, decide (w.space ≠ 3) && !(decide (pe = .pci ∧ w.space = 2) && !(p.hostBridge && !w.dirIn))),
   (11, !(decide (pe = .pci) && w.priv)),
   (12, decide (w.width ≠ 3) || (match pe with | .vme => decide (w.block = 2) | .pci => p.bus64 | .disabled => true)),
   (14, decide (w.block ≠ 3) && !(decide (pe = .pci ∧ w.block = 2))),
   (19, decide (w.prefetch.toNat ≤ 8) && (decide (w.prefetch = 0) || (w.sef && decide (20 ≤ w.sizeLog2.toNat)))),
   (29, decide (w.bar = 0) || (decide (w.bar ≠ 7) && device && w.dirIn &&
     !(p.windows.any fun e => decide (e.1 ≠ n) && e.2.valid && e.2.dirIn && decide (e.2.bar = w.bar)))),
   (32, decide (8 ≤ w.sizeLog2.toNat)),
   (64, decide (w.base.toNat % w.size = 0 ∧ w.base.toNat + w.size ≤ 2 ^ 64) && (!w.dirIn || decide (bus + w.size ≤ 2 ^ spaceBits pe w.space))),
   (128, w.dirIn || decide (bus + w.size ≤ 2 ^ spaceBits pe w.space))]

/-- R314: PW_WINDOW_SET. The checks of R340 hold whatever VALID says. -/
def execPwWindowSet (mb : Mb) (s : State) : Out :=
  .next (runCmd { opcode := 0x0902, priv := true, len := fun _ => 32,
                  fields := [(0, 27), (29, 9), (64, 64), (128, 64), (192, 20), (212, 12)] }
    (fun s pl _ =>
      let x := pwOf (bitOf pl 0)
      let n := fld pl 1 6
      let w := PwWindow.ofPayload pl
      match firstBad ((s.pw x).windowChecks n w) with
      | some b => .fail stInvalidField b
      | none => .done (((s.closeWrite x).dropPrefetch x fun b => decide (b.window = n)).modPw x fun p => { p with windows := Tab.put {} p.windows n w }) [])
    mb.val s)

/-- R339: PW_WINDOW_READ. -/
def execPwWindowRead (mb : Mb) (s : State) : Out :=
  .next (runCmd { opcode := 0x0903, priv := false, query := true, len := fun _ => 2, fields := [(0, 1), (1, 6), (7, 7)],
                  checks := fun pl => [(7, decide (1 ≤ fld pl 7 7 ∧ fld pl 1 6 + fld pl 7 7 ≤ 64))] }
    (fun s pl _ => s.onPw mb.val (bitOf pl 0) fun x =>
      .done s ((List.range (fld pl 7 7)).flatMap fun i => ((s.pw x).window (fld pl 1 6 + i)).bytes (bitOf pl 0) (fld pl 1 6 + i))) mb.val s)

/-- R306: PW_QUERY: personality, role (1 system controller or host bridge), VDD_HB level (0 absent, 1 3.3 V, 2 5 V), bus state (0 idle, 1 cycle running, 2 waiting for the bus, 3 reset driven), entries in use, cells in the cycle store and in the inbound buffer (log entry 34). -/
def execPwQuery (mb : Mb) (s : State) : Out :=
  .next (runCmd { opcode := 0x0904, priv := false, query := true, len := fun _ => 1, fields := [(0, 1)] }
    (fun s pl _ => s.onPw mb.val (bitOf pl 0) fun x =>
      let p := s.pw x
      let busState := if p.driving then 3 else if p.sequence.isSome then 1 else if p.store.isEmpty then 0 else 2
      .done s (packVals [((match p.personality with | .disabled => 0 | .vme => 1 | .pci => 2), 1), (b2n (p.syscon || p.hostBridge), 1),
        ((if p.vddHb then (if p.fiveVolt then 2 else 1) else 0), 1), (busState, 1),
        (p.outEntries.length + (p.entries.filter fun e => e.2.isSome).length, 8), ((p.store.map fun r => r.frame.blocks).sum, 8), (s.inboundCells x, 8)]))
    mb.val s)

/-- R336: SIDEBAND_SET. -/
def execSidebandSet (mb : Mb) (s : State) : Out :=
  .next (runCmd { opcode := 0x0905, priv := true, len := fun _ => 2, fields := [(0, 6), (6, 1), (7, 1), (8, 6), (14, 1), (15, 1)] }
    (fun s pl _ =>
      let pin := fld pl 8 6
      let w : SbWire := { enable := bitOf pl 6, toHeritage := bitOf pl 7, hpin := fbv pl 8 6 }
      let b := s.sideband
      let warn := if bitOf pl 15 then (if bitOf pl 14 then b.warnEn ||| (1 <<< pin) else b.warnEn &&& ~~~((1 : BitVec 64) <<< pin)) else b.warnEn
      .done { s with sideband := { b with wires := Tab.put {} b.wires (fld pl 0 6) w, warnEn := warn } } []) mb.val s)

/-- The Patchwork port whose VDD_HB powers a heritage pin (R334). -/
def pinPort (pin : Nat) : PwPort := if pin < 32 then .a else .b
/-- A heritage pin is driven asserted by a wire or by its WARN drive (R334, R335), while its rail is present (R496). -/
def State.sbhDriven (s : State) (pin : Nat) : Bool :=
  (s.pw (pinPort pin)).vddHb &&
    ((s.sideband.wires.any fun e => e.2.enable && e.2.toHeritage && decide (e.2.hpin.toNat = pin) && s.sideband.hostIn.getLsbD e.1) ||
     (s.sideband.warnEn.getLsbD pin && s.slots.warning))
/-- A heritage pin is asserted, by the XM5120 or from outside. -/
def State.sbhAsserted (s : State) (pin : Nat) : Bool := s.sbhDriven pin || s.sideband.herIn.getLsbD pin
/-- A host-side pin is driven asserted by its wire (R334). -/
def State.sbcDriven (s : State) (w : Nat) : Bool :=
  let e := Tab.get {} s.sideband.wires w
  e.enable && !e.toHeritage && s.sbhAsserted e.hpin.toNat
/-- A host-side pin is asserted. -/
def State.sbcAsserted (s : State) (w : Nat) : Bool := s.sbcDriven w || s.sideband.hostIn.getLsbD w
/-- Levels of 64 active-low pins: 1 is high. -/
def pinLevels (f : Nat → Bool) : Nat := packBits ((List.range 64).map fun i => (b2n (!f i), 1))

/-- What SIDEBAND_QUERY returns: per wire ENABLE in bit 0, DIR in bit 1 and HPIN in [7:2] of 2 bytes; WARN_EN; levels. A tenant sees only wires and heritage pins of ports that it owns, and 0 for the others (log entry 35). -/
def State.sidebandBytes (s : State) (n : Nat) : List Byte :=
  let see (pin : Nat) : Bool := s.mayName n (s.pwOwner (pinPort pin))
  let wire (w : Nat) : SbWire := Tab.get {} s.sideband.wires w
  let seeW (w : Nat) : Bool := see (wire w).hpin.toNat
  ((List.range 64).flatMap fun w =>
    if seeW w then bytesOf 2 (packBits [(b2n (wire w).enable, 1), (b2n (wire w).toHeritage, 1), ((wire w).hpin.toNat, 6)]) else [0, 0]) ++
  packVals [(packBits ((List.range 64).map fun i => (b2n (see i && s.sideband.warnEn.getLsbD i), 1)), 8),
    (pinLevels (fun w => !seeW w || s.sbcAsserted w), 8), (pinLevels (fun i => !see i || s.sbhAsserted i), 8)]

/-- R336: SIDEBAND_QUERY. -/
def execSidebandQuery (mb : Mb) (s : State) : Out :=
  .next (runCmd { opcode := 0x0906, priv := false, query := true } (fun s _ _ => .done s (s.sidebandBytes mb.val)) mb.val s)

/-- A bus reset seen or driven ends the port's work and raises EV_PW_BUS_RESET with its source: 0 bus, 1 command (R332). -/
def State.pwReset (s : State) (x : PwPort) (src : Nat) : State :=
  (s.pwEndWork x false).raise 0x0901 [(pwIdx x, 1), (src, 1)] [s.pwOwner x]

/-- R332: PW_BUS_RESET. -/
def execPwBusReset (mb : Mb) (s : State) : Out :=
  .next (runCmd { opcode := 0x0907, priv := true, len := fun _ => 1, fields := [(0, 1)] }
    (fun s pl _ =>
      let x := pwOf (bitOf pl 0)
      let p := s.pw x
      if p.personality = .disabled ∨ (p.syscon = false ∧ p.hostBridge = false) then .fail stBadState 0
      else .done ((s.pwReset x 1).modPw x fun p => { p with driving := true }) []) mb.val s)

/-- R338: PW_COUNTERS_READ. -/
def execPwCountersRead (mb : Mb) (s : State) : Out :=
  .next (runCmd { opcode := 0x0908, priv := false, query := true, len := fun _ => 1, fields := [(0, 1), (1, 1)] }
    (fun s pl _ => s.onPw mb.val (bitOf pl 0) fun x =>
      let c := (s.pw x).counters
      .done (if bitOf pl 1 then s.countPw x fun _ => {} else s)
        (packCounters [c.outReads, c.outWrites, c.outRmw, c.inReads, c.inWrites, c.outMiss, c.unsuppFrames, c.splitCycles, c.outWriteErr, c.busErr,
          c.inAbort, c.prefetchBytes, c.prefetchDiscard, c.delayedDiscard, c.yields, c.yieldDiscard, c.entryWaits])) mb.val s)

/-! ### Frames at a port -/

/-- R310: a frame at a Patchwork port. While the cycle store is full the frame waits in the pool (R309). -/
def execPatchworkFrameReceive (x : PwPort) (f : Frame) (s : State) : Out :=
  require f.wellFormed <|
  if s.running = false then .next s
  else
    let p := s.pw x
    let h := f.hdr
    let s1 := s.takeInbox (pwCode x) f
    if h.kind = .completion ∧ (h.type = tyCompletion ∨ h.type = tyHeritage) then .next (s1.pwCompletionAt x f)
    else if s.fenced (pwUnit x) then .next (s1.endHere f (s.pwHome x) .fenced)
    else if p.personality = .disabled then .next (s1.unsupportedAt x f)
    else
      match p.asks f with
      | none => .next (s1.unsupportedAt x f)
      | some r0 =>
        match p.place r0 with
        | none => .next ((s1.countPw x fun c => { c with outMiss := inc48 c.outMiss }).endHere f (s.pwHome x) .windowMiss)
        | some (r1, w) =>
          if r1.fits w = false then .next (s1.pwAnswer x r1 csAbort 1 [])
          else if 1024 < (p.store.map fun r => r.frame.blocks).sum + f.blocks then .next s
          else
            let born := match s.inboxFrame (pwCode x) f with | some (_, r) => r.born | none => s.now
            let slot := if r1.nonPosted then p.freeSlot else none
            let s2 := if r1.nonPosted ∧ slot = none then s1.countPw x fun c => { c with entryWaits := inc48 c.entryWaits } else s1
            .next (s2.modPw x fun p =>
              { p with store := p.store ++ [{ r1 with born := born, entry := slot }],
                       outEntries := match slot with | some e => e :: p.outEntries | none => p.outEntries })

/-- R319: the port has won the bus and the head record of the cycle store runs. -/
def execOutboundCycleRun (x : PwPort) (s : State) : Out := .next (s.runHead x)

/-- R321: a bus cycle of the port's sequence ends. -/
def execBusCycleEnd (x : PwPort) (st : BusStatus) (data : List Byte) (s : State) : Out :=
  require (decide (st = .ok) || data.isEmpty) <| .next (if s.pwLive x then s.endCycle x st data else s)

/-- R309: the oldest record of the cycle store whose bus cycle has not started reaches the lifetime limit. -/
def execCycleStoreLifetimeExpiry (x : PwPort) (s : State) : Out :=
  match leastBy (fun r => r.born) (s.pw x).store with
  | none => .next s
  | some r => .next (((s.modPw x fun p => { p with store := p.store.erase r }).freeEntry x r).endHere r.frame (s.pwHome x) .lifetime)

/-! ### Cycles of other masters -/

/-- R316: a bus cycle of another master is claimed by an inbound window, or by none. -/
def execInboundCycleClaim (x : PwPort) (c : BusCycle) (s : State) : Out :=
  require c.wellFormed <| .next (s.claimCycle x c fun s n w =>
    if c.rmw then s.claimRmw x n w c else if c.write then s.claimWrite x n w c else s.claimRead x n w c)

/-- R329: an inbound write. -/
def execInboundWrite (x : PwPort) (c : BusCycle) (s : State) : Out :=
  require (c.wellFormed && c.write && !c.rmw) <| .next (s.claimCycle x c fun s n w => s.claimWrite x n w c)

/-- R325: an inbound read. -/
def execInboundRead (x : PwPort) (c : BusCycle) (s : State) : Out :=
  require (c.wellFormed && !c.write && !c.rmw) <| .next (s.claimCycle x c fun s n w => s.claimRead x n w c)

/-- R324: an inbound VMEbus read-modify-write. A PCI bus has none (LOCK# is not supported): the port does not answer. -/
def execInboundRmw (x : PwPort) (c : BusCycle) (s : State) : Out :=
  require (c.wellFormed && c.rmw) <|
    .next (if (s.pw x).personality = .vme then s.claimCycle x c fun s n w => s.claimRmw x n w c else s.answerBus x .none_)

/-- R325: a PCI master repeats a delayed read. -/
def execPciDelayedRepeat (x : PwPort) (c : BusCycle) (s : State) : Out :=
  require (c.wellFormed && !c.write && !c.rmw) <|
    .next (if (s.pw x).personality = .pci then s.claimCycle x c fun s n w => s.claimRead x n w c else s)

/-- R325: delayed read data not collected in 2^15 PBCLK cycles. -/
def execDelayedDiscardTimeout (x : PwPort) (entry : BitVec 8) (s : State) : Out :=
  match Tab.get none (s.pw x).entries entry.toNat with
  | none => .next s
  | some y =>
    match y.state with
    | .ready _ => .next ((s.dropEntry x entry.toNat).countPw x fun c => { c with delayedDiscard := inc48 c.delayedDiscard })
    | _ => .next s

/-- The inbound read that holds the bus at a VMEbus port. -/
def Patchwork.heldRead (p : Patchwork) : Option (Nat × PwEntry) :=
  p.entries.findSome? fun e =>
    match e.2 with
    | some y => if y.state = .held then some (e.1, y) else none
    | none => none

/-- Give up a held inbound read: BERR*, and its completion will be discarded (R328, R330). -/
def State.giveUpRead (s : State) (x : PwPort) (e : Nat) (y : PwEntry) (yielded : Bool) : State :=
  (s.modPw x fun p =>
    { p with entries := Tab.put none p.entries e (some { y with state := .dropped yielded }), crossed := false }).answerBus x .busError

/-- R330: a VMEbus port has been blocked for YIELD_TIME. -/
def execYieldTimeout (x : PwPort) (blockedNs : BitVec 32) (s : State) : Out :=
  let p := s.pw x
  match p.heldRead with
  | none => .next s
  | some (e, y) =>
    if p.personality ≠ .vme ∨ p.store = [] ∨ p.sequence.isSome then .next s
    else if p.yieldOn then .next ((s.giveUpRead x e y true).countPw x fun c => { c with yields := inc48 c.yields })
    else if p.crossed then .next s
    else .next ((s.modPw x fun p => { p with crossed := true }).raise 0x0900 [(pwIdx x, 1), (y.window, 1), (blockedNs.toNat, 8)] [s.pwOwner x])

/-- R327: PREFETCH_HOLD of a buffer passes. -/
def execPrefetchHoldExpiry (x : PwPort) (buf : BitVec 5) (s : State) : Out :=
  match (s.pw x).prefetch[buf.toNat]? with
  | none => .next s
  | some b => .next (s.dropPrefetch x fun y => decide (y = b))

/-- R327: a write cycle on the bus overlaps prefetch buffers. -/
def execBusWriteObserved (x : PwPort) (space : BitVec 2) (addr : BitVec 64) (len : Nat) (s : State) : Out :=
  require (decide (1 ≤ len)) <| .next (if s.pwLive x then s.busWrite x space addr.toNat len else s)

/-! ### Bus events -/

/-- R332: SYSRESET* or RST# on the bus. -/
def execHeritageBusReset (x : PwPort) (s : State) : Out := .next (if s.pwLive x then s.pwReset x 0 else s)

/-- R332: the 200 ms drive of PW_BUS_RESET ends. -/
def execPwBusResetEnd (x : PwPort) (s : State) : Out := .next (s.modPw x fun p => { p with driving := false })

/-- EV_PW_SUPPLY: port, VDD_HB present or absent, and its level, 0 for 3.3 V and 1 for 5 V (R332). -/
def State.evSupply (s : State) (x : PwPort) : State :=
  s.raise 0x0902 [(pwIdx x, 1), (b2n (s.pw x).vddHb, 1), (b2n (s.pw x).fiveVolt, 1)] [s.pwOwner x]

/-- R332: loss of VDD_HB. -/
def execVddHbLoss (x : PwPort) (s : State) : Out :=
  if (s.pw x).vddHb = false then .next s
  else
    let s1 := if s.running then (s.pwEndWork x false).report (pwSource x) 0x05 0 else s
    .next ((s1.modPw x fun p => { p with vddHb := false }).evSupply x)

/-- R332: VDD_HB returns. -/
def execVddHbReturn (x : PwPort) (fiveVolt : Bool) (s : State) : Out :=
  if (s.pw x).vddHb then .next s else .next ((s.modPw x fun p => { p with vddHb := true, fiveVolt := fiveVolt }).evSupply x)

/-- R332: the bus timer of a system controller expires on the cycle in progress: BERR* ends it. -/
def execBusTimerExpiry (x : PwPort) (s : State) : Out :=
  let p := s.pw x
  if s.pwLive x = false ∨ p.personality ≠ .vme ∨ p.syscon = false then .next s
  else
    let w := match p.sequence with | some q => q.record.window | none => match p.heldRead with | some (_, y) => y.window | none => 0
    let s1 := s.report (pwSource x) 0x04 (BitVec.ofNat 64 w)
    match p.sequence, p.heldRead with
    | some _, _ => .next (s1.endCycle x .noResponse [])
    | none, some (e, y) => .next (s1.giveUpRead x e y false)
    | none, none => .next (s1.answerBus x .busError)

/-- The bits of a BAR that the bus host can write: those at and above the size of its tied window; a BAR with no window reads 0. -/
def Patchwork.barMask (p : Patchwork) (n : Nat) : BitVec 32 :=
  match p.windows.filter fun e => e.2.valid && e.2.dirIn && decide (e.2.bar.toNat = n + 1) with
  | e :: _ => BitVec.ofNat 32 (2 ^ 32 - e.2.size % 2 ^ 33)
  | [] => 0

/-- A word of the configuration space of the device function (Table 9.3); places of a Type 0 header (PRESUMED, log entry 22). -/
def Patchwork.deviceReg (p : Patchwork) (reg : Nat) : BitVec 32 :=
  if reg = 0x00 then 0x51221E6C
  else if reg = 0x04 then (if p.memEnable then 2 else 0)
  else if reg = 0x08 then 0x06800000
  else if 0x10 ≤ reg ∧ reg < 0x28 then nth 0 p.bars ((reg - 0x10) / 4) &&& p.barMask ((reg - 0x10) / 4)
  else 0

/-- R316: the bus host's configuration cycle to the device function moves or disables the tied inbound windows. -/
def execDeviceConfigCycle (x : PwPort) (reg : BitVec 8) (wr : Option (BitVec 32)) (s : State) : Out :=
  require (decide (reg.toNat % 4 = 0)) <|
  let p := s.pw x
  if s.pwLive x = false ∨ p.personality ≠ .pci ∨ p.hostBridge then .next s
  else
    let s0 := (s.closeWrite x).dropPrefetch x (·.inbound)
    match wr with
    | none => .next (s0.answerBus x (.data (bytesOf 4 (p.deviceReg reg.toNat).toNat)))
    | some v =>
      let s1 := (s0.dropPrefetch x fun b => decide ((p.window b.window).bar ≠ 0)).answerBus x .acknowledged
      if reg = 0x04 then .next (s1.modPw x fun p => { p with memEnable := v.getLsbD 1 })
      else if 0x10 ≤ reg.toNat ∧ reg.toNat < 0x28 then
        .next (s1.modPw x fun p => { p with bars := setAt p.bars ((reg.toNat - 0x10) / 4) (v &&& p.barMask ((reg.toNat - 0x10) / 4)) })
      else .next (s0.answerBus x .acknowledged)

/-- R334: a side-band input changes; outputs follow the routing, whatever the power state. -/
def execSidebandInputChange (pin : SidebandPin) (asserted : Bool) (s : State) : Out :=
  let put (v : BitVec 64) (n : Nat) : BitVec 64 := if asserted then v ||| (1 <<< n) else v &&& ~~~((1 : BitVec 64) <<< n)
  .next (match pin with
    | .host n => { s with sideband := { s.sideband with hostIn := put s.sideband.hostIn n.toNat } }
    | .heritage n => { s with sideband := { s.sideband with herIn := put s.sideband.herIn n.toNat } })

end Sys2Proof.Machine
end

