-- ==== Sys2Proof/Machine/SelfTest.lean ====
section
/-!
DEFINITION. Meanings of self-test and of the performance monitors (chapter 13).
-/

namespace Sys2Proof.Machine

/-! ### Self-test -/

/-- The checks of a target (R437, R459). -/
def testChecks (pl : Nat) : List (Nat × Bool) :=
  [(0, testKind (fld pl 0 4)), (4, !testKind (fld pl 0 4) || decide (fld pl 4 16 < unitCount (fld pl 0 4)))]

/-- R439: BIST_START returns the target. -/
def execBistStart (mb : Mb) (s : State) : Out :=
  .next (runCmd { opcode := 0x0C00, priv := true, len := fun _ => 4, fields := [(0, 4), (4, 16)], checks := testChecks }
    (fun s pl _ =>
      let u := unitField pl
      match s.testRefusal u with
      | some st => .fail st 0
      | none => .done (s.testStart u) (bytesOf 3 u.bits.toNat)) mb.val s)

/-- R445: BIST_ABORT. With no test of the unit in progress it has no effect. -/
def execBistAbort (mb : Mb) (s : State) : Out :=
  .next (runCmd { opcode := 0x0C01, priv := true, len := fun _ => 4, fields := [(0, 4), (4, 16)], checks := testChecks }
    (fun s pl _ => .done (s.abortTests (fun v => decide (v = unitField pl)) 1) []) mb.val s)

/-- R443: BIST_QUERY. -/
def execBistQuery (mb : Mb) (s : State) : Out :=
  .next (runCmd { opcode := 0x0C02, priv := true, query := true, len := fun _ => 4, fields := [(0, 4), (4, 16)], checks := testChecks }
    (fun s pl _ => .done s (s.bistBytes (unitField pl))) mb.val s)

/-- R447: BIST_UNMARK. -/
def execBistUnmark (mb : Mb) (s : State) : Out :=
  .next (runCmd { opcode := 0x0C03, priv := true, len := fun _ => 4, fields := [(0, 4), (4, 16)], checks := testChecks }
    (fun s pl _ =>
      let u := unitField pl
      if s.marked u then
        .done (((s.modBist fun b => { b with marks := b.marks.filter fun k => decide (k ≠ u.key) }).reinitUnit u).returnUnit u true) []
      else .done s []) mb.val s)

/-- A unit from its key. -/
def unitOfKey (k : Nat) : UnitId := unitOf (k / 65536) (k % 65536)

/-- R458: BIST_LIST: units marked unusable or under test, by increasing kind and INDEX. -/
def execBistList (mb : Mb) (s : State) : Out :=
  .next (runCmd { opcode := 0x0C04, priv := true, query := true, len := fun _ => 2, fields := [(0, 8), (8, 8)] }
    (fun s pl _ =>
      let l := ((s.testsActive.foldl (fun a u => insertNat u.key a) s.bist.marks).drop (fld pl 0 8)).take (fld pl 8 8)
      .done s (packVals ((l.length, 2) :: l.map fun k =>
        (packBits [((unitOfKey k).bits.toNat, 20), (b2n (s.marked (unitOfKey k)), 1), (b2n (s.underTest (unitOfKey k)), 1)], 4)))) mb.val s)

/-- R439: BIST_ISOLATION_COMPLETE: the test engine starts. -/
def execBistIsolationComplete (u : UnitId) (s : State) : Out :=
  require (testable u) <|
  match s.bistRec u with
  | none => .next s
  | some r =>
    if r.active && r.result == 1 && s.isolated u then
      .next (s.setBistRec u { r with result := 2, startSec := s.timeNow.1, startNs := s.timeNow.2 })
    else .next s

/-- R444: BIST_ENGINE_END: PASS or FAIL; a FAIL marks the unit unusable (R446). -/
def execBistEngineEnd (u : UnitId) (x : EngineResult) (s : State) : Out :=
  require (testable u) <|
  match s.bistRec u with
  | none => .next s
  | some r =>
    if r.active && r.result == 2 then
      let pass := decide (x.signature = r.expected) && x.comparesOk
      let s1 := s.setBistRec u
        { r with result := if pass then 3 else 4, sigValid := true, verified := pass, signature := x.signature,
                 failPart := if pass then 0 else x.failPart, failAddr := if pass then 0 else x.failAddr }
      .next (if pass then s1 else s1.markUnit u)
    else .next s

/-- R439: BIST_REINIT_COMPLETE. After a FATAL abort the unit waits for the reset (R445). -/
def execBistReinitComplete (u : UnitId) (s : State) : Out :=
  require (testable u) <| .next (if s.testsEnded.contains u then s.testDone u else s)

/-- R438: BIST_NOT_IDLE_TIMEOUT. -/
def execBistNotIdleTimeout (u : UnitId) (s : State) : Out :=
  require (testable u) <|
  match s.bistRec u with
  | none => .next s
  | some r => .next (if r.active && r.result == 1 && !s.isolated u then s.abortTests (fun v => decide (v = u)) 4 else s)

/-! ### Performance monitors -/

/-- The place of the 96-bit block of the n-th counter of PMON_CONFIG. -/
def pmonBlock (n : Nat) : Nat := 32 + 96 * n

/-- The counters that MASK names, in increasing order: each has a block, in that order (log entry 62). -/
def pmonMask (pl : Nat) : List Nat := (List.range 8).filter fun k => bitOf pl (16 + k)

/-- The checks of a block (R459): EVENT, QUAL and PRELOAD. -/
def blockChecks (mon pl n : Nat) : List (Nat × Bool) :=
  let b := pmonBlock n
  let ev := fld pl b 9
  [(b, eventOk mon ev), (b + 10, bitOf pl (b + 14) = false || decide (fld pl (b + 10) 4 < (eventQuals ev).getD 0)), (b + 32, decide (fld pl (b + 32) 64 < 2 ^ 48))]

/-- R451: PMON_CONFIG loads each counter named with its control word and PRELOAD. -/
def execPmonConfig (mb : Mb) (s : State) : Out :=
  .next (runCmd { opcode := 0x0D00, priv := true, len := fun pl => 4 + 12 * (pmonMask pl).length,
                  fields := [(0, 9), (16, 8)] ++ (List.range 8).flatMap fun n => [(pmonBlock n, 17), (pmonBlock n + 32, 64)],
                  checks := fun pl =>
                    (0, pmonExists (fld pl 0 9)) :: (List.range (pmonMask pl).length).flatMap fun n => blockChecks (fld pl 0 9) pl n }
    (fun s pl _ =>
      .done (((pmonMask pl).foldl (fun (a : State × Nat) k =>
        let b := pmonBlock a.2
        (a.1.modPmon (fld pl 0 9) fun m => m.modCounter k fun c =>
          { ctl := fbv pl b 32, preload := fbv pl (b + 32) 48, count := fbv pl (b + 32) 48, ovf := c.ovf }, a.2 + 1)) (s, 0)).1) []) mb.val s)

/-- R458: PMON_READ. -/
def execPmonRead (mb : Mb) (s : State) : Out :=
  .next (runCmd { opcode := 0x0D01, priv := true, len := fun _ => 2, fields := [(0, 9), (9, 1)], checks := fun pl => [(0, pmonExists (fld pl 0 9))] }
    (fun s pl _ =>
      let mon := fld pl 0 9
      let s1 := s.pmonSync mon
      let clear := s1.modPmon mon fun m =>
        { m with counters := Tab.mapAll {} m.counters fun c => { c with count := 0, ovf := false }, samplesLost := 0 }
      .done (if bitOf pl 9 then clear else s1) (s1.pmonOf mon).values) mb.val s)

/-- R455: PMON_FREEZE. -/
def execPmonFreeze (mb : Mb) (s : State) : Out :=
  .next (runCmd { opcode := 0x0D02, priv := true, len := fun _ => 2, fields := [(0, 9), (9, 1), (10, 1)],
                  checks := fun pl => [(0, bitOf pl 9 || pmonExists (fld pl 0 9))] }
    (fun s pl _ =>
      .done (s.each (if bitOf pl 9 then pmonMons else [fld pl 0 9]) fun t mon =>
        (if bitOf pl 10 then t.pmonSync mon else t).modPmon mon fun m => { m with frozen := bitOf pl 10 }) []) mb.val s)

/-- R456: PMON_SNAPSHOT. -/
def execPmonSnapshot (mb : Mb) (s : State) : Out :=
  .next (runCmd { opcode := 0x0D03, priv := true, len := fun _ => 10, fields := [(0, 48), (48, 30), (78, 1)],
                  checks := fun pl => [(48, decide (fld pl 48 30 < 1000000000))] }
    (fun s pl _ =>
      let now := s.fabNs
      let asked := fld pl 0 48 * 1000000000 + fld pl 48 30
      if asked ≠ 0 ∧ asked < now + 2000 then .fail stInvalidField 0
      else if s.bist.pending.isSome then .fail stBusy 0
      else
        let t := if asked = 0 then ceilDiv (now + 2000) 1000 * 1000 else asked
        .done (s.modBist fun b => { b with pending := some (t, bitOf pl 78) }) []) mb.val s)

/-- R457: PMON_SNAPSHOT_READ. The marks of a port that no capture has covered read 0 (log entry 62). -/
def execPmonSnapshotRead (mb : Mb) (s : State) : Out :=
  .next (runCmd { opcode := 0x0D04, priv := true, query := true, len := fun _ => 3, fields := [(0, 9), (9, 1), (10, 8), (18, 1)],
                  checks := fun pl => [(0, bitOf pl 9 || pmonExists (fld pl 0 9))] }
    (fun s pl _ =>
      let b := s.bist
      if bitOf pl 9 then
        s.onPort mb.val (fld pl 10 8) (fld pl 18 1) 10 fun p =>
          let x := (Tab.get {} b.marksSnap p).bytes
          .done s (if x = [] then List.replicate (s.hwmBytes p ++ s.schedHwmBytes p).length 0 else x)
      else
        let x := Tab.get {} b.snaps (fld pl 0 9)
        .done s (packVals [(b.snapSeq.toNat, 2), (b.snapTime / 1000000000, 6), (b.snapTime % 1000000000, 4), (b2n x.valid, 1), (b2n b.skewOk, 1)] ++
          x.values)) mb.val s)

/-- A sample record (R453). -/
def PmonSample.bytes (x : PmonSample) : List Byte :=
  bytesOf 32 (packBits [(x.cycles.toNat, 64), (x.k.toNat, 8), (x.event.toNat, 16), (0, 40), (x.ctx.toNat, 128)])

/-- R453: PMON_SAMPLE_READ removes the oldest sample records. -/
def execPmonSampleRead (mb : Mb) (s : State) : Out :=
  .next (runCmd { opcode := 0x0D05, priv := true, len := fun _ => 2, fields := [(0, 9), (9, 7)],
                  checks := fun pl => [(0, pmonExists (fld pl 0 9)), (9, decide (1 ≤ fld pl 9 7 ∧ fld pl 9 7 ≤ 64))] }
    (fun s pl _ =>
      let mon := fld pl 0 9
      let l := ((s.pmonOf mon).samples.take (fld pl 9 7))
      .done (s.modPmon mon fun m => { m with samples := m.samples.drop (fld pl 9 7) }) (packVals [(l.length, 2)] ++ l.flatMap PmonSample.bytes)) mb.val s)

/-- A counter wraps: an event that the model counts has wrapped it already, and another wraps it here (R451). -/
def PmonCounter.wrap (c : PmonCounter) : PmonCounter :=
  if eventCounted c.event then { c with wraps := c.wraps - 1 } else { c with ovf := true, count := BitVec.ofNat 48 c.base }

/-- R453: PMON_COUNTER_WRAP: a sample record at a wrap with OVF_SAMPLE; EV_PMON_SAMPLE, with the MON number, as the buffer reaches 32 records, at most once per ms. -/
def execPmonCounterWrap (mon : BitVec 9) (k : BitVec 3) (cycles : BitVec 64) (ctx : BitVec 128) (s : State) : Out :=
  require (pmonExists mon.toNat) <|
  let m := s.pmonOf mon.toNat
  let c := m.counter k.toNat
  if c.enabled = false ∨ m.frozen ∨ s.pmonClocked mon.toNat = false ∨ (eventCounted c.event ∧ c.wraps = 0) then .next s
  else
    let s1 := s.modPmon mon.toNat fun m => m.modCounter k.toNat PmonCounter.wrap
    if c.samples = false then .next s1
    else if 64 ≤ m.samples.length then .next (s1.modPmon mon.toNat fun m => { m with samplesLost := inc48 m.samplesLost })
    else
      let s2 := s1.modPmon mon.toNat fun m =>
        { m with samples := m.samples ++ [{ cycles := cycles, k := k.setWidth 8, event := BitVec.ofNat 16 c.event, ctx := ctx }] }
      let quiet := match m.lastEvent with | some t => decide (s.now < t + 1000000) | none => false
      if m.samples.length = 31 ∧ quiet = false then
        .next ((s2.modPmon mon.toNat fun m => { m with lastEvent := some s.now }).raise 0x0D00 [(mon.toNat, 2)] [])
      else .next s2

/-- R456: SNAPSHOT_CAPTURE, once fabric time has reached T. -/
def execSnapshotCapture (s : State) : Out :=
  match s.bist.pending with
  | none => .next s
  | some (t, _) => .next (if s.running && decide (t ≤ s.fabNs) then s.capture true else s)

end Sys2Proof.Machine
end

