-- ==== Sys2Proof/Machine/ResetOps.lean ====
section
/-!
DEFINITION. What resets clear and keep (R460, R461, R477), the retention store of Intermission (R478, R479), the start of the booth controller (Table 14.3) and boot (R395, R396).
-/

namespace Sys2Proof.Machine

/-! ### The core die in reset -/

/-- What the Ringmaster and the Selvedge beside it keep while the core die is reset (column Warm of Table 14.8): the event log, flash, fuses and calibration store. -/
def Mgmt.coreReset (m : Mgmt) (now : Nat) : Mgmt :=
  { unavailableAt := now, log := m.log, eseq := m.eseq, serialPtr := m.serialPtr, serialData := m.serialData, serialAck := m.serialAck,
    dir0 := m.dir0, dir1 := m.dir1, imageA := m.imageA, imageB := m.imageB, fusedSvn := m.fusedSvn, lastChecked := m.lastChecked,
    cal := { bytes := m.cal.bytes, invalid := m.cal.invalid, writeCount := m.cal.writeCount } }

/-- The middle buffers that marks hold out of service. -/
def State.markedMids (s : State) : Tab MidBuf :=
  (List.range 128).foldl (fun t m => if midHeld s.marked m then Tab.put {} t m { state := .skippedFenced } else t) []

/-- What the safety net keeps: the first-fault record, FIRST_FATAL, the booth record store, and ALIVE at its level (R431). -/
def Faults.coreReset (f : Faults) : Faults :=
  { ffr := f.ffr, firstFatal := f.firstFatal, booth := f.booth, boothLost := f.boothLost, boothMerges := f.boothMerges, aliveLevel := f.aliveLevel,
    stopCause := f.stopCause }

/-- Power after a reset of the core die: rails, wake settings and JTAG as they are. -/
def Power.coreReset (x : Power) : Power :=
  { x with coreOn := false, quadOn := [], ringOff := [], ringDiscard := [], inter := .no, retention := none, wakeSrc := none, warmDue := false, gov := {} }

/-- A Patchwork port with its supply as it is. -/
def Patchwork.coreReset (p : Patchwork) : Patchwork := { vddHb := p.vddHb, fiveVolt := p.fiveVolt }

/-- The core die and the lane chiplets are in reset: everything in them is at its value after cold reset, and every frame in them is lost (R461). -/
def State.coreReset (s : State) : State :=
  { s with
    mgmt := s.mgmt.coreReset s.now
    ports := [], lanes := [], links := [], fabric := {}, car := { mids := s.markedMids }, sched := {}, parts := {}, jug := {}
    pwA := s.pwA.coreReset, pwB := s.pwB.coreReset
    faults := s.faults.coreReset, bist := { marks := s.bist.marks }, power := s.power.coreReset }

/-- EV_RESET (R481): kind 1 cold, 2 warm, 4 Ring; cause 0 PWRON_RST_N, 1 SYS_RST_N, 2 a command. -/
def State.evReset (s : State) (kind cause : Nat) : State := s.raise 0x0E01 [(kind, 1), (cause, 1)] []

/-- EV_PWR_SEQ_FAIL with the rail, or 5 for REFCLK_CORE (R468, R503). -/
def State.evSeqFail (s : State) (rail : Nat) : State := s.raise 0x0E03 [(rail, 1)] []

/-- A sequence fails (R468, R503). -/
def State.seqFail (s : State) (rail : Nat) : State :=
  ((s.evSeqFail rail).modPower fun x => { x with seqFails := x.seqFails + 1 }).railsOff .downFailed

/-- A rail or REFCLK_CORE is lost while the core die runs: every rail is switched off, and the boot that follows is a warm reset (R468, R503). -/
def State.coreLost (s : State) (rail : Nat) : State :=
  ((s.coreReset.modPower fun x => { x with boot := .warm, ok := setAt x.ok rail false }).evSeqFail rail).railsOff .downLost

/-! ### The retention store -/

/-- Settings of a port that are kept. -/
def Port.kept (x : Port) : Port :=
  { configured := x.configured, pcie := x.pcie, width := x.width, maxRate := x.maxRate, upstream := x.upstream, clocking := x.clocking, autoUp := x.autoUp }
/-- Settings of a lane that are kept. -/
def Lane.kept (x : Lane) : Lane := { fixed := x.fixed, threshold := x.threshold }
/-- Settings of a link layer that are kept. -/
def Link.kept (x : Link) : Link :=
  { poolSet := x.poolSet, replayTimer := x.replayTimer, replayLimit := x.replayLimit, leakThresh := x.leakThresh, npExpiry := x.npExpiry,
    sleep := { idleUs := x.sleep.idleUs, noSleep := x.sleep.noSleep } }

/-- FABRIC_TIME_CONFIG settings. -/
def FabricTime.kept (t : FabricTime) : FabricTime := { gmPriority := t.gmPriority, ppsInEn := t.ppsInEn, asym := t.asym }
/-- Fabric time with the FABRIC_TIME_CONFIG settings that were kept: it goes on from the start of boot (R162). -/
def FabricTime.restored (t k : FabricTime) : FabricTime := { t with gmPriority := k.gmPriority, ppsInEn := k.ppsInEn, asym := k.asym }
/-- Committed tables, with every epoch 0, FABRIC_CONFIG and FABRIC_TIME_CONFIG. -/
def Fabric.kept (f : Fabric) : Fabric :=
  { switchId := f.switchId, idDefault := f.idDefault, hashSeed := f.hashSeed, managed := f.managed, lifetimeMs := f.lifetimeMs,
    cplTimeoutMs := f.cplTimeoutMs, tables := { f.tables with epoch := [] }, time := f.time.kept }

/-- VOQ, middle-share and PCIe-store settings. Those that wait for a link training or a period are kept as the ones to come. -/
def Carousel.kept (c : Carousel) : Carousel :=
  { shares := c.sharesPending.getD c.shares, voqLimit := c.voqLimit,
    pcieShare := c.pcieSharePending.foldl (fun t e => match e.2 with | some v => Tab.put (0, 0) t e.1 v | none => t) c.pcieShare }

/-- A bucket at its burst, with the settings that were to come. -/
def Bucket.kept (b : Bucket) : Bucket :=
  let x := b.pending.getD (b.rate, b.burst)
  { rate := x.1, burst := x.2, level := x.2 * 2 ^ 32 }
/-- Settings of an egress queue. -/
def EgressQueue.kept (q : EgressQueue) : EgressQueue := { band := q.band, weight := q.weight, committed := q.committed.kept, peak := q.peak.kept }
/-- Settings of a scheduler; `gate` is the list last set. -/
def Sched.kept (x : Sched) : Sched :=
  { queues := x.queues.foldl (fun t e => Tab.put (queueDefault e.1) t e.1 e.2.kept) [], portPeak := x.portPeak.kept
    gate := match x.gatePending with | some g => g.list | none => x.gate }
/-- Settings of a meter. -/
def Meter.kept (m : Meter) : Meter :=
  let x := m.pending.getD (m.enable, m.aware, m.demote, m.pq)
  { enable := x.1, aware := x.2.1, demote := x.2.2.1, pq := x.2.2.2, committed := m.committed.kept, peak := m.peak.kept }
/-- Scheduling, shapers, meters, maps, penalty limits and gate lists. -/
def Scheduling.kept (x : Scheduling) : Scheduling :=
  { ports := Tab.mapAll {} x.ports Sched.kept, meters := Tab.mapAll {} x.meters Meter.kept, meterMap := x.meterMap
    penalty := Tab.mapAll {} x.penalty fun q => { limit := q.limit } }

/-- An instance as it is restored: RESETTING, and RESET_REQ still to be written (R479). -/
def InstRun.kept (x : InstRun) : InstRun :=
  { state := .resetting, icb := { x.icb with quiesceReq := false, resetReq := false }, timeoutMs := x.timeoutMs }
/-- Partitions, instances and translation entries. -/
def Partitions.kept (x : Partitions) (t : Policy) : Partitions :=
  { usable := x.usable, timing := x.timing, xlate := x.xlate
    insts := t.inst.foldl (fun a e => match e.2 with | some _ => Tab.put {} a e.1 (Tab.get {} x.insts e.1).kept | none => a) [] }

/-- A descriptor ring as it is restored: STOPPED, or DISABLED if it was never configured (R479). -/
def MoverRing.kept (r : MoverRing) : MoverRing :=
  { r with state := if r.state = .disabled then .disabled else .stopped, head := 0, tail := 0, phase := true, moveTo := none, wasRunning := false,
           doorbell := 0, cause := 0, descs := [], descDone := 0, descErr := 0, bytesMoved := 0 }
/-- Juggler allocation and descriptor-ring configuration. -/
def Jugglers.kept (j : Jugglers) : Jugglers :=
  { engines := Tab.mapAll {} j.engines fun x => { owner := x.owner }, rings := Tab.mapAll none j.rings fun r => r.map MoverRing.kept }

/-- Patchwork settings and windows. -/
def Patchwork.kept (p : Patchwork) : Patchwork :=
  { p with driving := false, bars := [0, 0, 0, 0, 0, 0], memEnable := false, store := [], sequence := none, outEntries := [], entries := [],
           openWrite := none, prefetch := [], crossed := false, answer := .none_, counters := {} }

/-- What Efnuquin writes to the retention store (the R entries of Table 14.8). -/
def State.retain (s : State) : Retention :=
  { severity := s.faults.severity, ffrLevel := s.faults.ffrLevel, forward0 := s.faults.forward0, forward1 := s.faults.forward1,
    fences := s.faults.fences, fabric := s.fabric.kept, ports := Tab.mapAll {} s.ports Port.kept, lanes := Tab.mapAll {} s.lanes Lane.kept,
    links := Tab.mapAll {} s.links Link.kept, carousel := s.car.kept, sched := s.sched.kept, part := s.parts.kept s.policy, jugglers := s.jug.kept,
    pwA := s.pwA.kept, pwB := s.pwB.kept, homeRm := s.mgmt.homeRm, homeA := s.mgmt.homeA, homeB := s.mgmt.homeB, quadOn := s.power.quadOn,
    ringOff := s.power.ringOff }

/-- Every gate list starts again with its stored base time (R226, R478). -/
def State.restartGates (s : State) (l : List Nat) : State :=
  s.each l fun t p =>
    match (t.schedOf p).gate with
    | none => t
    | some g => (t.modSched p fun x => { x with gate := none }).scheduleGate p (some g) g.base g.cycle

/-- Middle buffers of powered-off Rings are skipped (R29). -/
def State.skipOffMids (s : State) : State :=
  s.each ((List.range 128).filter fun m => s.ringIsOff (ringOf m)) fun t m => t.modMid m fun b => { b with state := .skippedOff }

/-- Efnuquin restores the retention store (R478): units that were fenced are fenced again with MANAGER_FENCE, and ports with AUTO_UP are brought up. -/
def State.restore (s : State) (r : Retention) : State :=
  let s1 := { s with
    fabric := { r.fabric with time := s.fabric.time.restored r.fabric.time }, ports := r.ports, lanes := r.lanes, links := r.links, car := { r.carousel with mids := s.car.mids }, sched := r.sched
    parts := r.part, jug := r.jugglers, pwA := { r.pwA with vddHb := s.pwA.vddHb, fiveVolt := s.pwA.fiveVolt }
    pwB := { r.pwB with vddHb := s.pwB.vddHb, fiveVolt := s.pwB.fiveVolt }
    mgmt := { s.mgmt with homeRm := r.homeRm, homeA := r.homeA, homeB := r.homeB }
    faults := { s.faults with severity := r.severity, ffrLevel := r.ffrLevel, forward0 := r.forward0, forward1 := r.forward1 }
    power := { s.power with ringOff := r.ringOff } }
  let s2 := (s1.skipOffMids.each ((r.quadOn.filter fun e => e.2).map Prod.fst) State.powerQuad).restartGates (s1.sched.ports.map Prod.fst)
  let s3 := r.fences.foldl (fun t f =>
    t.classify { source := 0xF01, error := 0x01, severity := svContained, seconds := t.timeNow.1, ns := t.timeNow.2 } (some f.unit)) s2
  (s3.updateService.autoUp s3.allPorts).checkLapses

/-! ### The booth controller's start -/

/-- Each start of the booth controller loads the slot trims; with an invalid section it uses nominal ones and says so (R362). -/
def State.loadSlotTrims (s : State) : State := if s.mgmt.cal.invalid.contains 2 then s.raise 0x0A03 [] [] else s

/-- The slot profile is applied; without a valid one the defaults of Table 10.2 are, with EV_SLOT_PROFILE_DEFAULT (R369). -/
def State.applyProfile (s : State) : State :=
  let x := s.slots.profile.getD {}
  let s1 := s.modSlots fun y => { y with bus := x.bus }
  let s2 := s1.each (List.range 48) fun t c => t.setChan c (Tab.get {} x.chans c)
  if s.slots.profile.isNone then s2.raise 0x0A04 [] [] else s2

/-- The booth controller starts at power-on or cold reset (Table 14.3): the input-bus warning, the calibration check, the slot profile, and the rails. -/
def State.boothStart (s : State) : State :=
  let s1 := (s.assertWarning s.slots.vfeed true).loadSlotTrims
  let s2 := if s1.mgmt.cal.invalid = [] then s1 else s1.report 0xE01 0x01 0
  s2.applyProfile.railStart

/-! ### Boot -/

/-- A fresh JTAG nonce (R505): a free value. -/
def State.newNonce (s : State) : State :=
  let (w, s1) := s.draw
  s1.modPower fun x => { x with jtagUnlocked := false, jtagNonce := w.setWidth 32 }

/-- The boot ROM starts an image (R396). -/
def Mgmt.bootImage (m : Mgmt) (b trial fallback : Bool) (err : BitVec 8) : Mgmt :=
  { m with image := b, trial := trial, fallback := fallback, bootErr := err, stage := stageLoad, fwVersion := (m.slot b).info.version }

/-- The boot ROM chooses an image (R396); without a valid directory it takes image A with no trial (R393), with BOOT_ERR 2. -/
def Mgmt.chooseImage (m : Mgmt) : Mgmt :=
  let d := m.directory.getD {}
  let trial := d.trialImage.isSome
  let first := d.trialImage.getD d.activeB
  let m1 := if trial then m.writeDir fun x => { x with trialImage := none } else m
  let noDir : BitVec 8 := if m.directory.isNone then 2 else 0
  if m1.imageOk first then m1.bootImage first trial false noDir
  else if m1.imageOk (!first) then m1.bootImage (!first) false true (m1.verify first)
  else { m1 with stage := stageRecovery, bootErr := m1.verify first }

/-- Saved settings of the directory take effect at boot: the MB0 lists (R373), and the switch ID with the hash seed (R129). -/
def State.loadDirectory (s : State) : State :=
  let d := s.mgmt.directory.getD {}
  let id := d.savedSwitch.getD (s.part.nodeUid.setWidth 12)
  (s.modMgmt fun m => { m with portList := d.portList, switchList := d.switchList }).modFab fun f =>
    { f with switchId := id, idDefault := d.savedSwitch.isNone, hashSeed := id.setWidth 16 }

end Sys2Proof.Machine
end

