-- ==== Sys2Proof/Machine/SlotPower.lean ====
section
/-!
DEFINITION. Meanings of slot power and hot insertion (chapter 10).
-/

namespace Sys2Proof.Machine

/-! ### Group 0x0A commands -/

/-- A group 0x0A command runs while the booth controller does; during a restart Efnuquin sends it again until it is acknowledged (Table 14.9), so it stays in its mailbox. -/
def runSlot (c : CmdSpec) (body : State → Nat → Nat → CmdResult) (n : Nat) (s : State) : State :=
  if s.slots.restarting then s else runCmd c body n s

/-- A channel that a mailbox may name (R365). -/
def State.onChan (s : State) (n c : Nat) (k : CmdResult) : CmdResult :=
  if privilegedMb n || (s.portsOfSlot c).any (fun p => s.mayName n (s.portOwner p)) then k else .fail stNotPermitted 0

/-- A payload value, where 0 keeps what is set. -/
def keep0 (v old : Nat) : Nat := if v = 0 then old else v

/-- R366: SLOT_CONFIG. -/
def execSlotConfig (mb : Mb) (s : State) : Out :=
  .next (runSlot { opcode := 0x0A00, priv := true, len := fun _ => 12,
                   fields := [(0, 6), (6, 1), (7, 1), (8, 1), (16, 8), (24, 7), (32, 10), (42, 10), (52, 10), (64, 4), (68, 1)],
                   checks := fun pl =>
                     [(0, decide (fld pl 0 6 < 48)), (16, decide (fld pl 16 8 = 0 ∨ (10 ≤ fld pl 16 8 ∧ fld pl 16 8 ≤ 200))),
                      (24, decide (fld pl 24 7 ≤ 100)), (32, decide (fld pl 32 10 ≤ 1000)), (42, decide (fld pl 42 10 ≤ 1000)),
                      (52, decide (fld pl 52 10 = 0 ∨ (5 ≤ fld pl 52 10 ∧ fld pl 52 10 ≤ 1000)))] }
    (fun s pl _ =>
      let o := (s.chan (fld pl 0 6)).set
      .done (s.setChan (fld pl 0 6)
        { enable := bitOf pl 6, autoOn := bitOf pl 7, hostPower := bitOf pl 8, vLim := keep0 (fld pl 16 8) o.vLim,
          breaker := keep0 (fld pl 24 7) o.breaker, prechargeMax := keep0 (fld pl 32 10) o.prechargeMax, pgDelay := keep0 (fld pl 42 10) o.pgDelay,
          pfwLead := keep0 (fld pl 52 10) o.pfwLead, retryMax := if bitOf pl 68 then fld pl 64 4 else o.retryMax }) []) mb.val s)

/-- CLEAR_LOCKOUT (Table 10.4): the fence of the channel is released, and presence and ENABLE decide the state. -/
def State.clearLockout (s : State) (c : Nat) : State :=
  let u := unitOf 9 c
  let s0 := match s.faults.fences.find? (fun f => decide (f.unit = u)) with
    | some f => (s.modFaults fun x => { x with fences := x.fences.filter fun g => decide (g.unit ≠ u) }).evFence f true (s.slotOwners c)
    | none => s
  let x := s0.chan c
  if x.set.enable = false then s0.chanTo c .disabled scCommand
  else if x.present then (s0.chanTo c .ready scCommand).autoStart c
  else s0.chanEmpty c scCommand

/-- SLOT_POWER on a channel (R367). -/
def State.slotPower (s : State) (c action : Nat) : CmdResult :=
  let g := (s.chan c).state
  let zero (t : State) : State := t.modChan c fun x => { x with retry := 0 }
  match action with
  | 0 => if g = .ready then .done (s.requestStart c) [] else if g.powered then .done s [] else .fail stBadState 0
  | 1 =>
    if g.powered then .done ((zero s).warnOff c scCommand) []
    else if g = .retryWait then .done ((zero s).chanTo c .ready scCommand) []
    else .done s []
  | 2 => if g = .latched then .done (((zero s).chanTo c .ready scCommand).autoStart c) [] else .fail stBadState 0
  | 3 => if g = .lockout then .done (s.clearLockout c) [] else .fail stBadState 0
  | _ => if g = .retryWait then .done (s.retryReady c scCommand) [] else .fail stBadState 0

/-- R367: SLOT_POWER. -/
def execSlotPower (mb : Mb) (s : State) : Out :=
  .next (runSlot { opcode := 0x0A01, priv := true, len := fun _ => 2, fields := [(0, 6), (8, 3)],
                   checks := fun pl => [(0, decide (fld pl 0 6 < 48)), (8, decide (fld pl 8 3 ≤ 4))] }
    (fun s pl _ => s.slotPower (fld pl 0 6) (fld pl 8 3)) mb.val s)

/-- The remaining off-time or hold-off of a channel in ms. -/
def State.slotRemaining (s : State) (c : Nat) : Nat :=
  let x := s.chan c
  let left := if x.state = .retryWait then x.offEnd - s.now else x.holdOffEnd - s.now
  min (left / 1000000) (2 ^ 20 - 1)

/-- R365: SLOT_QUERY (Table 10.10, R364). -/
def execSlotQuery (mb : Mb) (s : State) : Out :=
  .next (runSlot { opcode := 0x0A02, priv := false, query := true, len := fun _ => 1, fields := [(0, 6)],
                   checks := fun pl => [(0, decide (fld pl 0 6 < 48))] }
    (fun s pl _ =>
      let c := fld pl 0 6
      let x := s.chan c
      s.onChan mb.val c (.done s (packVals [(x.state.code, 1), (x.cause.toNat, 1), (min x.retry 15, 1), (s.slotRemaining c, 3), (b2n x.present, 1),
        (b2n x.pg, 1), (b2n (!s.pfwAsserted c), 1), (b2n x.set.enable, 1), (b2n x.set.autoOn, 1), (b2n x.set.hostPower, 1), (x.sample.vin.toNat, 2),
        (x.sample.out.toNat, 2), (x.sample.vgs.toNat, 2), (x.sample.vsense.toNat, 2), (x.tripCause.toNat, 1)]))) mb.val s)

/-- R368: SLOT_BUS_CONFIG. -/
def execSlotBusConfig (mb : Mb) (s : State) : Out :=
  .next (runSlot { opcode := 0x0A03, priv := true, len := fun _ => 5, fields := [(0, 8), (8, 8), (16, 6), (24, 8), (32, 1)],
                   checks := fun pl =>
                     [(0, decide (fld pl 0 8 = 0 ∨ (144 ≤ fld pl 0 8 ∧ fld pl 0 8 ≤ 224))),
                      (8, decide (fld pl 8 8 = 0 ∨ 120 ≤ fld pl 8 8)), (16, decide (fld pl 16 6 ≤ 48))] }
    (fun s pl _ =>
      let o := s.slots.bus
      let w := keep0 (fld pl 0 8) o.warnLevel
      let r := keep0 (fld pl 8 8) o.resetLevel
      if w < r + 8 then .fail stInvalidField (if fld pl 8 8 = 0 then 0 else 8)
      else .done (s.modSlots fun x => { x with
        bus := { warnLevel := w, resetLevel := r, startLimit := keep0 (fld pl 16 6) o.startLimit,
                 staggerGap := if bitOf pl 32 then fld pl 24 8 else o.staggerGap } }) []) mb.val s)

/-- R365: SLOT_BUS_QUERY (Table 10.10); VFEED_MIN restarts. -/
def execSlotBusQuery (mb : Mb) (s : State) : Out :=
  .next (runSlot { opcode := 0x0A04, priv := true, query := true }
    (fun s _ _ =>
      let x := s.slots
      .done (s.modSlots fun x => { x with vfeedMin := x.vfeed })
        (bytesOf 5 (packBits [(x.vfeed.toNat, 16), (x.vfeedMin.toNat, 16), (b2n x.warning, 1), (b2n x.cut, 1)]))) mb.val s)

/-- R361: SLOT_ATTENTION. -/
def execSlotAttention (mb : Mb) (s : State) : Out :=
  .next (runSlot { opcode := 0x0A05, priv := true, len := fun _ => 1, fields := [(0, 6)], checks := fun pl => [(0, decide (fld pl 0 6 < 48))] }
    (fun s pl _ =>
      if s.chanMapped (fld pl 0 6) then .done (s.modChan (fld pl 0 6) fun x => { x with attention := true }) [] else .fail stBadState 0) mb.val s)

/-- R369: SLOT_PROFILE_SAVE. -/
def execSlotProfileSave (mb : Mb) (s : State) : Out :=
  .next (runSlot { opcode := 0x0A06, priv := true }
    (fun s _ _ => .done (s.modSlots fun x => { x with
      profile := some { bus := x.bus, chans := (List.range 48).foldl (fun t c => Tab.put {} t c (s.chan c).set) [],
                        seq := (match x.profile with | some p => p.seq + 1 | none => 0) } }) []) mb.val s)

/-- The counters of Table 10.6 in its order. -/
def ChanCounters.list (k : ChanCounters) : List Nat :=
  [k.attempts, k.tripsFast, k.tripsBreaker, k.tripsOther, k.latches, k.lockouts, k.insertions, k.removals, k.shortAbsences]

/-- R363: SLOT_COUNTERS_READ. -/
def execSlotCountersRead (mb : Mb) (s : State) : Out :=
  .next (runSlot { opcode := 0x0A07, priv := false, query := true, len := fun _ => 1, fields := [(0, 6), (6, 1), (7, 1)],
                   checks := fun pl => [(0, bitOf pl 6 || decide (fld pl 0 6 < 48))] }
    (fun s pl _ =>
      let c := fld pl 0 6
      if bitOf pl 6 then
        if privilegedMb mb.val then
          .done (if bitOf pl 7 then s.modSlots fun x => { x with busWarnings := 0, busCuts := 0 } else s)
            (packCounters [s.slots.busWarnings, s.slots.busCuts])
        else .fail stNotPermitted 0
      else
        s.onChan mb.val c (.done (if bitOf pl 7 then s.modChan c fun x => { x with counters := {} } else s)
          (packCounters (s.chan c).counters.list))) mb.val s)

/-! ### Events of a channel -/

/-- R361: SLOT_CONTROL_WRITE. Host Slot Control writes are unavailable while the mailboxes are (R360). -/
def execSlotControlWrite (vh : VhNo) (k : VdspNo) (v : BitVec 16) (s : State) : Out :=
  .next (if s.mgmt.available && s.boothRuns then s.slotControl vh.val k.val v else s)

/-- An event of a channel acts while the booth controller runs and the channel is in one of the states given. -/
def State.chanEvent (s : State) (c : Nat) (ok : ChanState → Bool) (f : State → State) : Out :=
  .next (if s.boothRuns && ok (s.chan c).state then f s else s)

/-- R352: PRESENCE_CHANGE. Presence sampling stops while the booth controller restarts (R359). -/
def execPresenceChange (c : ChanNo) (high : Bool) (s : State) : Out :=
  s.chanEvent c.val (fun _ => true) fun s => s.presenceLevel c.val high

/-- R348, R353: INSERTION_DEBOUNCE_END: PRSNT_N has been low for 250 ms; while the hold-off runs INSERTING goes on. -/
def execInsertionDebounceEnd (c : ChanNo) (s : State) : Out :=
  s.chanEvent c.val (· == .inserting) fun s =>
    if s.now < (s.chan c.val).holdOffEnd then s.modChan c.val fun x => { x with debounced := true } else s.inserted c.val

/-- R352: ABSENCE_DECLARED: PRSNT_N has been high for 100 ms. -/
def execAbsenceDeclared (c : ChanNo) (s : State) : Out :=
  s.chanEvent c.val (fun _ => (s.chan c.val).prsntHigh && !(s.chan c.val).absent) fun s => s.absence c.val

/-- R352: PFW_RELEASE_DELAY_END. -/
def execPfwReleaseDelayEnd (c : ChanNo) (s : State) : Out :=
  s.chanEvent c.val (fun _ => !(s.chan c.val).prsntHigh) fun s => s.modChan c.val fun x => { x with pfwPresence := false }

/-- R353: HOLD_OFF_EXPIRY. The hold-off counts time alone and runs on through a booth restart (R359). -/
def execHoldOffExpiry (c : ChanNo) (s : State) : Out :=
  let s1 := s.modChan c.val fun x => { x with holdOffEnd := 0 }
  .next (if s.boothRuns && (s.chan c.val).state == .inserting && (s.chan c.val).debounced then s1.inserted c.val else s1)

/-- The channel whose request is granted next: the oldest, and the lowest number among equals (R358). -/
def State.nextRequest (s : State) : Option Nat :=
  leastBy (fun c => (s.chan c).request.getD 0) ((List.range 48).filter fun c => (s.chan c).request.isSome && (s.chan c).state == .ready)

/-- R358: START_GRANT: STAGGER_GAP has passed since the last grant. -/
def execStartGrant (s : State) : Out :=
  let busy := ((List.range 48).filter fun c => (s.chan c).state == .precharge || (s.chan c).state == .gateRise).length
  .next (if s.boothRuns && !s.slots.warning && decide (busy < s.slots.bus.startLimit) then
      match s.nextRequest with
      | none => s
      | some c => (s.modSlots fun x => { x with lastGrant := some s.now }).chanTo c .precharge 0
    else s)

/-- R348: PRECHARGE_COMPLETE. -/
def execPrechargeComplete (c : ChanNo) (s : State) : Out := s.chanEvent c.val (· == .precharge) fun s => s.chanTo c.val .gateRise 0

/-- R348: PRECHARGE_TIMEOUT. -/
def execPrechargeTimeout (c : ChanNo) (s : State) : Out := s.chanEvent c.val (· == .precharge) fun s => s.trip c.val 0x03

/-- R348: GATE_RISE_COMPLETE. -/
def execGateRiseComplete (c : ChanNo) (s : State) : Out := s.chanEvent c.val (· == .gateRise) fun s => s.chanTo c.val .stabilising 0

/-- R351: GATE_NO_RISE. -/
def execGateNoRise (c : ChanNo) (s : State) : Out := s.chanEvent c.val (· == .gateRise) fun s => s.lockoutChan c.val 0x04

/-- R349: POWER_GOOD: the stable count reaches PG_DELAY; a breaker timer that runs wins. -/
def execPowerGood (c : ChanNo) (s : State) : Out :=
  s.chanEvent c.val (fun g => g == .stabilising && !(s.chan c.val).breakerOn) fun s => s.chanTo c.val .on 0

/-- R348: STABILISE_TIMEOUT. -/
def execStabiliseTimeout (c : ChanNo) (s : State) : Out := s.chanEvent c.val (· == .stabilising) fun s => s.trip c.val 0x06

/-- R349: BREAKER_TIMER_START: ON falls back to STABILISING with PG low. -/
def execBreakerTimerStart (c : ChanNo) (s : State) : Out :=
  s.chanEvent c.val ChanState.powered fun s =>
    let s1 := s.modChan c.val fun x => { x with breakerOn := true }
    if (s.chan c.val).state = .on then s1.chanTo c.val .stabilising 0 else s1

/-- R344: BREAKER_RESET. -/
def execBreakerReset (c : ChanNo) (s : State) : Out :=
  s.chanEvent c.val (fun _ => true) fun s => s.modChan c.val fun x => { x with breakerOn := false }

/-- R348: BREAKER_EXPIRY. -/
def execBreakerExpiry (c : ChanNo) (s : State) : Out :=
  s.chanEvent c.val (fun g => g.powered && (s.chan c.val).breakerOn) fun s => s.trip c.val 0x01

/-- R342: FAST_TRIP. During a booth restart it acts on the latches, and the booth controller takes the trip when it resumes (R359; DEDUCED, log entry 37). -/
def execFastTrip (c : ChanNo) (s : State) : Out :=
  let x := s.chan c.val
  if s.slots.restarting then
    .next (if x.qp || x.qm then s.modChan c.val fun x => { x with qp := false, qm := false, fastLatched := true } else s)
  else s.chanEvent c.val (fun g => g.powered || g == .warnOff) fun s => s.trip c.val 0x02

/-- R348: GATE_LOSS. -/
def execGateLoss (c : ChanNo) (s : State) : Out := s.chanEvent c.val (· == .on) fun s => s.trip c.val 0x05

/-- R355: PFW_LEAD_EXPIRY. -/
def execPfwLeadExpiry (c : ChanNo) (s : State) : Out :=
  s.chanEvent c.val (· == .warnOff) fun s => s.chanOff c.val (s.chan c.val).offCause

/-- R350: RETRY_WAIT_EXPIRY. One that falls in a booth restart takes effect when the booth controller resumes (R359). -/
def execRetryWaitExpiry (c : ChanNo) (s : State) : Out :=
  if s.slots.restarting then .next (s.modChan c.val fun x => { x with offEnd := min x.offEnd s.now })
  else s.chanEvent c.val (· == .retryWait) fun s => s.retryReady c.val 0

/-- R351: RETRY_COUNT_CLEAR. -/
def execRetryCountClear (c : ChanNo) (s : State) : Out :=
  s.chanEvent c.val (· == .on) fun s => s.modChan c.val fun x => { x with retry := 0 }

/-! ### The input bus -/

/-- R356: INPUT_BUS_WARNING. -/
def execInputBusWarning (vfeed : BitVec 16) (s : State) : Out :=
  .next (if s.boothRuns then
      let s1 := s.modSlots fun x => x.sampled vfeed
      if s.slots.warning then s1
      else ((s1.modSlots fun x => { x with busWarnings := inc48 x.busWarnings }).assertWarning vfeed false).report slotBusSource 0x10 0
    else s)

/-- R356: WARNING_RELEASE. -/
def execWarningRelease (vfeed : BitVec 16) (s : State) : Out :=
  .next (if s.boothRuns then
      let s1 := s.modSlots fun x => x.sampled vfeed
      if s.slots.warning then
        (s1.modSlots fun x => { x with warning := false }).evSlotBus 1 false s1.slots.warnMin ((s.now - s.slots.warnSince) / 1000000)
      else s1
    else s)

/-- R357: BUS_CUT. -/
def execBusCut (vfeed : BitVec 16) (s : State) : Out :=
  .next (if s.boothRuns then
      let s1 := s.modSlots fun x => { x.sampled vfeed with cut := true, busCuts := inc48 x.busCuts }
      let s2 := s1.each (List.range 48) fun t c =>
        let g := (t.chan c).state
        if g.powered then t.chanTo c .busCut scBusCut else if g = .warnOff then t.chanOff c (t.chan c).offCause else t
      (s2.evSlotBus 2 false vfeed 0).report slotBusSource 0x11 (scBusCut.setWidth 64)
    else s)

/-- R357: BUS_RECOVERY: the channels cut become READY and those with AUTO_ON request a start together. -/
def execBusRecovery (vfeed : BitVec 16) (s : State) : Out :=
  .next (if s.boothRuns then
      let s1 := (s.modSlots fun x => { x.sampled vfeed with cut := false }).evSlotBus 3 false vfeed 0
      let l := (List.range 48).filter fun c => (s1.chan c).state == .busCut
      let s2 := s1.each l fun t c =>
        let t1 := t.chanTo c .ready 0
        if (t1.chan c).set.autoOn then t1.requestAt c t1.slots.nextReq else t1
      s2.modSlots fun x => { x with nextReq := x.nextReq + 1 }
    else s)

/-- R363: SLOT_SAMPLE. -/
def execSlotSample (c : ChanNo) (x : SlotSample) (vfeed : BitVec 16) (s : State) : Out :=
  .next (if s.boothRuns then (s.modChan c.val fun y => { y with sample := x }).modSlots fun y => y.sampled vfeed else s)

/-- R359: LATCH_RELEASE: 50 ms into a booth restart every gate turns off and PG goes low; PFW_N is asserted. -/
def execLatchRelease (s : State) : Out :=
  .next (if s.slots.restarting then
      (s.each (List.range 48) fun t c => t.modChan c fun x => { x with qp := false, qm := false, pg := false }).modSlots fun x =>
        { x with released := true }
    else s)

end Sys2Proof.Machine
end

