-- ==== Sys2Proof/Machine/PowerStates.lean ====
section
/-!
DEFINITION. Meanings of the group 0x0E commands (R470 to R482) and of Quad Sleep, Ring resets and Intermission as they run.
-/

namespace Sys2Proof.Machine

/-! ### Quad Sleep (R471 to R473) -/

/-- A port in Quad Sleep wakes; a wake after SLEEP_GO was sent completes the entry and starts at once (R473). -/
def State.wakePort (s : State) (p : Nat) : State :=
  if (s.port p).stage = .sleep then s.modPort p fun x => { x with waking := true }
  else if (s.link p).sleep.goSent then s.modLink p fun l => { l with sleep := { l.sleep with wakePending := true } }
  else s

/-- PWR_STATE_SET SLEEP of a port (R482). -/
def State.sleepPort (s : State) (p : Nat) : CmdResult :=
  if (s.port p).stage = .sleep then .done s []
  else if s.portHeld s.underTest p then .fail stBusy 0
  else if (s.port p).pcie ∨ (s.port p).stage ≠ .active ∨ (s.link p).maySleep = false then .fail stBadState 0
  else .done (s.modLink p Link.sleepRequest) []

/-- R471: IDLE_SLEEP_TIMEOUT: a port with IDLE_SLEEP requests entry. -/
def execIdleSleepTimeout (p : PortNo) (s : State) : Out :=
  s.portEvent p.val (fun x => !x.pcie && x.stage == .active && decide ((s.link p.val).sleep.idleUs ≠ 0)) fun s => s.modLink p.val Link.sleepRequest

/-- R471: SLEEP_ANSWER_TIMEOUT: the entry is abandoned. -/
def execSleepAnswerTimeout (p : PortNo) (s : State) : Out :=
  s.portEvent p.val (fun x => x.stage == .active && (s.link p.val).sleep.busy && !(s.link p.val).sleep.goRcvd) fun s =>
    s.modLink p.val fun l => { l with sleep := { l.sleep.resume with abandoned := inc48 l.sleep.abandoned } }

/-- R471: SLEEP_NAK_BACKOFF_END. -/
def execSleepNakBackoffEnd (p : PortNo) (s : State) : Out :=
  s.portEvent p.val (fun _ => true) fun s => s.modLink p.val fun l => { l with sleep := { l.sleep with backoff := false } }

/-- R473: WAKE_PULSE_DETECT. -/
def execWakePulseDetect (p : PortNo) (s : State) : Out := s.portEvent p.val (fun x => !x.pcie && x.stage == .sleep) fun s => s.wakePort p.val

/-- R473: SLEEP_WAKE. -/
def execSleepWake (p : PortNo) (s : State) : Out := s.portEvent p.val (fun x => !x.pcie) fun s => s.wakePort p.val

/-! ### Quads and Rings -/

/-- PWR_STATE_SET ON of a quad (R482, Table 15.2). An unused quad is held in Quad Off (R44). -/
def State.quadOnCmd (s : State) (q : Nat) : CmdResult :=
  if quadHeld s.fenced q ∨ s.ringIsOff (ringOf q) then .fail stBadState 0
  else if quadHeld s.marked q then .fail stUnusable 0
  else if (s.portsOfQuad q).isEmpty then .done s []
  else .done (s.powerQuad q) []

/-- PWR_STATE_SET OFF of a quad (R442, R482). -/
def State.quadOffCmd (s : State) (q : Nat) : CmdResult :=
  if quadHeld s.underTest q then .fail stBusy 0
  else if Tab.get false s.power.quadOn q = false then .done s []
  else if s.quadIdle q then .done (s.quadOff q) []
  else .fail stBadState 0

/-- The quads and PUs of a Ring; its middle buffers have the same numbers. -/
def ringPus (r : Nat) : List Nat := (List.range 8).map fun k => 8 * r + k

/-- The configured ports of a Ring. -/
def State.ringPorts (s : State) (r : Nat) : List Nat := s.allPorts.filter fun p => (s.quadsOf p).any fun q => decide (ringOf q = r)

/-- Counters, monitors and captured values of the units of a Ring return to 0 (code S of Table 14.8). -/
def State.clearRing (s : State) (r : Nat) : State :=
  let s1 := s.each (ringPus r) fun t q => (t.clearPu q).modMid q fun b => { b with hwm := 0 }
  let s2 := s1.each ((List.range 32).map fun k => 32 * r + k) fun t j => t.modJuggler j fun x => { x with synthCpl := 0, steps := [0, 0, 0, 0, 0] }
  s2.modBist fun b =>
    { b with
      pmons := b.pmons.filter fun e => pmonRing e.1 ≠ some r
      snaps := b.snaps.filter fun e => pmonRing e.1 ≠ some r
      marksSnap := b.marksSnap.filter fun e => ringOf (leadOf e.1) ≠ r }

/-- Ring Off: its middle buffers drain and are then skipped, and homes, work and rings leave it (R28, R29). -/
def State.ringDown (s : State) (r : Nat) : State :=
  let s1 := s.modPower fun x => { x with ringOff := Tab.put false x.ringOff r true }
  let s2 := s1.each (ringPus r) fun t m => t.modMid m fun b => if b.state = .inService then { b with state := .draining, drained := 0, forOff := true } else b
  s2.updateService.checkLapses

/-- Ring Off ends: its quads stay in Quad Off, and its gate lists start again. -/
def State.ringUp (s : State) (r : Nat) : State :=
  let s1 := (s.modPower fun x => { x with ringOff := Tab.put false x.ringOff r false }).clearRing r
  (s1.restartGates (s1.ringPorts r)).updateService.checkLapses

/-- PWR_STATE_SET OFF of a Ring (R28, R442, R482). -/
def State.ringOffCmd (s : State) (r : Nat) : CmdResult :=
  if s.testsActive.any fun u => testRing u == some r then .fail stBusy 0
  else if s.ringIsOff r then .done s []
  else if (ringPus r).any fun q => Tab.get false s.power.quadOn q then .fail stBadState 0
  else .done (s.ringDown r) []

/-! ### Intermission (R474) -/

/-- Loopbacks, generators and checkers of a port are cleared. -/
def State.clearDiag (s : State) (p : Nat) : State :=
  (s.modPort p fun x => { x with loopback := 0 }).modLanes p fun l => { l with genEn := false, chkEn := false, prbsSync := false }

/-- PWR_STATE_SET INTERMISSION (R474): EV_POWER_STATE with target, INDEX and state, and every port down. -/
def State.enterInter (s : State) : CmdResult :=
  if s.testsActive ≠ [] ∨ s.mgmt.update.isSome ∨ s.mgmt.cal.importCount ≠ 0 then .fail stBusy 0
  else
    let s1 := (s.modPower fun x => { x with inter := .entering }).raise 0x0E00 [(3, 1), (0, 1), (4, 1)] []
    let s2 := s1.each s1.allPorts fun t p => (t.disable p rsAdmin).clearDiag p
    .done ((s2.pwEndWork .a true).pwEndWork .b true) []

/-- R474, R478: INTERMISSION_DRAIN_END: the retention store is written and the rails are switched off. Fault severities and ALIVE go on (R417, Table 12.9). -/
def execIntermissionDrainEnd (s : State) : Out :=
  .next (if s.running && decide (s.power.inter = .entering) then
      let s1 := s.coreReset
      let s2 := { s1 with
        mgmt := { s1.mgmt with stage := stageIntermission }
        faults := { s1.faults with severity := s.faults.severity, ffrLevel := s.faults.ffrLevel, aliveRunning := s.faults.aliveRunning }
        power := { s1.power with retention := some s.retain, inter := .railsFalling, interSince := s.now, boot := .wake } }
      s2.railsOff .downIntermission
    else s)

/-- R476: WAKE_N_EDGE. -/
def execWakeNEdge (s : State) : Out := .next (s.wake 1)

/-- R476: WAKE_TIMER_EXPIRY, in Intermission with a WAKE_TIMER. -/
def execWakeTimerExpiry (s : State) : Out :=
  .next (if s.power.wakeTimer ≠ 0 ∧ s.power.inter ≠ .no then s.wake 4 else s)

/-! ### Group 0x0E commands -/

/-- The pairs of TARGET and ACTION of Table 14.11. -/
def powerPair (target action : Nat) : Bool :=
  decide ((target, action) ∈ ([(0, 0), (0, 1), (1, 0), (1, 2), (2, 0), (2, 2), (3, 0), (3, 3)] : List (Nat × Nat)))

/-- R470, R482: PWR_STATE_SET. -/
def execPwrStateSet (mb : Mb) (s : State) : Out :=
  .next (runCmd { opcode := 0x0E00, priv := true, len := fun _ => 2, fields := [(0, 2), (2, 7), (9, 3)],
                  checks := fun pl => [(2, decide (fld pl 0 2 ≠ 2 ∨ fld pl 2 7 < 16)), (9, powerPair (fld pl 0 2) (fld pl 9 3))] }
    (fun s pl _ =>
      let i := fld pl 2 7
      let on := decide (fld pl 9 3 = 0)
      match fld pl 0 2 with
      | 0 => s.onPort mb.val i 0 2 fun p => if on then .done (s.wakePort p) [] else s.sleepPort p
      | 1 => if on then s.quadOnCmd i else s.quadOffCmd i
      | 2 => if on then .done (if s.ringIsOff i then s.ringUp i else s) [] else s.ringOffCmd i
      | _ => if on then .done s [] else s.enterInter) mb.val s)

/-- The power state of a quad: 0 Active, 1 Quad Sleep, 2 Quad Off, 3 Ring Off (Table 14.4). -/
def State.quadPower (s : State) (q : Nat) : Nat :=
  if s.ringIsOff (ringOf q) then 3
  else if Tab.get false s.power.quadOn q = false then 2
  else if (s.portsOfQuad q).any fun p => decide ((s.port p).stage = .sleep) then 1
  else 0

/-- R481: PWR_QUERY. The module, which the table does not name, answers Active (log entry 66). -/
def execPwrQuery (mb : Mb) (s : State) : Out :=
  .next (runCmd { opcode := 0x0E01, priv := false, query := true, len := fun _ => 2, fields := [(0, 2), (2, 7), (9, 1)],
                  checks := fun pl => [(2, decide (fld pl 0 2 ≠ 2 ∨ fld pl 2 7 < 16))] }
    (fun s pl _ =>
      let i := fld pl 2 7
      match fld pl 0 2 with
      | 0 => s.onPort mb.val i 0 2 fun p =>
          let x := (s.link p).sleep
          .done (if bitOf pl 9 then s.modLink p fun l => { l with sleep := { l.sleep with entries := 0, abandoned := 0 } } else s)
            (packVals [(((s.quadsOf p).map s.quadPower).foldl max 0, 1), (x.entries, 8), (x.abandoned, 8)])
      | 1 => s.onPu mb.val i (.done s (packVals [(s.quadPower i, 1)]))
      | 2 => if privilegedMb mb.val then .done s (packVals [(if s.ringIsOff i then 3 else 0, 1)]) else .fail stNotPermitted 0
      | _ => if privilegedMb mb.val then .done s (packVals [(0, 1)]) else .fail stNotPermitted 0) mb.val s)

/-- R461: SYS_RESET: the warm reset begins 1 ms later, as WARM_RESET. -/
def execSysReset (mb : Mb) (s : State) : Out :=
  .next (runCmd { opcode := 0x0E02, priv := true } (fun s _ _ => .done (s.modPower fun x => { x with warmDue := true }) []) mb.val s)

/-- Descriptor rings leave the Jugglers of a Ring at their next descriptor boundary, as for units under test (R463, Table 13.1). -/
def State.moveRingsOut (s : State) (r : Nat) : State :=
  s.each (s.ringsWith fun x => decide (x.juggler / 32 = r) && decide (x.state ≠ .disabled) && decide (x.state ≠ .error)) fun t id =>
    match t.moverRing id with
    | none => t
    | some x => (t.modMover id fun y => { y with moveTo := t.placeOn x.port (t.ringOwner x) }).moveRing id

/-- Lane adaptation of a port is lost (R465). -/
def State.dropAdaptation (s : State) (p : Nat) : State :=
  s.modLanes p fun l =>
    { fixed := l.fixed, threshold := l.threshold, symErr := l.symErr, bitErr := l.bitErr, cwCorr := l.cwCorr, cwUncorr := l.cwUncorr, window := l.window,
      alarm := l.alarm }

/-- A Ring reset (R463): homes, work and rings leave, its ports go down, its middle buffers drain, its units are reset, and 16 periods of discards follow.
A home that has moved stays where it is (R23). -/
def State.resetRingUnits (s : State) (r : Nat) : State :=
  let off := s.power.ringOff
  let s1 := ((s.modPower fun x => { x with ringOff := Tab.put false x.ringOff r true }).moveRingsOut r).updateHomes.updateMoves
  let s2 := s1.modPower fun x => { x with ringOff := off }
  let s3 := s2.each (s2.ringPorts r) fun t p => (t.disable p rsAdmin).clearDiag p
  let s4 := (s3.each (ringPus r) State.midOut).clearRing r
  let s5 := s4.each (s4.ringPorts r) fun t p => t.modLanes p Lane.unpowered
  let s6 := (s5.modBist fun b => { b with records := b.records.filter fun e => match e.2 with | some x => testRing x.unit ≠ some r | none => true }).modPower
    fun x => { x with ringDiscard := Tab.put false x.ringDiscard r true }
  ((s6.restartGates (s6.ringPorts r)).autoUp (s6.ringPorts r)).updateService.checkLapses

/-- R463: RING_RESET. -/
def execRingReset (mb : Mb) (s : State) : Out :=
  .next (runCmd { opcode := 0x0E03, priv := true, len := fun _ => 1, fields := [(0, 4)] }
    (fun s pl _ =>
      let r := fld pl 0 4
      if s.testsActive.any fun u => testRing u == some r then .fail stBusy 0 else .done ((s.resetRingUnits r).evReset 4 2) []) mb.val s)

/-- R463: RING_RESET_DISCARD_END. -/
def execRingResetDiscardEnd (r : RingNo) (s : State) : Out :=
  .next (s.modPower fun x => { x with ringDiscard := Tab.put false x.ringDiscard r.val false })

/-- A port reset (R465). -/
def State.resetPort (s : State) (p : Nat) : State := (((s.disable p rsAdmin).clearDiag p).dropAdaptation p).autoUp [p]

/-- R465: PORT_RESET. -/
def execPortReset (mb : Mb) (s : State) : Out :=
  .next (runCmd { opcode := 0x0E04, priv := true, len := fun _ => 2, fields := [(0, 8), (8, 1)] }
    (fun s pl _ => s.onPort mb.val (fld pl 0 8) (fld pl 8 1) 0 fun p => .done (s.resetPort p) []) mb.val s)

/-- R464: VH_RESET. -/
def execVhReset (mb : Mb) (s : State) : Out :=
  .next (runCmd { opcode := 0x0E05, priv := true, len := fun _ => 1, fields := [(0, 7)] }
    (fun s pl _ =>
      match Tab.get none s.policy.vh (fld pl 0 7) with
      | none => .fail stInvalidField 0
      | some _ => .done (s.vhReset (fld pl 0 7)) []) mb.val s)

/-- R460: BOOTH_RESTART. -/
def execBoothRestart (mb : Mb) (s : State) : Out :=
  .next (runCmd { opcode := 0x0E06, priv := true } (fun s _ _ => .done s.boothRestart []) mb.val s)

/-- R476: WAKE_CONFIG. -/
def execWakeConfig (mb : Mb) (s : State) : Out :=
  .next (runCmd { opcode := 0x0E07, priv := true, len := fun _ => 4, fields := [(0, 5), (16, 16)] }
    (fun s pl _ =>
      .done (s.modPower fun x => { x with wakeMask := fbv pl 0 5, wakeTimer := keep0 (fld pl 16 16) x.wakeTimer }) []) mb.val s)

/-- R471: SLEEP_CONFIG. -/
def execSleepConfig (mb : Mb) (s : State) : Out :=
  .next (runCmd { opcode := 0x0E08, priv := true, len := fun _ => 4, fields := [(0, 8), (8, 16), (24, 1)] }
    (fun s pl _ =>
      s.onNative mb.val (fld pl 0 8) 0 fun p =>
        .done (s.modLink p fun l => { l with sleep := { l.sleep with idleUs := fld pl 8 16, noSleep := bitOf pl 24 } }) []) mb.val s)

end Sys2Proof.Machine
end

