-- ==== Sys2Proof/Machine/Resets.lean ====
section
/-!
DEFINITION. Meanings of the resets of the module (R460, R461, R466, R495), of the rails (R467 to R469, R503) and of boot (R395, R396, R478).
-/

namespace Sys2Proof.Machine

/-! ### Resets of the module -/

/-- R460: POWER_ON: the booth controller starts (Table 14.3). -/
def execPowerOn (s : State) : Out :=
  .next (if s.power.started then s else (s.modPower fun x => { x with started := true, boot := .powerOn }).newNonce.boothStart)

/-- R460, R466: COLD_RESET. The event log and the slot channels live on; the booth controller restarts with every PWR_EN low. -/
def execColdReset (s : State) : Out :=
  .next (if s.power.started then
      let s1 := s.coreReset
      let s2 := { s1 with
        mgmt := { s1.mgmt with serialPtr := 0, serialData := [], serialAck := false }
        car := {}, bist := {}
        sideband := { hostIn := s1.sideband.hostIn, herIn := s1.sideband.herIn }
        faults := { s1.faults with ffr := none, firstFatal := none, aliveLevel := false }
        power := { started := true, boot := .cold, refclkAo := s1.power.refclkAo, refclkCore := s1.power.refclkCore } }
      (s2.evReset 1 0).newNonce.boothRestart
    else s)

/-- R461: WARM_RESET, by SYS_RST_N or as SYS_RESET scheduled it. -/
def execWarmReset (s : State) : Out :=
  .next (if s.power.coreOn then
      (s.coreReset.modPower fun x => { x with boot := .warm }).evReset 2 (if s.power.warmDue then 2 else 1)
    else s)

/-- R495: SUPPLY_BROWNOUT: the Selvedge is held in reset; flash, fuses, calibration store and the levels on pins remain. -/
def execSupplyBrownout (s : State) : Out :=
  let m := s.mgmt.coreReset s.now
  .next { State.reset with
    pending := s.pending, now := s.now, free := s.free, part := s.part
    mgmt := { dir0 := m.dir0, dir1 := m.dir1, imageA := m.imageA, imageB := m.imageB, fusedSvn := m.fusedSvn, lastChecked := m.lastChecked, cal := m.cal,
              unavailableAt := s.now }
    pwA := s.pwA.coreReset, pwB := s.pwB.coreReset
    sideband := { hostIn := s.sideband.hostIn, herIn := s.sideband.herIn }
    slots := { profile := s.slots.profile, vfeed := s.slots.vfeed
               chans := Tab.mapAll {} s.slots.chans fun x => { prsntHigh := x.prsntHigh, absent := x.prsntHigh, sample := x.sample } } }

/-- R359, R466: BOOTH_RESUME. After a cold reset the booth controller then starts as at power-on (R460). -/
def execBoothResume (prsnt : BitVec 48) (vfeed : BitVec 16) (s : State) : Out :=
  .next (if s.slots.restarting then
      let s1 := s.boothResume prsnt vfeed
      if s.power.boot = .cold ∧ s.power.plan = .idle ∧ s.power.inter = .no then s1.boothStart else s1.loadSlotTrims
    else s)

/-! ### The start-up hold and the pre-heat step -/

/-- EV_COLD_HOLD (R481): the temperature, 0 start or 1 end, and the duration in s. -/
def State.evColdHold (s : State) (temp : Int) (ended : Bool) : State :=
  s.raise 0x0E07 [((BitVec.ofInt 16 temp).toNat, 2), (b2n ended, 1),
    ((match s.power.holdSince with | some t => if ended then (s.now - t) / 1000000000 else 0 | none => 0), 8)] []

/-- STAGE reads HELD. -/
def State.held (s : State) : State := s.modMgmt fun m => { m with stage := stageHeld }

/-- R2: COLD_HOLD_CHECK of an XM5120-LC-C: below 0 °C the rails stay off, and at 0 °C or above sequencing starts. -/
def execColdHoldCheck (temp : Int) (s : State) : Out :=
  if s.part.lcX ∨ s.slots.restarting then .next s
  else
    match s.power.plan with
    | .check =>
      .next (if temp < 0 then
          (((s.modPower fun x => { x with plan := .hold, holdSince := some s.now }).held.report 0xE04 0x01 0).evColdHold temp false)
        else s.railsOn)
    | .hold => .next (if temp < 0 then s else ((s.evColdHold temp true).modPower fun x => { x with holdSince := none }).railsOn)
    | _ => .next s

/-- The pre-heat step starts (R469): PREHEAT_N is asserted and VDD_IO is enabled. -/
def State.preheatStart (s : State) : State :=
  ((s.modPower fun x => { x.begin .preheat with preheatN := true, preheatSince := some s.now }).modMgmt fun m => { m with preheat := true }).held

/-- R3, R469: PREHEAT_CHECK of an XM5120-LC-X: the step starts at a first reading below 0 °C, and ends at the first one of 0 °C or above. -/
def execPreheatCheck (temp : Int) (s : State) : Out :=
  if s.part.lcX = false ∨ s.slots.restarting then .next s
  else
    match s.power.plan with
    | .check => .next (if temp < 0 then s.preheatStart else s.railsOn)
    | .preheat => .next (if temp < 0 then s else s.railsOff .downPreheat)
    | _ => .next s

/-- R469: PREHEAT_TIMEOUT. -/
def execPreheatTimeout (s : State) : Out := .next (if s.power.plan = .preheat then s.railsOff .downPreheatTimeout else s)

/-- R469: PREHEAT_RETRY. -/
def execPreheatRetry (s : State) : Out := .next (if s.power.plan = .preheatWait then s.preheatStart else s)

/-! ### Rails -/

/-- A rail has been enabled and its PWR_OK has not risen. -/
def State.railRising (s : State) (r : Nat) : Bool :=
  (s.power.plan == .up || s.power.plan == .preheat) && nth false s.power.en r && !nth false s.power.ok r

/-- R467: RAIL_POWER_GOOD: the next rail of the sequence is enabled; after the last one the rails are up. -/
def execRailPowerGood (r : RailNo) (s : State) : Out :=
  .next (if s.railRising r.val then
      s.modPower fun x =>
        let y := { x with ok := setAt x.ok r.val true }
        match (x.plan.order.filter fun n => decide (r.val < n)).head? with
        | some n => { y with en := setAt y.en n true }
        | none => if x.plan = .up then { y with plan := .upDone } else y
    else s)

/-- R468: RAIL_POWER_GOOD_TIMEOUT. -/
def execRailPowerGoodTimeout (r : RailNo) (s : State) : Out := .next (if s.railRising r.val then s.seqFail r.val else s)

/-- R468: RAIL_SEQUENCE_RETRY. -/
def execRailSequenceRetry (s : State) : Out := .next (if s.power.plan = .retry then s.railStart else s)

/-- R468: RAIL_POWER_FAIL. -/
def execRailPowerFail (r : RailNo) (s : State) : Out := .next (if s.power.coreOn ∧ nth false s.power.ok r.val then s.coreLost r.val else s)

/-- R503: REFCLK_CORE_LOSS, handled as a falling PWR_OK. -/
def execRefclkCoreLoss (s : State) : Out :=
  .next (if s.power.coreOn then (s.modPower fun x => { x with refclkCore := false }).coreLost 5 else s)

/-- The rails are being switched off. -/
def RailPlan.down : RailPlan → Bool
  | .downIntermission => true
  | .downFailed => true
  | .downLost => true
  | .downPreheat => true
  | .downPreheatTimeout => true
  | _ => false

/-- R467: RAIL_PWR_OK_FALL: the next rail is disabled; after the last one the core die is off. -/
def execRailPwrOkFall (r : RailNo) (s : State) : Out :=
  .next (if s.power.plan.down && nth false s.power.ok r.val && !nth false s.power.en r.val then
      (s.modPower fun x => { x with ok := setAt x.ok r.val false }).railsNext 6
    else s)

/-! ### Boot -/

/-- R395: CORE_RELEASE: the rails are up and REFCLK_CORE is present; boot starts. -/
def execCoreRelease (s : State) : Out :=
  .next (if s.power.plan = .upDone ∧ s.power.coreOn = false then
      (s.modPower fun x => { x with coreOn := true, refclkCore := true, seqFails := 0 }).modMgmt fun m => { m with stage := stageRom, bootStart := s.now }
    else s)

/-- R503: REFCLK_CORE_START_TIMEOUT. -/
def execRefclkCoreStartTimeout (s : State) : Out :=
  .next (if s.power.plan = .upDone ∧ s.power.coreOn = false then (s.modPower fun x => { x with refclkCore := false }).seqFail 5 else s)

/-- R396: IMAGE_SELECT. A flash that does not respond leaves STAGE FAILED (R397). -/
def execImageSelect (flashOk : Bool) (s : State) : Out :=
  .next (if s.power.coreOn ∧ s.mgmt.stage = stageRom then
      if flashOk then (s.modMgmt Mgmt.chooseImage).answerHeld else s.modMgmt fun m => { m with stage := stageFailed, bootErr := 1 }
    else s)

/-- ALIVE and the liveness watchdog at READY: ALIVE starts, but for a wake, through which it went on, and in the stopped state (R429, R431, R432). -/
def Faults.ready (f : Faults) (now : Nat) (wake : Bool) : Faults :=
  if wake ∨ f.stopped then { f with refreshed := now, suspended := false }
  else { f with refreshed := now, suspended := false, aliveRunning := true, stopCause := 0 }

/-- What a wake restores (R478). -/
def State.wakeRestore (s : State) : State :=
  match s.power.retention with
  | some r => s.restore r
  | none => s.raise 0x0E05 [] []

/-- R395, R417, R478: BOOT_READY. -/
def execBootReady (s : State) : Out :=
  if s.mgmt.stage ≠ stageLoad ∨ s.power.coreOn = false then .next s
  else
    let wake := decide (s.power.boot = .wake)
    let s1 := (s.modMgmt fun m =>
      { m with stage := stageReady, bootMs := BitVec.ofNat 16 (min 65535 ((s.now - m.bootStart) / 1000000)), loggedSinceWeft := 0 }).loadDirectory.copyBooth
    let s2 := (if wake then s1.wakeRestore else s1).updateService.serveMailboxes
    let s3 := (s2.modFaults fun f => f.ready s.now wake).modPower fun x => { x with inter := .no, retention := none, wakeSrc := none }
    let s4 := if s3.mgmt.fallback then s3.raise 0x0002 [(s3.mgmt.bootErr.toNat, 1)] [] else s3
    let s5 := s4.raise 0x0001 [(b2n s4.mgmt.image, 1), (s4.mgmt.fwVersion.toNat, 3)] []
    let s6 := match s.power.wakeSrc with
      | some k => s5.raise 0x0E06 [(k, 1)] []
      | none => s5
    .next s6.answerHeld

end Sys2Proof.Machine
end

