-- ==== Sys2Proof/Machine/Virtual.lean ====
section
/-!
DEFINITION. Meanings of the virtual PCI Express switches: TLPs from hosts and targets (R246 to R249), emulated configuration (R244), completions for hosts (R250), and resets of targets and hierarchies (R251, R464).
-/

namespace Sys2Proof.Machine

/-- A PCIe-mode port that carries TLPs, in a running core. -/
def State.tlpPort (s : State) (p : Nat) (upstream : Bool) : Bool :=
  s.running && (s.port p).pcie && (s.port p).linkUp && ((s.port p).upstream == upstream)

/-- R246: HOST_TLP_WRAP. On an upstream port without a VH nothing claims the TLP. -/
def execHostTlpWrap (p : PortNo) (t : Tlp) (s0 : State) : Out :=
  require t.wellFormed (.next (
    let s := if s0.tlpPort p.val true then s0.pmon (leadOf p.val) 0x070 0 1 else s0
    if s.tlpPort p.val true then
      (match s.vhOf p.val with
       | some v => s.hostTlp p.val v t
       | none =>
         if tlpCode t.kind = 1 then s.answerTlp p.val t 0 psUR []
         else s.countPart (leadOf p.val) fun x => { x with vhMiss := inc48 x.vhMiss })
    else s))

/-- The tunnel frame of a TLP that an instance of a shared endpoint sends: INSTANCE names the sender, and a completion carries the tag of the request that it answers (R138, R239). -/
def State.instTunnel (s : State) (p : Nat) (inst : BitVec 12) (t : Tlp) : Frame :=
  match tlpCode t.kind with
  | 0 => tunnelFrame (s.portGeid p) 0xFFFFF inst 0 0 t 0
  | 1 => tunnelFrame (s.portGeid p) 0xFFFFF inst (t.tag.setWidth 12) 0 t 0
  | _ =>
    match s.requestOf p t with
    | some o => tunnelFrame (s.portGeid p) o.requester 0xFFF o.tag 0 t 0
    | none => tunnelFrame (s.portGeid p) 0xFFFFF 0xFFF 0 0 t 0

/-- R247: TARGET_TLP_WRAP: on a PCIe-mode downstream port the TLP is wrapped and routed; on the native port of a shared endpoint it arrives as a tunnel frame of instance `inst` and is routed at its lookup. -/
def execTargetTlpWrap (p : PortNo) (inst : BitVec 12) (t : Tlp) (s : State) : Out :=
  require t.wellFormed (.next (
    if s.tlpPort p.val false then (s.pmon (leadOf p.val) 0x070 0 1).targetTlp p.val t
    else if s.running && (s.port p.val).nativeUp && decide (s.actsAs s.policy p.val = 2) then
      (let f := s.instTunnel p.val inst t
       s.arrive p.val f.hdr.vc f f.blocks)
    else s))

/-- The configuration TLP that an ENDPOINT binding forwards as Type 0 to the first function of the target (R244). -/
def forwardedCfg (bus : Nat) (reg : BitVec 12) (wr : Option (BitVec 32)) (poison : Bool) : Tlp :=
  { kind := (match wr with | some _ => .cfgWrite | none => .cfgRead), target := BitVec.ofNat 16 (256 * bus), reg := reg, len := 4, ep := poison, hdrDw := 3
    data := (match wr with | some w => bytesOf 4 w.toNat | none => []) }

/-- A configuration request to the function below vDSP `k` with an ENDPOINT binding leaves for the target. -/
def State.forwardCfg (s : State) (v : Nat) (fn : EmulatedFn) (t : Nat → Tlp) : Option State :=
  match fn, s.vhRec v with
  | .instanceFn k, some r =>
    match s.binding v k.val with
    | some (.endpoint g) => if k.val < r.vdsps then some (s.wrapTlp r.port g 0xFFF (t (s.secBus v (2 + k.val)))) else none
    | _ => none
  | _, _ => none

/-- R244: CONFIG_EMULATION: a read, or a write of `wr`, of a register of a function of a VH: emulated, forwarded below an ENDPOINT binding, or refused below no binding. -/
def execConfigEmulation (vh : VhNo) (fn : EmulatedFn) (reg : BitVec 12) (wr : Option (BitVec 32)) (poison : Bool) (s : State) : Out :=
  require (decide (reg.toNat % 4 = 0)) (.next (
    if s.running then
      (match s.forwardCfg vh.val fn fun bus => forwardedCfg bus reg wr poison with
       | some t => t
       | none =>
         let (s1, r) := s.cfgAccess vh.val (fnNumber fn) reg.toNat wr poison
         s1.modParts fun x => { x with cfgReply := some r })
    else s))

/-- R251: SECONDARY_BUS_RESET. -/
def execSecondaryBusReset (vh : VhNo) (k : VdspNo) (s : State) : Out :=
  .next (if s.running && (s.vdsps vh.val).contains k.val then s.busReset vh.val k.val else s)

/-- R464: HOT_RESET_RECEIVE on the upstream port of a VH. -/
def execHotResetReceive (p : PortNo) (s : State) : Out :=
  .next (if s.tlpPort p.val true then (match s.vhOf p.val with | some v => s.vhReset v | none => s) else s)

/-- The frame that stands in an egress queue of a port with these contents. -/
def State.queuedFrame (s : State) (p : Nat) (f : Frame) : Option Nat :=
  (s.framesWith fun r => decide (r.place = .queued) && decide (r.egress.port = some p) && decide (r.frame = f)).head?

/-- R250: COMPLETION_UNWRAP: a completion that leaves by a PCIe-mode port becomes a PCI Express completion, and one other than SUCCESS is logged in AER. -/
def execCompletionUnwrap (p : PortNo) (f : Frame) (s : State) : Out :=
  require f.wellFormed (.next (
    if s.running && (s.port p.val).pcie && (s.port p.val).linkUp && decide (f.hdr.kind = .completion) then
      ((match s.queuedFrame p.val f with | some uid => s.discard uid | none => s).cplToPort p.val f)
    else s))

end Sys2Proof.Machine
end

