-- ==== Sys2Proof/Machine/Dispatch.lean ====
section
/-!
DEFINITION. The effect of each command: one arm for each row of the table of operations.
-/

namespace Sys2Proof.Machine

/-- The effect of a command on everything but the queue of waiting commands. -/
def exec (i : Instr) (s : State) : Host.Outcome State Fault Refusal :=
  match i with
  | .doorbell mb => Sys2Proof.Machine.execDoorbell mb s
  | .registerWrite pg off v => Sys2Proof.Machine.execRegisterWrite pg off v s
  | .evqHeadWrite mb v => Sys2Proof.Machine.execEvqHeadWrite mb v s
  | .evqOverflowClear mb => Sys2Proof.Machine.execEvqOverflowClear mb s
  | .forceStop => Sys2Proof.Machine.execForceStop s
  | .mailboxFrameAccess entry f => Sys2Proof.Machine.execMailboxFrameAccess entry f s
  | .serialBlockWrite ptr data pecOk => Sys2Proof.Machine.execSerialBlockWrite ptr data pecOk s
  | .serialSendByte pecOk => Sys2Proof.Machine.execSerialSendByte pecOk s
  | .serialWriteWord ptr pecOk => Sys2Proof.Machine.execSerialWriteWord ptr pecOk s
  | .serialBlockRead => Sys2Proof.Machine.execSerialBlockRead s
  | .remoteMailboxReceive f => Sys2Proof.Machine.execRemoteMailboxReceive f s
  | .sessionLeaseExpiry mb => Sys2Proof.Machine.execSessionLeaseExpiry mb s
  | .sysQuery mb => Sys2Proof.Machine.execSysQuery mb s
  | .sysHomeSet mb => Sys2Proof.Machine.execSysHomeSet mb s
  | .mbAccessSet mb => Sys2Proof.Machine.execMbAccessSet mb s
  | .eventLogRead mb => Sys2Proof.Machine.execEventLogRead mb s
  | .mbQuery mb => Sys2Proof.Machine.execMbQuery mb s
  | .sessionOpen mb => Sys2Proof.Machine.execSessionOpen mb s
  | .sessionClose mb => Sys2Proof.Machine.execSessionClose mb s
  | .eventSubscribe mb => Sys2Proof.Machine.execEventSubscribe mb s
  | .notifySet mb => Sys2Proof.Machine.execNotifySet mb s
  | .portConfigure mb => Sys2Proof.Machine.execPortConfigure mb s
  | .portAdmin mb => Sys2Proof.Machine.execPortAdmin mb s
  | .portQuery mb => Sys2Proof.Machine.execPortQuery mb s
  | .laneStatus mb => Sys2Proof.Machine.execLaneStatus mb s
  | .laneFirSet mb => Sys2Proof.Machine.execLaneFirSet mb s
  | .lanePrbs mb => Sys2Proof.Machine.execLanePrbs mb s
  | .laneLoopback mb => Sys2Proof.Machine.execLaneLoopback mb s
  | .laneCountersRead mb => Sys2Proof.Machine.execLaneCountersRead mb s
  | .laneAlarmSet mb => Sys2Proof.Machine.execLaneAlarmSet mb s
  | .linkConfig mb => Sys2Proof.Machine.execLinkConfig mb s
  | .linkCreditSet mb => Sys2Proof.Machine.execLinkCreditSet mb s
  | .linkQuery mb => Sys2Proof.Machine.execLinkQuery mb s
  | .linkCountersRead mb => Sys2Proof.Machine.execLinkCountersRead mb s
  | .linkErrorInject mb => Sys2Proof.Machine.execLinkErrorInject mb s
  | .fabricConfig mb => Sys2Proof.Machine.execFabricConfig mb s
  | .routeWrite mb => Sys2Proof.Machine.execRouteWrite mb s
  | .groupWrite mb => Sys2Proof.Machine.execGroupWrite mb s
  | .windowWrite mb => Sys2Proof.Machine.execWindowWrite mb s
  | .endpointWrite mb => Sys2Proof.Machine.execEndpointWrite mb s
  | .tableCommit mb => Sys2Proof.Machine.execTableCommit mb s
  | .tableDiscard mb => Sys2Proof.Machine.execTableDiscard mb s
  | .epochWait mb => Sys2Proof.Machine.execEpochWait mb s
  | .tableRead mb => Sys2Proof.Machine.execTableRead mb s
  | .partnerQuery mb => Sys2Proof.Machine.execPartnerQuery mb s
  | .topologyQuery mb => Sys2Proof.Machine.execTopologyQuery mb s
  | .fabricTimeConfig mb => Sys2Proof.Machine.execFabricTimeConfig mb s
  | .fabricTimeQuery mb => Sys2Proof.Machine.execFabricTimeQuery mb s
  | .fabricCountersRead mb => Sys2Proof.Machine.execFabricCountersRead mb s
  | .partnerSlotSet mb => Sys2Proof.Machine.execPartnerSlotSet mb s
  | .carouselQuery mb => Sys2Proof.Machine.execCarouselQuery mb s
  | .voqLimitSet mb => Sys2Proof.Machine.execVoqLimitSet mb s
  | .middleShareSet mb => Sys2Proof.Machine.execMiddleShareSet mb s
  | .pcieStoreSet mb => Sys2Proof.Machine.execPcieStoreSet mb s
  | .carouselCountersRead mb => Sys2Proof.Machine.execCarouselCountersRead mb s
  | .bufferHwmRead mb => Sys2Proof.Machine.execBufferHwmRead mb s
  | .schedConfig mb => Sys2Proof.Machine.execSchedConfig mb s
  | .shaperSet mb => Sys2Proof.Machine.execShaperSet mb s
  | .meterSet mb => Sys2Proof.Machine.execMeterSet mb s
  | .meterMapSet mb => Sys2Proof.Machine.execMeterMapSet mb s
  | .penaltyQueueSet mb => Sys2Proof.Machine.execPenaltyQueueSet mb s
  | .gateListSet mb => Sys2Proof.Machine.execGateListSet mb s
  | .gateQuery mb => Sys2Proof.Machine.execGateQuery mb s
  | .meterRead mb => Sys2Proof.Machine.execMeterRead mb s
  | .schedCountersRead mb => Sys2Proof.Machine.execSchedCountersRead mb s
  | .hwmRead mb => Sys2Proof.Machine.execHwmRead mb s
  | .partitionCreate mb => Sys2Proof.Machine.execPartitionCreate mb s
  | .partitionDestroy mb => Sys2Proof.Machine.execPartitionDestroy mb s
  | .partitionAssign mb => Sys2Proof.Machine.execPartitionAssign mb s
  | .partitionConfig mb => Sys2Proof.Machine.execPartitionConfig mb s
  | .partitionGrant mb => Sys2Proof.Machine.execPartitionGrant mb s
  | .portTrustSet mb => Sys2Proof.Machine.execPortTrustSet mb s
  | .partitionQuery mb => Sys2Proof.Machine.execPartitionQuery mb s
  | .vhCreate mb => Sys2Proof.Machine.execVhCreate mb s
  | .vhDestroy mb => Sys2Proof.Machine.execVhDestroy mb s
  | .vhBind mb => Sys2Proof.Machine.execVhBind mb s
  | .vhQuery mb => Sys2Proof.Machine.execVhQuery mb s
  | .sharedEndpointSet mb cap => Sys2Proof.Machine.execSharedEndpointSet mb cap s
  | .instanceCreate mb => Sys2Proof.Machine.execInstanceCreate mb s
  | .instanceDestroy mb => Sys2Proof.Machine.execInstanceDestroy mb s
  | .instanceShareSet mb => Sys2Proof.Machine.execInstanceShareSet mb s
  | .instanceQuiesce mb => Sys2Proof.Machine.execInstanceQuiesce mb s
  | .instanceResume mb => Sys2Proof.Machine.execInstanceResume mb s
  | .instanceReset mb => Sys2Proof.Machine.execInstanceReset mb s
  | .instanceResetForce mb => Sys2Proof.Machine.execInstanceResetForce mb s
  | .instanceXlateSet mb => Sys2Proof.Machine.execInstanceXlateSet mb s
  | .instanceQuery mb => Sys2Proof.Machine.execInstanceQuery mb s
  | .partCountersRead mb => Sys2Proof.Machine.execPartCountersRead mb s
  | .jugglerAlloc mb => Sys2Proof.Machine.execJugglerAlloc mb s
  | .jugglerQuery mb => Sys2Proof.Machine.execJugglerQuery mb s
  | .moverRingSet mb => Sys2Proof.Machine.execMoverRingSet mb s
  | .moverRingControl mb => Sys2Proof.Machine.execMoverRingControl mb s
  | .moverRingQuery mb => Sys2Proof.Machine.execMoverRingQuery mb s
  | .moverPlace mb => Sys2Proof.Machine.execMoverPlace mb s
  | .moverCountersRead mb => Sys2Proof.Machine.execMoverCountersRead mb s
  | .pwConfig mb => Sys2Proof.Machine.execPwConfig mb s
  | .pwHomeSet mb => Sys2Proof.Machine.execPwHomeSet mb s
  | .pwWindowSet mb => Sys2Proof.Machine.execPwWindowSet mb s
  | .pwWindowRead mb => Sys2Proof.Machine.execPwWindowRead mb s
  | .pwQuery mb => Sys2Proof.Machine.execPwQuery mb s
  | .sidebandSet mb => Sys2Proof.Machine.execSidebandSet mb s
  | .sidebandQuery mb => Sys2Proof.Machine.execSidebandQuery mb s
  | .pwBusReset mb => Sys2Proof.Machine.execPwBusReset mb s
  | .pwCountersRead mb => Sys2Proof.Machine.execPwCountersRead mb s
  | .slotConfig mb => Sys2Proof.Machine.execSlotConfig mb s
  | .slotPower mb => Sys2Proof.Machine.execSlotPower mb s
  | .slotQuery mb => Sys2Proof.Machine.execSlotQuery mb s
  | .slotBusConfig mb => Sys2Proof.Machine.execSlotBusConfig mb s
  | .slotBusQuery mb => Sys2Proof.Machine.execSlotBusQuery mb s
  | .slotAttention mb => Sys2Proof.Machine.execSlotAttention mb s
  | .slotProfileSave mb => Sys2Proof.Machine.execSlotProfileSave mb s
  | .slotCountersRead mb => Sys2Proof.Machine.execSlotCountersRead mb s
  | .faultQuery mb => Sys2Proof.Machine.execFaultQuery mb s
  | .faultLogRead mb => Sys2Proof.Machine.execFaultLogRead mb s
  | .faultClear mb => Sys2Proof.Machine.execFaultClear mb s
  | .faultSeveritySet mb => Sys2Proof.Machine.execFaultSeveritySet mb s
  | .faultFence mb => Sys2Proof.Machine.execFaultFence mb s
  | .faultRelease mb => Sys2Proof.Machine.execFaultRelease mb s
  | .fenceQuery mb => Sys2Proof.Machine.execFenceQuery mb s
  | .faultSupervise mb => Sys2Proof.Machine.execFaultSupervise mb s
  | .faultInject mb => Sys2Proof.Machine.execFaultInject mb s
  | .faultForwardSet mb => Sys2Proof.Machine.execFaultForwardSet mb s
  | .faultCountersRead mb => Sys2Proof.Machine.execFaultCountersRead mb s
  | .bistStart mb => Sys2Proof.Machine.execBistStart mb s
  | .bistAbort mb => Sys2Proof.Machine.execBistAbort mb s
  | .bistQuery mb => Sys2Proof.Machine.execBistQuery mb s
  | .bistUnmark mb => Sys2Proof.Machine.execBistUnmark mb s
  | .bistList mb => Sys2Proof.Machine.execBistList mb s
  | .pmonConfig mb => Sys2Proof.Machine.execPmonConfig mb s
  | .pmonRead mb => Sys2Proof.Machine.execPmonRead mb s
  | .pmonFreeze mb => Sys2Proof.Machine.execPmonFreeze mb s
  | .pmonSnapshot mb => Sys2Proof.Machine.execPmonSnapshot mb s
  | .pmonSnapshotRead mb => Sys2Proof.Machine.execPmonSnapshotRead mb s
  | .pmonSampleRead mb => Sys2Proof.Machine.execPmonSampleRead mb s
  | .pwrStateSet mb => Sys2Proof.Machine.execPwrStateSet mb s
  | .pwrQuery mb => Sys2Proof.Machine.execPwrQuery mb s
  | .sysReset mb => Sys2Proof.Machine.execSysReset mb s
  | .ringReset mb => Sys2Proof.Machine.execRingReset mb s
  | .portReset mb => Sys2Proof.Machine.execPortReset mb s
  | .vhReset mb => Sys2Proof.Machine.execVhReset mb s
  | .boothRestart mb => Sys2Proof.Machine.execBoothRestart mb s
  | .wakeConfig mb => Sys2Proof.Machine.execWakeConfig mb s
  | .sleepConfig mb => Sys2Proof.Machine.execSleepConfig mb s
  | .fwQuery mb => Sys2Proof.Machine.execFwQuery mb s
  | .fwWriteBegin mb => Sys2Proof.Machine.execFwWriteBegin mb s
  | .fwWrite mb => Sys2Proof.Machine.execFwWrite mb s
  | .fwWriteEnd mb => Sys2Proof.Machine.execFwWriteEnd mb s
  | .fwActivate mb => Sys2Proof.Machine.execFwActivate mb s
  | .fwConfirm mb => Sys2Proof.Machine.execFwConfirm mb s
  | .fwRestart mb => Sys2Proof.Machine.execFwRestart mb s
  | .calRead mb => Sys2Proof.Machine.execCalRead mb s
  | .calWrite mb => Sys2Proof.Machine.execCalWrite mb s
  | .calExport mb => Sys2Proof.Machine.execCalExport mb s
  | .calImport mb => Sys2Proof.Machine.execCalImport mb s
  | .detectAttempt p found => Sys2Proof.Machine.execDetectAttempt p found s
  | .trainingFrameReceive ln w => Sys2Proof.Machine.execTrainingFrameReceive ln w s
  | .forwardedClockLockTimeout p => Sys2Proof.Machine.execForwardedClockLockTimeout p s
  | .trainTimeout p => Sys2Proof.Machine.execTrainTimeout p s
  | .fecLock ln => Sys2Proof.Machine.execFecLock ln s
  | .alignmentMarkerReceive ln lip arrival => Sys2Proof.Machine.execAlignmentMarkerReceive ln lip arrival s
  | .lockComplete p => Sys2Proof.Machine.execLockComplete p s
  | .lockTimeout p => Sys2Proof.Machine.execLockTimeout p s
  | .fecLockLoss ln => Sys2Proof.Machine.execFecLockLoss ln s
  | .deskewLoss ln => Sys2Proof.Machine.execDeskewLoss ln s
  | .clockLaneLoss q => Sys2Proof.Machine.execClockLaneLoss q s
  | .lossOfSignal ln => Sys2Proof.Machine.execLossOfSignal ln s
  | .retrainSignalReceive p => Sys2Proof.Machine.execRetrainSignalReceive p s
  | .exchangeRecordSend p => Sys2Proof.Machine.execExchangeRecordSend p s
  | .exchangeBlockReceive p pl => Sys2Proof.Machine.execExchangeBlockReceive p pl s
  | .exchangeTimeout p => Sys2Proof.Machine.execExchangeTimeout p s
  | .linkUpHoldoffEnd p => Sys2Proof.Machine.execLinkUpHoldoffEnd p s
  | .firstBlockTimeout p => Sys2Proof.Machine.execFirstBlockTimeout p s
  | .trainFailWaitEnd p found => Sys2Proof.Machine.execTrainFailWaitEnd p found s
  | .serAlarmWindow ln => Sys2Proof.Machine.execSerAlarmWindow ln s
  | .fastRetrainTimeout p => Sys2Proof.Machine.execFastRetrainTimeout p s
  | .fastRetrainComplete p => Sys2Proof.Machine.execFastRetrainComplete p s
  | .prbsCheck ln errs => Sys2Proof.Machine.execPrbsCheck ln errs s
  | .pcieLinkDown p training ltssm => Sys2Proof.Machine.execPcieLinkDown p training ltssm s
  | .transmitBlockSlot p => Sys2Proof.Machine.execTransmitBlockSlot p s
  | .dataBlockReceive p h pl => Sys2Proof.Machine.execDataBlockReceive p h pl s
  | .badBlockReceive p => Sys2Proof.Machine.execBadBlockReceive p s
  | .idleBlockReceive p h => Sys2Proof.Machine.execIdleBlockReceive p h s
  | .nakBlockReceive p h pl => Sys2Proof.Machine.execNakBlockReceive p h pl s
  | .creditBlockReceive p h pl => Sys2Proof.Machine.execCreditBlockReceive p h pl s
  | .reservedTypeBlockReceive p h => Sys2Proof.Machine.execReservedTypeBlockReceive p h s
  | .replayTimerExpiry p => Sys2Proof.Machine.execReplayTimerExpiry p s
  | .creditReturnDue p => Sys2Proof.Machine.execCreditReturnDue p s
  | .syncSend p => Sys2Proof.Machine.execSyncSend p s
  | .syncTimeout p => Sys2Proof.Machine.execSyncTimeout p s
  | .npExpiry p req tag => Sys2Proof.Machine.execNpExpiry p req tag s
  | .completionTimeout requester tag => Sys2Proof.Machine.execCompletionTimeout requester tag s
  | .completionReceive f => Sys2Proof.Machine.execCompletionReceive f s
  | .frameLookup src vc => Sys2Proof.Machine.execFrameLookup src vc s
  | .voqAdmit src vc => Sys2Proof.Machine.execVoqAdmit src vc s
  | .commitInEffect pu => Sys2Proof.Machine.execCommitInEffect pu s
  | .firstStageSlot => Sys2Proof.Machine.execFirstStageSlot s
  | .secondStageSlot => Sys2Proof.Machine.execSecondStageSlot s
  | .periodStart => Sys2Proof.Machine.execPeriodStart s
  | .outputCellArrival o => Sys2Proof.Machine.execOutputCellArrival o s
  | .reseqGapSkip p src vc => Sys2Proof.Machine.execReseqGapSkip p src vc s
  | .middleBufferDrainEnd m => Sys2Proof.Machine.execMiddleBufferDrainEnd m s
  | .middleBufferReturn m => Sys2Proof.Machine.execMiddleBufferReturn m s
  | .fencedInputCleanup pu => Sys2Proof.Machine.execFencedInputCleanup pu s
  | .egressFrameBoundary p fc => Sys2Proof.Machine.execEgressFrameBoundary p fc s
  | .bucketRefill => Sys2Proof.Machine.execBucketRefill s
  | .penaltyQueueAdmit src vc => Sys2Proof.Machine.execPenaltyQueueAdmit src vc s
  | .gateEntryChange p => Sys2Proof.Machine.execGateEntryChange p s
  | .gateListStart p => Sys2Proof.Machine.execGateListStart p s
  | .orderHoldRelease p uid => Sys2Proof.Machine.execOrderHoldRelease p uid s
  | .routeComputation => Sys2Proof.Machine.execRouteComputation s
  | .routeCommitRetry => Sys2Proof.Machine.execRouteCommitRetry s
  | .linkStateSend => Sys2Proof.Machine.execLinkStateSend s
  | .linkStateReceive p r => Sys2Proof.Machine.execLinkStateReceive p r s
  | .linkStateAgeOut sw => Sys2Proof.Machine.execLinkStateAgeOut sw s
  | .epochDrained tab e => Sys2Proof.Machine.execEpochDrained tab e s
  | .timeSyncExchange p => Sys2Proof.Machine.execTimeSyncExchange p s
  | .timeMessageReceive p m => Sys2Proof.Machine.execTimeMessageReceive p m s
  | .ppsInEdge => Sys2Proof.Machine.execPpsInEdge s
  | .ppsOutSecond => Sys2Proof.Machine.execPpsOutSecond s
  | .jugglerStep j => Sys2Proof.Machine.execJugglerStep j s
  | .moverDoorbell f => Sys2Proof.Machine.execMoverDoorbell f s
  | .moverCompletionReceive f => Sys2Proof.Machine.execMoverCompletionReceive f s
  | .quiesceCheck p id icbQuiesced timedOut => Sys2Proof.Machine.execQuiesceCheck p id icbQuiesced timedOut s
  | .resetReqCleared p id => Sys2Proof.Machine.execResetReqCleared p id s
  | .resetTimeout p id => Sys2Proof.Machine.execResetTimeout p id s
  | .resettingLifetimePass p id => Sys2Proof.Machine.execResettingLifetimePass p id s
  | .hostTlpWrap p t => Sys2Proof.Machine.execHostTlpWrap p t s
  | .targetTlpWrap p inst t => Sys2Proof.Machine.execTargetTlpWrap p inst t s
  | .configEmulation vh fn reg wr poison => Sys2Proof.Machine.execConfigEmulation vh fn reg wr poison s
  | .slotControlWrite vh k v => Sys2Proof.Machine.execSlotControlWrite vh k v s
  | .secondaryBusReset vh k => Sys2Proof.Machine.execSecondaryBusReset vh k s
  | .hotResetReceive p => Sys2Proof.Machine.execHotResetReceive p s
  | .completionUnwrap p f => Sys2Proof.Machine.execCompletionUnwrap p f s
  | .patchworkFrameReceive x f => Sys2Proof.Machine.execPatchworkFrameReceive x f s
  | .outboundCycleRun x => Sys2Proof.Machine.execOutboundCycleRun x s
  | .busCycleEnd x st data => Sys2Proof.Machine.execBusCycleEnd x st data s
  | .inboundCycleClaim x c => Sys2Proof.Machine.execInboundCycleClaim x c s
  | .inboundWrite x c => Sys2Proof.Machine.execInboundWrite x c s
  | .inboundRead x c => Sys2Proof.Machine.execInboundRead x c s
  | .inboundRmw x c => Sys2Proof.Machine.execInboundRmw x c s
  | .pciDelayedRepeat x c => Sys2Proof.Machine.execPciDelayedRepeat x c s
  | .delayedDiscardTimeout x entry => Sys2Proof.Machine.execDelayedDiscardTimeout x entry s
  | .yieldTimeout x blockedNs => Sys2Proof.Machine.execYieldTimeout x blockedNs s
  | .prefetchHoldExpiry x buf => Sys2Proof.Machine.execPrefetchHoldExpiry x buf s
  | .busWriteObserved x space addr len => Sys2Proof.Machine.execBusWriteObserved x space addr len s
  | .heritageBusReset x => Sys2Proof.Machine.execHeritageBusReset x s
  | .pwBusResetEnd x => Sys2Proof.Machine.execPwBusResetEnd x s
  | .vddHbLoss x => Sys2Proof.Machine.execVddHbLoss x s
  | .sidebandInputChange pin asserted => Sys2Proof.Machine.execSidebandInputChange pin asserted s
  | .presenceChange c high => Sys2Proof.Machine.execPresenceChange c high s
  | .insertionDebounceEnd c => Sys2Proof.Machine.execInsertionDebounceEnd c s
  | .absenceDeclared c => Sys2Proof.Machine.execAbsenceDeclared c s
  | .pfwReleaseDelayEnd c => Sys2Proof.Machine.execPfwReleaseDelayEnd c s
  | .holdOffExpiry c => Sys2Proof.Machine.execHoldOffExpiry c s
  | .startGrant => Sys2Proof.Machine.execStartGrant s
  | .prechargeComplete c => Sys2Proof.Machine.execPrechargeComplete c s
  | .prechargeTimeout c => Sys2Proof.Machine.execPrechargeTimeout c s
  | .gateRiseComplete c => Sys2Proof.Machine.execGateRiseComplete c s
  | .gateNoRise c => Sys2Proof.Machine.execGateNoRise c s
  | .powerGood c => Sys2Proof.Machine.execPowerGood c s
  | .stabiliseTimeout c => Sys2Proof.Machine.execStabiliseTimeout c s
  | .breakerTimerStart c => Sys2Proof.Machine.execBreakerTimerStart c s
  | .breakerReset c => Sys2Proof.Machine.execBreakerReset c s
  | .breakerExpiry c => Sys2Proof.Machine.execBreakerExpiry c s
  | .fastTrip c => Sys2Proof.Machine.execFastTrip c s
  | .gateLoss c => Sys2Proof.Machine.execGateLoss c s
  | .pfwLeadExpiry c => Sys2Proof.Machine.execPfwLeadExpiry c s
  | .retryWaitExpiry c => Sys2Proof.Machine.execRetryWaitExpiry c s
  | .retryCountClear c => Sys2Proof.Machine.execRetryCountClear c s
  | .inputBusWarning vfeed => Sys2Proof.Machine.execInputBusWarning vfeed s
  | .warningRelease vfeed => Sys2Proof.Machine.execWarningRelease vfeed s
  | .busCut vfeed => Sys2Proof.Machine.execBusCut vfeed s
  | .busRecovery vfeed => Sys2Proof.Machine.execBusRecovery vfeed s
  | .slotSample c x vfeed => Sys2Proof.Machine.execSlotSample c x vfeed s
  | .boothResume prsnt vfeed => Sys2Proof.Machine.execBoothResume prsnt vfeed s
  | .latchRelease => Sys2Proof.Machine.execLatchRelease s
  | .boothWatchdogExpiry => Sys2Proof.Machine.execBoothWatchdogExpiry s
  | .errorDetect src code detail => Sys2Proof.Machine.execErrorDetect src code detail s
  | .pairChangeSeen src => Sys2Proof.Machine.execPairChangeSeen src s
  | .faultReportClassify src code => Sys2Proof.Machine.execFaultReportClassify src code s
  | .pairOnlyTimeout src => Sys2Proof.Machine.execPairOnlyTimeout src s
  | .wireFault src => Sys2Proof.Machine.execWireFault src s
  | .mergeIntervalEnd src code => Sys2Proof.Machine.execMergeIntervalEnd src code s
  | .faultFrameReceive f => Sys2Proof.Machine.execFaultFrameReceive f s
  | .aliveToggle => Sys2Proof.Machine.execAliveToggle s
  | .livenessRefresh => Sys2Proof.Machine.execLivenessRefresh s
  | .livenessExpiry => Sys2Proof.Machine.execLivenessExpiry s
  | .bistIsolationComplete u => Sys2Proof.Machine.execBistIsolationComplete u s
  | .bistEngineEnd u r => Sys2Proof.Machine.execBistEngineEnd u r s
  | .bistReinitComplete u => Sys2Proof.Machine.execBistReinitComplete u s
  | .bistNotIdleTimeout u => Sys2Proof.Machine.execBistNotIdleTimeout u s
  | .pmonCounterWrap mon k cycles ctx => Sys2Proof.Machine.execPmonCounterWrap mon k cycles ctx s
  | .snapshotCapture => Sys2Proof.Machine.execSnapshotCapture s
  | .powerOn => Sys2Proof.Machine.execPowerOn s
  | .coldReset => Sys2Proof.Machine.execColdReset s
  | .warmReset => Sys2Proof.Machine.execWarmReset s
  | .supplyBrownout => Sys2Proof.Machine.execSupplyBrownout s
  | .coldHoldCheck temp => Sys2Proof.Machine.execColdHoldCheck temp s
  | .preheatCheck temp => Sys2Proof.Machine.execPreheatCheck temp s
  | .preheatTimeout => Sys2Proof.Machine.execPreheatTimeout s
  | .railPowerGood r => Sys2Proof.Machine.execRailPowerGood r s
  | .railPowerGoodTimeout r => Sys2Proof.Machine.execRailPowerGoodTimeout r s
  | .railSequenceRetry => Sys2Proof.Machine.execRailSequenceRetry s
  | .railPowerFail r => Sys2Proof.Machine.execRailPowerFail r s
  | .coreRelease => Sys2Proof.Machine.execCoreRelease s
  | .imageSelect flashOk => Sys2Proof.Machine.execImageSelect flashOk s
  | .bootReady => Sys2Proof.Machine.execBootReady s
  | .weftResetEnd => Sys2Proof.Machine.execWeftResetEnd s
  | .ringResetDiscardEnd r => Sys2Proof.Machine.execRingResetDiscardEnd r s
  | .intermissionDrainEnd => Sys2Proof.Machine.execIntermissionDrainEnd s
  | .wakeNEdge => Sys2Proof.Machine.execWakeNEdge s
  | .wakeTimerExpiry => Sys2Proof.Machine.execWakeTimerExpiry s
  | .idleSleepTimeout p => Sys2Proof.Machine.execIdleSleepTimeout p s
  | .powerBlockReceive p h pl => Sys2Proof.Machine.execPowerBlockReceive p h pl s
  | .sleepAnswerTimeout p => Sys2Proof.Machine.execSleepAnswerTimeout p s
  | .sleepNakBackoffEnd p => Sys2Proof.Machine.execSleepNakBackoffEnd p s
  | .wakePulseDetect p => Sys2Proof.Machine.execWakePulseDetect p s
  | .sleepWake p => Sys2Proof.Machine.execSleepWake p s
  | .governorMeasure milliwatts => Sys2Proof.Machine.execGovernorMeasure milliwatts s
  | .vidUpdate => Sys2Proof.Machine.execVidUpdate s
  | .thermalCheck tj => Sys2Proof.Machine.execThermalCheck tj s
  | .railFault r => Sys2Proof.Machine.execRailFault r s
  | .refclkAoLoss => Sys2Proof.Machine.execRefclkAoLoss s
  | .refclkAoReturn => Sys2Proof.Machine.execRefclkAoReturn s
  | .refclkLoss r => Sys2Proof.Machine.execRefclkLoss r s
  | .refclkCoreLoss => Sys2Proof.Machine.execRefclkCoreLoss s
  | .jtagUnlock token => Sys2Proof.Machine.execJtagUnlock token s
  | .pcieLinkUp p width rate ltssm host => Sys2Proof.Machine.execPcieLinkUp p width rate ltssm host s
  | .vddHbReturn x fiveVolt => Sys2Proof.Machine.execVddHbReturn x fiveVolt s
  | .busTimerExpiry x => Sys2Proof.Machine.execBusTimerExpiry x s
  | .deviceConfigCycle x reg wr => Sys2Proof.Machine.execDeviceConfigCycle x reg wr s
  | .cycleStoreLifetimeExpiry x => Sys2Proof.Machine.execCycleStoreLifetimeExpiry x s
  | .railPwrOkFall r => Sys2Proof.Machine.execRailPwrOkFall r s
  | .preheatRetry => Sys2Proof.Machine.execPreheatRetry s
  | .refclkCoreStartTimeout => Sys2Proof.Machine.execRefclkCoreStartTimeout s

end Sys2Proof.Machine
end

