-- ==== Sys2Proof/Safety.lean ====
section
/-!
DEFINITION. The terms that statements about the machine are made in: a mailbox command that passes the checks of R377, what it comes to, what a reader of a mailbox sees, and the bounds that every run keeps.
-/

namespace Sys2Proof.Machine

/-! ### Mailbox commands -/

/-- The payload of the command in a mailbox, as a number (R7, Table 11.4). -/
def State.payload (s : State) (n : Nat) : Nat := cellsNat (s.mbox n).cmd 16 (s.mbox n).cmdHdr.length

/-- Mailbox `n` holds command `c` with payload `pl`, and every check of R377 before the command's own passes:
BUSY is 1, the mailbox is served, the session is accepted, the command is no repeat and no dry run, its privilege, length and fields are in order,
and the state of the XM5120 lets it be taken. -/
def State.Admits (s : State) (c : CmdSpec) (n pl : Nat) : Prop :=
  (s.mbox n).busy = true ∧ s.serves n = true ∧ (s.mbox n).cmdHdr.opcode = c.opcode ∧ (s.mbox n).cmdHdr.length ≤ 4080 ∧
  (c.open_ || (s.mbox n).tokenOk (s.mbox n).cmdHdr.session) = true ∧ (s.mbox n).repeated (s.mbox n).cmdHdr = none ∧
  (s.mbox n).cmdHdr.dryRun = false ∧ (s.mgmt.stage = stageRecovery → c.recovery = true) ∧ (c.priv = true → privilegedMb n = true) ∧
  c.len pl ≤ (s.mbox n).cmdHdr.length ∧ (s.mbox n).cmdHdr.reserved = false ∧ c.offending pl (s.mbox n).cmdHdr.length = none ∧
  s.gated c = false ∧ pl = s.payload n

/-- The state in which the effect of a mailbox's command begins: the lease of its session is renewed (R381). -/
def State.begun (s : State) (n : Nat) : State := s.renewLease n (s.mbox n).cmdHdr.session

/-- The state after the command of a mailbox of `s` whose effect led to `t`: the lapses of TIMING are told (R272), and RESP holds SUCCESS with a payload (R374). -/
def State.ended (s t : State) (n : Nat) (resp : List Byte) : State := t.checkLapses.complete n (s.mbox n).cmdHdr stSuccess 0 resp

/-- Command `c` in mailbox `n` of `s` runs to its effect: it leads from `s.begun n` to `t` and is answered SUCCESS with `resp`,
unless `t` broke the isolation of a partition with TIMING (R272). -/
def Obeys (c : Instr) (s : State) (n : Nat) (t : State) (resp : List Byte) : Prop :=
  breaksTiming (s.begun n) t = false → exec c s = .next (s.ended t n resp)

/-- A command of mailbox `n` names instance `id` of port `p`, whose record is `r`: the instance exists and the mailbox may name its owner's resources (R275, R276). -/
def State.NamesInst (s : State) (n pl p id : Nat) (r : InstRec) : Prop :=
  s.portNamed (fld pl 0 8) 0 = some p ∧ id = fld pl 8 8 ∧ ((Tab.get none s.policy.shared p).any fun x => decide (id < x.cap)) = true ∧
  s.policy.instAt p id = some r ∧ s.mayName n r.owner = true ∧ (s.instRun p id).gone = false

/-! ### The commands that mailboxes hold -/

/-- The mailbox, the opcode and the privilege (Tables 2.16 to 14.12) of a command that a mailbox holds; none for every other row. -/
def commandOf : Instr → Option (Mb × Nat × Bool)
  | .sysQuery mb => some (mb, 0x0000, false)
  | .sysHomeSet mb => some (mb, 0x0001, true)
  | .mbAccessSet mb => some (mb, 0x0002, true)
  | .eventLogRead mb => some (mb, 0x0003, true)
  | .mbQuery mb => some (mb, 0x0004, false)
  | .sessionOpen mb => some (mb, 0x0100, false)
  | .sessionClose mb => some (mb, 0x0101, false)
  | .eventSubscribe mb => some (mb, 0x0102, false)
  | .notifySet mb => some (mb, 0x0103, false)
  | .portConfigure mb => some (mb, 0x0200, true)
  | .portAdmin mb => some (mb, 0x0201, true)
  | .portQuery mb => some (mb, 0x0202, false)
  | .laneStatus mb => some (mb, 0x0203, false)
  | .laneFirSet mb => some (mb, 0x0204, true)
  | .lanePrbs mb => some (mb, 0x0205, true)
  | .laneLoopback mb => some (mb, 0x0206, true)
  | .laneCountersRead mb => some (mb, 0x0207, false)
  | .laneAlarmSet mb => some (mb, 0x0208, true)
  | .linkConfig mb => some (mb, 0x0300, true)
  | .linkCreditSet mb => some (mb, 0x0301, true)
  | .linkQuery mb => some (mb, 0x0302, false)
  | .linkCountersRead mb => some (mb, 0x0303, false)
  | .linkErrorInject mb => some (mb, 0x0304, true)
  | .fabricConfig mb => some (mb, 0x0400, true)
  | .routeWrite mb => some (mb, 0x0401, true)
  | .groupWrite mb => some (mb, 0x0402, true)
  | .windowWrite mb => some (mb, 0x0403, true)
  | .endpointWrite mb => some (mb, 0x0404, true)
  | .tableCommit mb => some (mb, 0x0405, true)
  | .tableDiscard mb => some (mb, 0x0406, true)
  | .epochWait mb => some (mb, 0x0407, true)
  | .tableRead mb => some (mb, 0x0408, true)
  | .partnerQuery mb => some (mb, 0x0409, false)
  | .topologyQuery mb => some (mb, 0x040A, true)
  | .fabricTimeConfig mb => some (mb, 0x040B, true)
  | .fabricTimeQuery mb => some (mb, 0x040C, false)
  | .fabricCountersRead mb => some (mb, 0x040D, false)
  | .partnerSlotSet mb => some (mb, 0x040E, true)
  | .carouselQuery mb => some (mb, 0x0500, true)
  | .voqLimitSet mb => some (mb, 0x0501, true)
  | .middleShareSet mb => some (mb, 0x0502, true)
  | .pcieStoreSet mb => some (mb, 0x0503, true)
  | .carouselCountersRead mb => some (mb, 0x0504, false)
  | .bufferHwmRead mb => some (mb, 0x0505, false)
  | .schedConfig mb => some (mb, 0x0600, true)
  | .shaperSet mb => some (mb, 0x0601, true)
  | .meterSet mb => some (mb, 0x0602, false)
  | .meterMapSet mb => some (mb, 0x0603, true)
  | .penaltyQueueSet mb => some (mb, 0x0604, true)
  | .gateListSet mb => some (mb, 0x0605, true)
  | .gateQuery mb => some (mb, 0x0606, false)
  | .meterRead mb => some (mb, 0x0607, false)
  | .schedCountersRead mb => some (mb, 0x0608, false)
  | .hwmRead mb => some (mb, 0x0609, false)
  | .partitionCreate mb => some (mb, 0x0700, true)
  | .partitionDestroy mb => some (mb, 0x0701, true)
  | .partitionAssign mb => some (mb, 0x0702, true)
  | .partitionConfig mb => some (mb, 0x0703, true)
  | .partitionGrant mb => some (mb, 0x0704, true)
  | .portTrustSet mb => some (mb, 0x0705, true)
  | .partitionQuery mb => some (mb, 0x0706, false)
  | .vhCreate mb => some (mb, 0x0707, true)
  | .vhDestroy mb => some (mb, 0x0708, true)
  | .vhBind mb => some (mb, 0x0709, true)
  | .vhQuery mb => some (mb, 0x070A, false)
  | .sharedEndpointSet mb _ => some (mb, 0x070B, true)
  | .instanceCreate mb => some (mb, 0x070C, true)
  | .instanceDestroy mb => some (mb, 0x070D, true)
  | .instanceShareSet mb => some (mb, 0x070E, true)
  | .instanceQuiesce mb => some (mb, 0x070F, true)
  | .instanceResume mb => some (mb, 0x0710, true)
  | .instanceReset mb => some (mb, 0x0711, true)
  | .instanceResetForce mb => some (mb, 0x0712, true)
  | .instanceXlateSet mb => some (mb, 0x0713, false)
  | .instanceQuery mb => some (mb, 0x0714, false)
  | .partCountersRead mb => some (mb, 0x0715, false)
  | .jugglerAlloc mb => some (mb, 0x0800, true)
  | .jugglerQuery mb => some (mb, 0x0801, true)
  | .moverRingSet mb => some (mb, 0x0802, false)
  | .moverRingControl mb => some (mb, 0x0803, false)
  | .moverRingQuery mb => some (mb, 0x0804, false)
  | .moverPlace mb => some (mb, 0x0805, true)
  | .moverCountersRead mb => some (mb, 0x0806, false)
  | .pwConfig mb => some (mb, 0x0900, true)
  | .pwHomeSet mb => some (mb, 0x0901, true)
  | .pwWindowSet mb => some (mb, 0x0902, true)
  | .pwWindowRead mb => some (mb, 0x0903, false)
  | .pwQuery mb => some (mb, 0x0904, false)
  | .sidebandSet mb => some (mb, 0x0905, true)
  | .sidebandQuery mb => some (mb, 0x0906, false)
  | .pwBusReset mb => some (mb, 0x0907, true)
  | .pwCountersRead mb => some (mb, 0x0908, false)
  | .slotConfig mb => some (mb, 0x0A00, true)
  | .slotPower mb => some (mb, 0x0A01, true)
  | .slotQuery mb => some (mb, 0x0A02, false)
  | .slotBusConfig mb => some (mb, 0x0A03, true)
  | .slotBusQuery mb => some (mb, 0x0A04, true)
  | .slotAttention mb => some (mb, 0x0A05, true)
  | .slotProfileSave mb => some (mb, 0x0A06, true)
  | .slotCountersRead mb => some (mb, 0x0A07, false)
  | .faultQuery mb => some (mb, 0x0B00, true)
  | .faultLogRead mb => some (mb, 0x0B01, true)
  | .faultClear mb => some (mb, 0x0B02, true)
  | .faultSeveritySet mb => some (mb, 0x0B03, true)
  | .faultFence mb => some (mb, 0x0B04, true)
  | .faultRelease mb => some (mb, 0x0B05, true)
  | .fenceQuery mb => some (mb, 0x0B06, false)
  | .faultSupervise mb => some (mb, 0x0B07, true)
  | .faultInject mb => some (mb, 0x0B08, true)
  | .faultForwardSet mb => some (mb, 0x0B09, true)
  | .faultCountersRead mb => some (mb, 0x0B0A, true)
  | .bistStart mb => some (mb, 0x0C00, true)
  | .bistAbort mb => some (mb, 0x0C01, true)
  | .bistQuery mb => some (mb, 0x0C02, true)
  | .bistUnmark mb => some (mb, 0x0C03, true)
  | .bistList mb => some (mb, 0x0C04, true)
  | .pmonConfig mb => some (mb, 0x0D00, true)
  | .pmonRead mb => some (mb, 0x0D01, true)
  | .pmonFreeze mb => some (mb, 0x0D02, true)
  | .pmonSnapshot mb => some (mb, 0x0D03, true)
  | .pmonSnapshotRead mb => some (mb, 0x0D04, true)
  | .pmonSampleRead mb => some (mb, 0x0D05, true)
  | .pwrStateSet mb => some (mb, 0x0E00, true)
  | .pwrQuery mb => some (mb, 0x0E01, false)
  | .sysReset mb => some (mb, 0x0E02, true)
  | .ringReset mb => some (mb, 0x0E03, true)
  | .portReset mb => some (mb, 0x0E04, true)
  | .vhReset mb => some (mb, 0x0E05, true)
  | .boothRestart mb => some (mb, 0x0E06, true)
  | .wakeConfig mb => some (mb, 0x0E07, true)
  | .sleepConfig mb => some (mb, 0x0E08, true)
  | .fwQuery mb => some (mb, 0x0F00, true)
  | .fwWriteBegin mb => some (mb, 0x0F01, true)
  | .fwWrite mb => some (mb, 0x0F02, true)
  | .fwWriteEnd mb => some (mb, 0x0F03, true)
  | .fwActivate mb => some (mb, 0x0F04, true)
  | .fwConfirm mb => some (mb, 0x0F05, true)
  | .fwRestart mb => some (mb, 0x0F06, true)
  | .calRead mb => some (mb, 0x0F07, true)
  | .calWrite mb => some (mb, 0x0F08, true)
  | .calExport mb => some (mb, 0x0F09, true)
  | .calImport mb => some (mb, 0x0F0A, true)
  | .doorbell _ | .registerWrite _ _ _ | .evqHeadWrite _ _ | .evqOverflowClear _ | .forceStop | .mailboxFrameAccess _ _
    | .serialBlockWrite _ _ _ | .serialSendByte _ | .serialWriteWord _ _ | .serialBlockRead | .remoteMailboxReceive _ | .sessionLeaseExpiry _
    | .detectAttempt _ _ | .trainingFrameReceive _ _ | .forwardedClockLockTimeout _ | .trainTimeout _ | .fecLock _
    | .alignmentMarkerReceive _ _ _ | .lockComplete _ | .lockTimeout _ | .fecLockLoss _ | .deskewLoss _ | .clockLaneLoss _ | .lossOfSignal _
    | .retrainSignalReceive _ | .exchangeRecordSend _ | .exchangeBlockReceive _ _ | .exchangeTimeout _ | .linkUpHoldoffEnd _
    | .firstBlockTimeout _ | .trainFailWaitEnd _ _ | .serAlarmWindow _ | .fastRetrainTimeout _ | .fastRetrainComplete _ | .prbsCheck _ _
    | .pcieLinkDown _ _ _ | .transmitBlockSlot _ | .dataBlockReceive _ _ _ | .badBlockReceive _ | .idleBlockReceive _ _
    | .nakBlockReceive _ _ _ | .creditBlockReceive _ _ _ | .reservedTypeBlockReceive _ _ | .replayTimerExpiry _ | .creditReturnDue _
    | .syncSend _ | .syncTimeout _ | .npExpiry _ _ _ | .completionTimeout _ _ | .completionReceive _ | .frameLookup _ _ | .voqAdmit _ _
    | .commitInEffect _ | .firstStageSlot | .secondStageSlot | .periodStart | .outputCellArrival _ | .reseqGapSkip _ _ _
    | .middleBufferDrainEnd _ | .middleBufferReturn _ | .fencedInputCleanup _ | .egressFrameBoundary _ _ | .bucketRefill
    | .penaltyQueueAdmit _ _ | .gateEntryChange _ | .gateListStart _ | .orderHoldRelease _ _ | .routeComputation | .routeCommitRetry
    | .linkStateSend | .linkStateReceive _ _ | .linkStateAgeOut _ | .epochDrained _ _ | .timeSyncExchange _ | .timeMessageReceive _ _
    | .ppsInEdge | .ppsOutSecond | .jugglerStep _ | .moverDoorbell _ | .moverCompletionReceive _ | .quiesceCheck _ _ _ _
    | .resetReqCleared _ _ | .resetTimeout _ _ | .resettingLifetimePass _ _ | .hostTlpWrap _ _ | .targetTlpWrap _ _ _
    | .configEmulation _ _ _ _ _ | .slotControlWrite _ _ _ | .secondaryBusReset _ _ | .hotResetReceive _ | .completionUnwrap _ _
    | .patchworkFrameReceive _ _ | .outboundCycleRun _ | .busCycleEnd _ _ _ | .inboundCycleClaim _ _ | .inboundWrite _ _ | .inboundRead _ _
    | .inboundRmw _ _ | .pciDelayedRepeat _ _ | .delayedDiscardTimeout _ _ | .yieldTimeout _ _ | .prefetchHoldExpiry _ _
    | .busWriteObserved _ _ _ _ | .heritageBusReset _ | .pwBusResetEnd _ | .vddHbLoss _ | .sidebandInputChange _ _ | .presenceChange _ _
    | .insertionDebounceEnd _ | .absenceDeclared _ | .pfwReleaseDelayEnd _ | .holdOffExpiry _ | .startGrant | .prechargeComplete _
    | .prechargeTimeout _ | .gateRiseComplete _ | .gateNoRise _ | .powerGood _ | .stabiliseTimeout _ | .breakerTimerStart _ | .breakerReset _
    | .breakerExpiry _ | .fastTrip _ | .gateLoss _ | .pfwLeadExpiry _ | .retryWaitExpiry _ | .retryCountClear _ | .inputBusWarning _
    | .warningRelease _ | .busCut _ | .busRecovery _ | .slotSample _ _ _ | .boothResume _ _ | .latchRelease | .boothWatchdogExpiry
    | .errorDetect _ _ _ | .pairChangeSeen _ | .faultReportClassify _ _ | .pairOnlyTimeout _ | .wireFault _ | .mergeIntervalEnd _ _
    | .faultFrameReceive _ | .aliveToggle | .livenessRefresh | .livenessExpiry | .bistIsolationComplete _ | .bistEngineEnd _ _
    | .bistReinitComplete _ | .bistNotIdleTimeout _ | .pmonCounterWrap _ _ _ _ | .snapshotCapture | .powerOn | .coldReset | .warmReset
    | .supplyBrownout | .coldHoldCheck _ | .preheatCheck _ | .preheatTimeout | .railPowerGood _ | .railPowerGoodTimeout _ | .railSequenceRetry
    | .railPowerFail _ | .coreRelease | .imageSelect _ | .bootReady | .weftResetEnd | .ringResetDiscardEnd _ | .intermissionDrainEnd
    | .wakeNEdge | .wakeTimerExpiry | .idleSleepTimeout _ | .powerBlockReceive _ _ _ | .sleepAnswerTimeout _ | .sleepNakBackoffEnd _
    | .wakePulseDetect _ | .sleepWake _ | .governorMeasure _ | .vidUpdate | .thermalCheck _ | .railFault _ | .refclkAoLoss | .refclkAoReturn
    | .refclkLoss _ | .refclkCoreLoss | .jtagUnlock _ | .pcieLinkUp _ _ _ _ _ | .vddHbReturn _ _ | .busTimerExpiry _
    | .deviceConfigCycle _ _ _ | .cycleStoreLifetimeExpiry _ | .railPwrOkFall _ | .preheatRetry | .refclkCoreStartTimeout => none

/-- Mailbox `mb` holds a command with opcode `op` and LENGTH at most 4,080, and it begins: BUSY is 1 and the mailbox is served (R374, R377).
While the booth controller restarts, the commands of group 0x0A wait (R359). -/
def State.Begins (s : State) (mb : Mb) (op : Nat) : Prop :=
  (s.mbox mb).busy = true ∧ s.serves mb = true ∧ (s.mbox mb).cmdHdr.opcode = op ∧ (s.mbox mb).cmdHdr.length ≤ 4080 ∧
  (op / 256 = 0x0A → s.slots.restarting = false)

/-- The opcodes that need no session: SYS_QUERY, MB_QUERY and SESSION_OPEN (R382). -/
def sessionless (op : Nat) : Bool := decide (op = 0x0000 ∨ op = 0x0004 ∨ op = 0x0100)

/-- Everything but the mailboxes and the frames in the Carousel is alike in two states. -/
def State.AlikeOutside (s t : State) : Prop :=
  t = { s with mgmt := { s.mgmt with mbox := t.mgmt.mbox }, car := t.car }

/-! ### Ports -/

/-- The core die runs, and a configured port is in a stage (Table 2.8). -/
def State.AtStage (s : State) (p : Nat) (g : Stage) : Prop := s.running = true ∧ (s.port p).configured = true ∧ (s.port p).stage = g

/-! ### What a reader of a mailbox sees -/

/-- The status of the response in RESP (Table 11.5). -/
def State.respStatus (s : State) (n : Nat) : Nat := cellsNat (s.mbox n).resp 7 1
/-- DETAIL of the response in RESP (Table 11.5). -/
def State.respDetail (s : State) (n : Nat) : Nat := cellsNat (s.mbox n).resp 8 4

/-! ### What every step keeps -/

/-- The event log holds at most 512 entries (R383). -/
def Mgmt.Sound (m : Mgmt) : Prop := m.log.length ≤ 512

/-- The ns of fabric time are below one second (R162). -/
def FabricTime.Sound (t : FabricTime) : Prop := t.ns.toNat < 1000000000

/-- The fault log holds at most 1,024 records (R420) and the booth record store 64 (R417), and ALIVE is stopped while the XM5120 is stopped (R429). -/
def Faults.Sound (f : Faults) : Prop := f.log.length ≤ 1024 ∧ f.booth.length ≤ 64 ∧ (f.stopped = true → f.aliveRunning = false)

/-- What every state that a step reaches keeps. -/
def State.Sound (s : State) : Prop := s.mgmt.Sound ∧ s.fabric.time.Sound ∧ s.faults.Sound

end Sys2Proof.Machine
end

