-- ==== Sys2Proof/Certificates/Slice0/Obligations.lean ====
section
/-!
DEFINITION. The statements about the machine, for the provers: what each command does where it is in order, what every step keeps, and the layouts.
A statement about a mailbox command names the checks of R377 in `State.Admits`; `s.begun mb` is the state with the lease of the session renewed (R381),
and `Obeys` says that the command leads from it to the state given and is answered SUCCESS with the payload given.
-/

open Sys2Proof Sys2Proof.Machine

/-- R408, R21, R373: the commands of group 0x00. SYS_QUERY, EVENT_LOG_READ and MB_QUERY return what they name and change nothing; SYS_HOME_SET moves the Ringmaster's home to
a PU in service; MB_ACCESS_SET adds to or removes from the MB0 port list and the switch list, and with SAVE writes both to the directory. -/
def Obligations.SystemCommandsAct : Prop :=
  (∀ (s : State) (mb : Mb) (pl : Nat), s.Admits { opcode := 0x0000, priv := false, open_ := true, recovery := true, stopped := true, query := true } mb
      pl →
    Obeys (.sysQuery mb) s mb (s.begun mb) (packVals [(0x5120, 2), (s.part.stepping.toNat, 1), (b2n s.part.lcX, 1), (s.part.nodeUid.toNat, 8),
      (s.mgmt.bootWord, 8), (s.fabric.switchId.toNat, 2), (b2n s.fabric.idDefault, 1), ((s.now - s.mgmt.bootStart) / 1000000, 8), (s.mgmt.accessDeny,
      8)])) ∧
  (∀ (s : State) (mb : Mb) (pl : Nat), s.Admits { opcode := 0x0001, priv := true, len := fun _ => 1, fields := [(0, 7)] } mb pl →
    s.puHome (fld pl 0 7) = true →
    Obeys (.sysHomeSet mb) s mb ((s.begun mb).modMgmt fun m => { m with homeRm := fld pl 0 7 }) []) ∧
  (∀ (s : State) (mb : Mb) (pl : Nat) (p : Nat) (l : List Nat), s.Admits
      { opcode := 0x0002, priv := true, len := fun _ => 4, fields := [(0, 1), (1, 1), (2, 1), (3, 8), (11, 1), (16, 12)] } mb pl →
    bitOf pl 0 = false → bitOf pl 1 = true → bitOf pl 2 = false → s.portNamed (fld pl 3 8) (fld pl 11 1) = some p →
    addTo 8 s.mgmt.portList p = some l →
    Obeys (.mbAccessSet mb) s mb ((s.begun mb).modMgmt fun m => { m with portList := l }) []) ∧
  (∀ (s : State) (mb : Mb) (pl : Nat), s.Admits
      { opcode := 0x0002, priv := true, len := fun _ => 4, fields := [(0, 1), (1, 1), (2, 1), (3, 8), (11, 1), (16, 12)] } mb pl →
    bitOf pl 0 = false → bitOf pl 1 = false → bitOf pl 2 = false →
    Obeys (.mbAccessSet mb) s mb ((s.begun mb).modMgmt fun m =>
      { m with portList := s.mgmt.portList.filter fun x => decide (x ≠ 2 * fld pl 3 8 + fld pl 11 1) }) []) ∧
  (∀ (s : State) (mb : Mb) (pl : Nat) (l : List (BitVec 12)), s.Admits
      { opcode := 0x0002, priv := true, len := fun _ => 4, fields := [(0, 1), (1, 1), (2, 1), (3, 8), (11, 1), (16, 12)] } mb pl →
    bitOf pl 0 = true → bitOf pl 1 = true → bitOf pl 2 = false → addTo 8 s.mgmt.switchList (fbv pl 16 12) = some l →
    Obeys (.mbAccessSet mb) s mb ((s.begun mb).modMgmt fun m => { m with switchList := l }) []) ∧
  (∀ (s : State) (mb : Mb) (pl : Nat), s.Admits
      { opcode := 0x0002, priv := true, len := fun _ => 4, fields := [(0, 1), (1, 1), (2, 1), (3, 8), (11, 1), (16, 12)] } mb pl →
    bitOf pl 0 = true → bitOf pl 1 = false → bitOf pl 2 = true →
    Obeys (.mbAccessSet mb) s mb (((s.begun mb).modMgmt fun m =>
      { m with switchList := s.mgmt.switchList.filter fun x => decide (x ≠ fbv pl 16 12) }).modMgmt fun m => m.writeDir fun d =>
      { d with portList := m.portList, switchList := m.switchList }) []) ∧
  (∀ (s : State) (mb : Mb) (pl : Nat) (l : List LogEntry), s.Admits
      { opcode := 0x0003, priv := true, stopped := true, query := true, len := fun _ => 3, fields := [(0, 16), (16, 7)], checks := fun pl => [(16, decide (fld pl 16 7 ≠ 0))] }
      mb pl →
    (l = (s.mgmt.log.filter fun e => decide ((e.entry.eseq - fbv pl 0 16).toNat < 32768)).take (fld pl 16 7)) →
    Obeys (.eventLogRead mb) s mb (s.begun mb) (packVals [(((l.head?.map fun e => e.entry.eseq).getD (fbv pl 0 16)).toNat, 2), (l.length, 2)] ++ l.flatMap
      fun e => e.entry.bytes)) ∧
  (∀ (s : State) (mb : Mb) (pl : Nat) (m : Mailbox), s.Admits { opcode := 0x0004, priv := false, open_ := true, query := true } mb pl →
    m = (s.begun mb).mbox mb →
    Obeys (.mbQuery mb) s mb (s.begun mb) (packVals [(b2n m.session.isSome, 1), ((match m.session with | none => 0 | some x => (x.leaseEnd - s.now) /
      1000000000), 2), (m.subs.toNat, 2), (b2n m.notify.enable, 1), (b2n m.notify.onDone, 1), (b2n m.notify.onEvent, 1), (m.notify.geid.toNat, 3),
      (m.notify.addr.toNat, 8), (m.notify.data.toNat, 4)]))

/-- R380, R381, R383, R386: SESSION_OPEN on a mailbox with no session opens one with a non-zero free token and the lease asked for (60 s for 0), and returns the token; with
FORCE it ends the open one first; SESSION_CLOSE ends the session; EVENT_SUBSCRIBE and NOTIFY_SET set the subscriptions and the notification of the issuing mailbox. -/
def Obligations.SessionCommandsAct : Prop :=
  (∀ (s : State) (mb : Mb) (pl lease : Nat), s.Admits { opcode := 0x0100, priv := false, open_ := true, recovery := true, stopped := true, len := fun _ => 4, fields := [(0, 1), (16, 12)], checks := fun pl => [(16, decide (fld pl 16 12 ≤ 3600))] } mb pl →
    ((s.mbox mb).session = none ∨ bitOf pl 0 = true) → lease = (if fld pl 16 12 = 0 then 60 else fld pl 16 12) →
    ∃ token : BitVec 32, token ≠ 0 ∧
      Obeys (.sessionOpen mb) s mb
        ({ (s.begun mb).endSession mb 2 with free := ((s.begun mb).endSession mb 2).free + 1 }.modMbox mb fun m =>
          { m with session := some { token := token, lease := lease, leaseEnd := s.now + lease * 1000000000 } })
        (bytesOf 4 token.toNat)) ∧
  (∀ (s : State) (mb : Mb) (pl : Nat), s.Admits { opcode := 0x0101, priv := false, recovery := true, stopped := true } mb pl →
    Obeys (.sessionClose mb) s mb ((s.begun mb).endSession mb 1) []) ∧
  (∀ (s : State) (mb : Mb) (pl : Nat), s.Admits { opcode := 0x0102, priv := false, stopped := true, len := fun _ => 2, fields := [(0, 16)] } mb pl →
    Obeys (.eventSubscribe mb) s mb ((s.begun mb).modMbox mb fun m => { m with subs := fbv pl 0 16 }) []) ∧
  (∀ (s : State) (mb : Mb) (pl : Nat), s.Admits
      { opcode := 0x0103, priv := false, stopped := true, len := fun _ => 20, fields := [(0, 1), (1, 1), (2, 1), (12, 20), (64, 64), (128, 32)], checks := fun pl => [(64, decide (fld pl 64 2 = 0))] }
      mb pl →
    Obeys (.notifySet mb) s mb ((s.begun mb).modMbox mb fun m =>
      { m with notify := { enable := bitOf pl 0, onDone := bitOf pl 1, onEvent := bitOf pl 2, geid := fbv pl 12 20, addr := fbv pl 64 64, data := fbv pl 128 32 } })
      [])

/-- R77, R86, R66, R85: PORT_CONFIGURE gives quads that no refusal holds a port of the MODE, WIDTH and rates asked for, or with MODE unused removes the port; PORT_ADMIN UP
starts a port in DISABLED afresh, DOWN takes a port to DISABLED and stops its generators and checkers, RETRAIN takes an ACTIVE port to LOCK and FULL_RETRAIN a port past
DETECT to DETECT; PORT_QUERY returns stage, width, mode, rate, failures and LTSSM. -/
def Obligations.PortCommandsAct : Prop :=
  (∀ (s : State) (mb : Mb) (pl q sub w n : Nat) (quads : List Nat), s.Admits { opcode := 0x0200, priv := true, len := fun _ => 4, fields := [(0, 8), (8, 2), (10, 3), (13, 1), (14, 3), (17, 1), (18, 2), (20, 1)], checks := fun pl => let mode := fld pl 8 2; let w := fld pl 10 3; [(0, decide (fld pl 0 8 < 128)), (8, decide (mode ≠ 3)), (10, decide (w ≤ 4) && !(decide (mode = 0) && decide (w < 2)) && !(decide (mode = 2) && decide (w ≠ 0))), (13, !(bitOf pl 13) || (decide (mode = 1) && decide (w ≤ 1))), (14, decide (fld pl 14 3 ≤ 5) && (decide (mode = 1) || decide (fld pl 14 3 = 0))), (17, decide (mode = 1) || !bitOf pl 17), (18, decide (fld pl 18 2 ≠ 3) && (decide (mode = 1) || decide (fld pl 18 2 = 0))), (20, !(decide (mode = 2) && bitOf pl 20))] } mb pl →
    q = fld pl 0 8 → sub = fld pl 13 1 → w = 2 ^ fld pl 10 3 → n = (if w = 16 then 4 else if w = 8 then 2 else 1) →
    quads = (List.range n).map (q + ·) → fld pl 8 2 ≠ 2 → q % n = 0 → q + n ≤ 128 →
    (sub = 1 → (s.port (2 * q)).configured = true ∧ (s.port (2 * q)).pcie = true ∧ (s.port (2 * q)).width ≤ 2) →
    s.configureRefusal quads (s.portsIn quads) = none →
    ∃ t : State, Obeys (.portConfigure mb) s mb t [] ∧ (t.port (2 * q + sub)).configured = true ∧
      (t.port (2 * q + sub)).pcie = decide (fld pl 8 2 = 1) ∧ (t.port (2 * q + sub)).width = w ∧
      (t.port (2 * q + sub)).maxRate = fbv pl 14 3 ∧ (t.port (2 * q + sub)).upstream = bitOf pl 17 ∧
      (t.port (2 * q + sub)).clocking = fbv pl 18 2 ∧ (t.port (2 * q + sub)).autoUp = bitOf pl 20 ∧
      (bitOf pl 20 = false → (t.port (2 * q + sub)).stage = .disabled)) ∧
  (∀ (s : State) (mb : Mb) (pl : Nat) (p : Nat), s.Admits
      { opcode := 0x0200, priv := true, len := fun _ => 4, fields := [(0, 8), (8, 2), (10, 3), (13, 1), (14, 3), (17, 1), (18, 2), (20, 1)], checks := fun pl => let mode := fld pl 8 2; let w := fld pl 10 3; [(0, decide (fld pl 0 8 < 128)), (8, decide (mode ≠ 3)), (10, decide (w ≤ 4) && !(decide (mode = 0) && decide (w < 2)) && !(decide (mode = 2) && decide (w ≠ 0))), (13, !(bitOf pl 13) || (decide (mode = 1) && decide (w ≤ 1))), (14, decide (fld pl 14 3 ≤ 5) && (decide (mode = 1) || decide (fld pl 14 3 = 0))), (17, decide (mode = 1) || !bitOf pl 17), (18, decide (fld pl 18 2 ≠ 3) && (decide (mode = 1) || decide (fld pl 18 2 = 0))), (20, !(decide (mode = 2) && bitOf pl 20))] }
      mb pl →
    fld pl 8 2 = 2 → s.portNamed (fld pl 0 8) 0 = some p → s.configureRefusal (s.quadsOf p) [p] = none →
    (s.port (2 * fld pl 0 8 + 1)).configured = false →
    Obeys (.portConfigure mb) s mb ((s.begun mb).removePort p) []) ∧
  (∀ (s : State) (mb : Mb) (pl : Nat) (p : Nat), s.Admits { opcode := 0x0201, priv := true, len := fun _ => 2, fields := [(0, 8), (8, 1), (9, 2)] } mb pl
      →
    s.portNamed (fld pl 0 8) (fld pl 8 1) = some p → fld pl 9 2 = 0 →
    (s.portHeld s.fenced p || s.portOff p || s.portHeld s.underTest p || s.portHeld s.marked p) = false →
    Obeys (.portAdmin mb) s mb (((s.begun mb).modPort p fun x => { x with failCount := 0, firstFail := true, waiting := false }).modPort p fun x => if
      x.stage = .disabled then
      { x with stage := if x.pcie then .pcieTraining else .detect, failCount := 0, firstFail := true, partials := 0, waiting := false, retrain := false, clockLost := false, loopback := 0 }
      else x) []) ∧
  (∀ (s : State) (mb : Mb) (pl : Nat) (p : Nat), s.Admits { opcode := 0x0201, priv := true, len := fun _ => 2, fields := [(0, 8), (8, 1), (9, 2)] } mb pl
      →
    s.portNamed (fld pl 0 8) (fld pl 8 1) = some p → fld pl 9 2 = 1 → (s.port p).stage ≠ .disabled →
    Obeys (.portAdmin mb) s mb ((((s.begun mb).goDown p .disabled rsAdmin 0).modPort p fun x =>
      { x with partials := 0, waiting := false, retrain := false, clockLost := false, waking := false, loopback := 0 }).modLanes p fun l =>
      { l with genEn := false, chkEn := false, prbsSync := false }) []) ∧
  (∀ (s : State) (mb : Mb) (pl : Nat) (p : Nat), s.Admits { opcode := 0x0201, priv := true, len := fun _ => 2, fields := [(0, 8), (8, 1), (9, 2)] } mb pl
      →
    s.portNamed (fld pl 0 8) (fld pl 8 1) = some p → fld pl 9 2 = 2 → (s.port p).stage = .active →
    (s.portHeld s.fenced p || s.portOff p || s.portHeld s.underTest p || s.portHeld s.marked p) = false →
    Obeys (.portAdmin mb) s mb ((s.begun mb).retrain p rsAdmin) []) ∧
  (∀ (s : State) (mb : Mb) (pl : Nat) (p : Nat), s.Admits { opcode := 0x0201, priv := true, len := fun _ => 2, fields := [(0, 8), (8, 1), (9, 2)] } mb pl
      →
    s.portNamed (fld pl 0 8) (fld pl 8 1) = some p → fld pl 9 2 = 3 → (s.port p).stage = .active →
    (s.portHeld s.fenced p || s.portOff p || s.portHeld s.underTest p || s.portHeld s.marked p) = false →
    Obeys (.portAdmin mb) s mb (((s.begun mb).goDown p .detect rsAdmin 0).modPort p fun x =>
      { x with partials := 0, retrain := false, clockLost := false, waking := false }) []) ∧
  (∀ (s : State) (mb : Mb) (pl : Nat) (p : Nat), s.Admits
      { opcode := 0x0202, priv := false, query := true, len := fun _ => 2, fields := [(0, 8), (8, 1)] } mb pl →
    s.portNamed (fld pl 0 8) (fld pl 8 1) = some p → s.mayName mb (s.portOwner p) = true →
    Obeys (.portQuery mb) s mb (s.begun mb) (bytesOf 5 (packBits [((s.port p).stage.code, 4), (codeOfWidth (s.port p).width, 3), (b2n (s.port p).pcie, 1),
      ((s.port p).rate.toNat, 3), (0, 3), ((s.port p).failCount, 8), ((s.port p).lastFail.toNat, 8), ((s.port p).ltssm.toNat, 6)])))

/-- R85, R69, R78, R82, R80, R81: LANE_STATUS and LANE_COUNTERS_READ return the values of a lane, and the read clears the counters only where CLEAR asks for it; LANE_FIR_SET
fixes or frees the six taps of a native lane; LANE_PRBS sets the pattern, generator and checker of one lane or of every lane of its port, and LANE_LOOPBACK the loopback
of a port, and the port moves to the stage that they ask for; LANE_ALARM_SET sets the threshold of one lane or of all 512. -/
def Obligations.LaneCommandsAct : Prop :=
  (∀ (s : State) (mb : Mb) (pl : Nat), s.Admits { opcode := 0x0203, priv := false, query := true, len := fun _ => 2, fields := [(0, 9)] } mb pl →
    privilegedMb mb = true →
    Obeys (.laneStatus mb) s mb (s.begun mb) (packVals (((s.lane (fld pl 0 9)).taps.map fun v => (signedNat 1 v, 1)) ++ [(signedNat 8 (s.lane (fld pl 0
      9)).phase, 8), ((s.lane (fld pl 0 9)).deskew, 8), ((s.lane (fld pl 0 9)).snr, 8), (b2n (s.lane (fld pl 0 9)).inverted, 1), ((s.lane (fld pl 0
      9)).lip.toNat, 1)]))) ∧
  (∀ (s : State) (mb : Mb) (pl : Nat) (p : Nat), s.Admits { opcode := 0x0203, priv := false, query := true, len := fun _ => 2, fields := [(0, 9)] } mb pl
      →
    s.portOfLane (fld pl 0 9) = some p → s.mayName mb (s.portOwner p) = true →
    Obeys (.laneStatus mb) s mb (s.begun mb) (packVals (((s.lane (fld pl 0 9)).taps.map fun v => (signedNat 1 v, 1)) ++ [(signedNat 8 (s.lane (fld pl 0
      9)).phase, 8), ((s.lane (fld pl 0 9)).deskew, 8), ((s.lane (fld pl 0 9)).snr, 8), (b2n (s.lane (fld pl 0 9)).inverted, 1), ((s.lane (fld pl 0
      9)).lip.toNat, 1)]))) ∧
  (∀ (s : State) (mb : Mb) (pl : Nat), s.Admits
      { opcode := 0x0204, priv := true, len := fun _ => 8, fields := [(0, 9), (9, 1), (16, 48)], checks := fun pl => (List.range 6).map fun k => (16 + 8 * k, !(bitOf pl 9) || (decide ((tapRange k).1 ≤ fldSigned pl (16 + 8 * k) 8) && decide (fldSigned pl (16 + 8 * k) 8 ≤ (tapRange k).2))) }
      mb pl →
    s.pcieLane (fld pl 0 9) = false →
    Obeys (.laneFirSet mb) s mb ((s.begun mb).modLane (fld pl 0 9) fun l =>
      { l with fixed := if bitOf pl 9 then some [fldSigned pl 16 8, fldSigned pl 24 8, fldSigned pl 32 8, fldSigned pl 40 8, fldSigned pl 48 8, fldSigned pl 56 8] else none })
      []) ∧
  (∀ (s : State) (mb : Mb) (pl : Nat) (p : Nat), s.Admits
      { opcode := 0x0205, priv := true, len := fun _ => 2, fields := [(0, 9), (9, 1), (10, 2), (12, 1), (13, 1), (14, 1)], checks := fun pl => [(10, decide (fld pl 10 2 ≠ 3))] }
      mb pl →
    s.portOfLane (fld pl 0 9) = some p → fld pl 10 2 ≠ 0 → (bitOf pl 12 || bitOf pl 13) = true → bitOf pl 9 = false →
    ((s.port p).pcie && bitOf pl 14) = false → s.diagRefusal p = none →
    Obeys (.lanePrbs mb) s mb (((s.begun mb).modLane (fld pl 0 9) fun l =>
      { l with prbs := fbv pl 10 2, genEn := bitOf pl 12, chkEn := bitOf pl 13, precode := bitOf pl 14, prbsSync := false, prbsRun := 0, prbsHist := [] }).diagStage
      p) []) ∧
  (∀ (s : State) (mb : Mb) (pl : Nat) (p : Nat), s.Admits
      { opcode := 0x0205, priv := true, len := fun _ => 2, fields := [(0, 9), (9, 1), (10, 2), (12, 1), (13, 1), (14, 1)], checks := fun pl => [(10, decide (fld pl 10 2 ≠ 3))] }
      mb pl →
    s.portOfLane (fld pl 0 9) = some p → fld pl 10 2 ≠ 0 → (bitOf pl 12 || bitOf pl 13) = true → bitOf pl 9 = true →
    ((s.port p).pcie && bitOf pl 14) = false → s.diagRefusal p = none →
    Obeys (.lanePrbs mb) s mb (((s.begun mb).modLanes p fun l =>
      { l with prbs := fbv pl 10 2, genEn := bitOf pl 12, chkEn := bitOf pl 13, precode := bitOf pl 14, prbsSync := false, prbsRun := 0, prbsHist := [] }).diagStage
      p) []) ∧
  (∀ (s : State) (mb : Mb) (pl : Nat) (p : Nat), s.Admits
      { opcode := 0x0205, priv := true, len := fun _ => 2, fields := [(0, 9), (9, 1), (10, 2), (12, 1), (13, 1), (14, 1)], checks := fun pl => [(10, decide (fld pl 10 2 ≠ 3))] }
      mb pl →
    s.portOfLane (fld pl 0 9) = some p → fld pl 10 2 = 0 → bitOf pl 9 = true → (s.port p).stage = .test →
    ((s.port p).pcie && bitOf pl 14) = false →
    Obeys (.lanePrbs mb) s mb (((s.begun mb).modLanes p fun l =>
      { l with prbs := 0, genEn := false, chkEn := false, precode := bitOf pl 14, prbsSync := false, prbsRun := 0, prbsHist := [] }).diagStage p) []) ∧
  (∀ (s : State) (mb : Mb) (pl : Nat) (p : Nat), s.Admits
      { opcode := 0x0206, priv := true, len := fun _ => 2, fields := [(0, 8), (8, 1), (9, 3)], checks := fun pl => [(9, decide (fld pl 9 3 ≤ 4))] } mb
      pl →
    s.portNamed (fld pl 0 8) (fld pl 8 1) = some p → fld pl 9 3 ≠ 0 → (fld pl 9 3 = 3 → (s.port p).pcie = false) →
    (fld pl 9 3 = 4 → (s.port p).pcie = true) → s.diagRefusal p = none →
    Obeys (.laneLoopback mb) s mb (((s.begun mb).modPort p fun x => { x with loopback := BitVec.ofNat 3 (fld pl 9 3) }).diagStage p) []) ∧
  (∀ (s : State) (mb : Mb) (pl : Nat) (p : Nat), s.Admits
      { opcode := 0x0206, priv := true, len := fun _ => 2, fields := [(0, 8), (8, 1), (9, 3)], checks := fun pl => [(9, decide (fld pl 9 3 ≤ 4))] } mb
      pl →
    s.portNamed (fld pl 0 8) (fld pl 8 1) = some p → fld pl 9 3 = 0 → (s.port p).stage = .loopback →
    Obeys (.laneLoopback mb) s mb (((s.begun mb).modPort p fun x => { x with loopback := 0 }).diagStage p) []) ∧
  (∀ (s : State) (mb : Mb) (pl : Nat), s.Admits { opcode := 0x0207, priv := false, query := true, len := fun _ => 2, fields := [(0, 9), (9, 1)] } mb pl →
    privilegedMb mb = true →
    Obeys (.laneCountersRead mb) s mb (if bitOf pl 9 then (s.begun mb).modLane (fld pl 0 9) fun l =>
      { l with symErr := 0, bitErr := 0, cwCorr := 0, cwUncorr := 0 } else (s.begun mb)) (packCounters [(s.lane (fld pl 0 9)).symErr, (s.lane (fld pl
      0 9)).bitErr, (s.lane (fld pl 0 9)).cwCorr, (s.lane (fld pl 0 9)).cwUncorr])) ∧
  (∀ (s : State) (mb : Mb) (pl : Nat), s.Admits { opcode := 0x0208, priv := true, len := fun _ => 8, fields := [(0, 9), (9, 1), (32, 32)] } mb pl →
    Obeys (.laneAlarmSet mb) s mb (if bitOf pl 9 then (s.begun mb).each (List.range 512) fun t n => t.modLane n fun l =>
      { l with threshold := fld pl 32 32 } else (s.begun mb).modLane (fld pl 0 9) fun l => { l with threshold := fld pl 32 32 }) [])

/-- R106, R113, R125, R127: LINK_CONFIG changes each setting whose field is not 0; LINK_CREDIT_SET sets the pools of the next EXCHANGE where they fit the VC buffers and give
VC6 and VC7 at least 18; LINK_QUERY and LINK_COUNTERS_READ return the state and the counters of a link, and the read zeroes them where CLEAR asks for it;
LINK_ERROR_INJECT adds to the errors waiting for an ACTIVE port. -/
def Obligations.LinkCommandsAct : Prop :=
  (∀ (s : State) (mb : Mb) (pl : Nat) (p : Nat), s.Admits
      { opcode := 0x0300, priv := true, len := fun _ => 8, fields := [(0, 8), (8, 1), (16, 8), (24, 4), (28, 6), (48, 16)], checks := fun pl => [(16, decide (fld pl 16 8 = 0 ∨ 4 ≤ fld pl 16 8)), (28, decide (fld pl 28 6 ≤ 32)), (48, decide (fld pl 48 16 ≤ 60000))] }
      mb pl →
    s.portNamed (fld pl 0 8) (fld pl 8 1) = some p → ((s.port p).pcie && decide (fld pl 16 18 ≠ 0)) = false →
    Obeys (.linkConfig mb) s mb ((s.begun mb).modLink p fun l =>
      { l with replayTimer := if fld pl 16 8 = 0 then l.replayTimer else fld pl 16 8, replayLimit := if fld pl 24 4 = 0 then l.replayLimit else fld pl 24 4, leakThresh := if fld pl 28 6 = 0 then l.leakThresh else fld pl 28 6, npExpiry := if fld pl 48 16 = 0 then l.npExpiry else fld pl 48 16 })
      []) ∧
  (∀ (s : State) (mb : Mb) (pl : Nat) (p : Nat) (pools : List Nat), s.Admits
      { opcode := 0x0301, priv := true, len := fun _ => 17, fields := [(0, 8), (8, 128)] } mb pl →
    s.portNamed (fld pl 0 8) 0 = some p → (s.port p).pcie = false → (pools = (List.range 8).map fun v => fld pl (8 + 16 * v) 16) →
    pools.sum ≤ 4096 * (s.port p).quads → 18 ≤ nth 0 pools 6 → 18 ≤ nth 0 pools 7 →
    Obeys (.linkCreditSet mb) s mb ((s.begun mb).modLink p fun l => { l with poolSet := some pools }) []) ∧
  (∀ (s : State) (mb : Mb) (pl : Nat) (p : Nat) (n : Nat) (l : Link), s.Admits
      { opcode := 0x0302, priv := false, query := true, len := fun _ => 2, fields := [(0, 8), (8, 1)] } mb pl →
    s.portNamed (fld pl 0 8) (fld pl 8 1) = some p → s.mayName mb (s.portOwner p) = true → n = b2n !(s.port p).pcie → l = s.link p →
    Obeys (.linkQuery mb) s mb (s.begun mb) (packVals ([(l.inc.toNat, 1), (s.linkState p, 1), (n * l.w, 2), (n * l.high.toNat, 2), (n * l.e.toNat, 2), (n
      * l.u.length, 8), (l.outReqs.length, 8)] ++ (List.range 8).flatMap (fun v => [(n * b2n (l.inUse v), 1), (n * nth 0 l.pool v, 2), (n * nth 0
      l.partnerPool v, 2), (n * nth 0 l.credits v, 8)]) ++ (if (s.port p).pcie then [(l.counters.postedDrop, 8), (l.counters.cplDrop, 8),
      (l.counters.rxPartialDrop, 8)] else [])))) ∧
  (∀ (s : State) (mb : Mb) (pl : Nat) (p : Nat), s.Admits
      { opcode := 0x0303, priv := false, query := true, len := fun _ => 2, fields := [(0, 8), (8, 1), (9, 1)] } mb pl →
    s.portNamed (fld pl 0 8) (fld pl 8 1) = some p → s.mayName mb (s.portOwner p) = true →
    Obeys (.linkCountersRead mb) s mb (if bitOf pl 9 then (s.begun mb).countLink p fun _ => {} else (s.begun mb)) (packCounters (s.link p).counters.list)) ∧
  (∀ (s : State) (mb : Mb) (pl : Nat) (p : Nat), s.Admits
      { opcode := 0x0304, priv := true, len := fun _ => 3, fields := [(0, 8), (8, 3), (16, 8)], checks := fun pl => [(8, decide (fld pl 8 3 ≤ 3)), (16, decide (fld pl 16 8 ≠ 0))] }
      mb pl →
    s.portNamed (fld pl 0 8) 0 = some p → (s.port p).stage = .active →
    Obeys (.linkErrorInject mb) s mb ((s.begun mb).modLink p fun l => { l with inject := modAt l.inject (fld pl 8 3) (· + fld pl 16 8) }) [])

/-- R149, R141, R144, R130, R152, R167: the WRITE commands of group 0x04 replace staged entries and nothing else (ROUTE_WRITE and GROUP_WRITE in managed mode); TABLE_COMMIT
applies the staged writes of the tables named, where no earlier epoch is in the way, and drops them; TABLE_DISCARD drops them; EPOCH_WAIT counts the frames of an epoch
and, with some left, waits; TABLE_READ returns entries in the form in which they are written. -/
def Obligations.TableCommandsAct : Prop :=
  (∀ (s : State) (mb : Mb) (pl : Nat), s.Admits
      { opcode := 0x0401, priv := true, len := fun pl => 4 + 4 * fld pl 12 8, fields := [(0, 12), (12, 8)] ++ (List.range 255).flatMap fun i => [(32 + 32 * i, 9), (48 + 32 * i, 8)], checks := fun pl => let n := fld pl 12 8; [(12, decide (1 ≤ n)), (0, decide (fld pl 0 12 + n ≤ 4096)), tailZero pl (32 + 32 * n)] ++ (List.range n).map fun i => (32 + 32 * i, decide (fld pl (32 + 32 * i) 2 ≠ 3)) }
      mb pl →
    s.fabric.managed = true →
    Obeys (.routeWrite mb) s mb ((s.begun mb).modStaged fun w =>
      { w with route := (List.range (fld pl 12 8)).foldl (fun t i => Tab.put none t (fld pl 0 12 + i) (some (RouteEntry.ofBits (fld pl (32 + 32 * i) 32)))) w.route })
      []) ∧
  (∀ (s : State) (mb : Mb) (pl : Nat), s.Admits
      { opcode := 0x0402, priv := true, len := fun _ => 50, fields := [(0, 8), (8, 4), (16, 128), (144, 256)], checks := fun pl => ((List.range (fld pl 8 4 + 1)).map fun i => (16 + 8 * i, decide (fld pl (16 + 8 * i) 8 < 128))) ++ (List.range 64).map fun b => (144 + 4 * b, decide (fld pl (144 + 4 * b) 4 ≤ fld pl 8 4)) }
      mb pl →
    s.fabric.managed = true →
    Obeys (.groupWrite mb) s mb ((s.begun mb).modStaged fun w =>
      { w with group := Tab.put none w.group (fld pl 0 8) (some { members := (List.range (fld pl 8 4 + 1)).map fun i => fld pl (16 + 8 * i) 8, buckets := (List.range 64).map fun b => fld pl (144 + 4 * b) 4 }) })
      []) ∧
  (∀ (s : State) (mb : Mb) (pl : Nat), s.Admits
      { opcode := 0x0403, priv := true, len := fun _ => 24, fields := [(0, 10), (10, 1), (11, 8), (19, 6), (32, 52), (96, 20), (116, 12), (128, 1), (140, 52)], checks := fun pl => [(19, !bitOf pl 10 || decide (12 ≤ fld pl 19 6)), (32, !bitOf pl 10 || decide (fld pl 32 52 * 4096 % 2 ^ fld pl 19 6 = 0))] }
      mb pl →
    Obeys (.windowWrite mb) s mb ((s.begun mb).modStaged fun w =>
      { w with window := Tab.put none w.window (fld pl 0 10) (some { valid := bitOf pl 10, partition := fbv pl 11 8, sizeLog2 := fld pl 19 6, base := BitVec.ofNat 64 (fld pl 32 52 * 4096), target := fbv pl 96 20, inst := fbv pl 116 12, instValid := bitOf pl 128, targetBase := BitVec.ofNat 64 (fld pl 140 52 * 4096) }) })
      []) ∧
  (∀ (s : State) (mb : Mb) (pl : Nat), s.Admits
      { opcode := 0x0404, priv := true, len := fun _ => 3, fields := [(0, 8), (8, 3), (11, 8), (19, 1), (20, 4)], checks := fun pl => [(0, decide (fld pl 0 8 ≠ 255)), (8, decide (fld pl 8 3 ≤ 2)), (11, decide (fld pl 8 3 = 1 → fld pl 11 8 < 128)), (20, decide (fld pl 8 3 = 2 → fld pl 20 4 < 4 ∧ (fld pl 0 8 < 4 → fld pl 20 4 = fld pl 0 8)))] }
      mb pl →
    Obeys (.endpointWrite mb) s mb ((s.begun mb).modStaged fun w =>
      { w with endpoint := Tab.put none w.endpoint (fld pl 0 8) (some (if fld pl 8 3 = 1 then .port (fld pl 11 8) (fld pl 19 1) else if fld pl 8 3 = 2 then .internal (fld pl 20 4) else .unassigned)) })
      []) ∧
  (∀ (s : State) (mb : Mb) (pl : Nat) (k : TableKind) (l : List TableKind), s.Admits
      { opcode := 0x0405, priv := true, len := fun _ => 1, fields := [(0, 5)] } mb pl →
    ((allTables.filter fun t => (fld pl 0 5).testBit t.code) = k :: l) → s.busyTable (k :: l) = none →
    Obeys (.tableCommit mb) s mb ((s.begun mb).commit (k :: l)) (((s.begun mb).commit (k :: l)).epochBytes)) ∧
  (∀ (s : State) (mb : Mb) (pl : Nat), s.Admits { opcode := 0x0406, priv := true, len := fun _ => 1, fields := [(0, 5)] } mb pl →
    Obeys (.tableDiscard mb) s mb ((s.begun mb).modStaged fun w => w.drop (allTables.filter fun t => (fld pl 0 5).testBit t.code)) ((s.begun
      mb).epochBytes)) ∧
  (∀ (s : State) (mb : Mb) (pl : Nat) (k : TableKind) (n : Nat), s.Admits
      { opcode := 0x0407, priv := true, len := fun _ => 1, fields := [(0, 3), (3, 2)], checks := fun pl => [(0, decide (fld pl 0 3 ≤ 4))] } mb pl →
    k = nth .policy [.route, .group, .endpoint, .window, .policy] (fld pl 0 3) → n = s.epochFrames k (fbv pl 3 2) →
    Obeys (.epochWait mb) s mb (if n = 0 ∨ (k, fbv pl 3 2) ∈ s.fabric.waits then (s.begun mb) else (s.begun mb).modFab fun f =>
      { f with waits := f.waits ++ [(k, fbv pl 3 2)] }) (packVals [(b2n (decide (n = 0)), 1), (n, 8)])) ∧
  (∀ (s : State) (mb : Mb) (pl : Nat) (k : TableKind) (t : Tables), s.Admits
      { opcode := 0x0408, priv := true, query := true, len := fun _ => 3, fields := [(0, 3), (3, 1), (4, 12), (16, 8)], checks := fun pl => let (n, w) := tableSize (tableOf (fld pl 0 3)); [(0, decide (fld pl 0 3 < 4)), (4, decide (fld pl 0 3 = 4 ∨ fld pl 4 12 < n)), (16, decide (fld pl 4 12 + fld pl 16 8 ≤ n ∧ fld pl 16 8 * w ≤ 4080))] }
      mb pl →
    k = nth .policy [.route, .group, .endpoint, .window, .policy] (fld pl 0 3) →
    t = (if bitOf pl 3 then s.nextTables [k] else s.fabric.tables) →
    Obeys (.tableRead mb) s mb (s.begun mb) ((List.range (fld pl 16 8)).flatMap fun i => t.entryBytes k (fld pl 4 12 + i)))

/-- R145, R129, R146, R160, R162, R163, R165: FABRIC_CONFIG changes the fields that it names, the switch ID only with no native link up; PARTNER_QUERY, TOPOLOGY_QUERY,
FABRIC_TIME_QUERY and FABRIC_COUNTERS_READ return what they name; FABRIC_TIME_CONFIG sets GM_PRIORITY, PPS_IN, the preset second and the asymmetry of a native port;
PARTNER_SLOT_SET binds a slot to a port. -/
def Obligations.FabricCommandsAct : Prop :=
  (∀ (s : State) (mb : Mb) (pl : Nat) (mode : Nat), s.Admits
      { opcode := 0x0400, priv := true, len := fun _ => 12, fields := [(0, 12), (12, 1), (13, 2), (15, 1), (16, 10), (32, 16), (48, 16), (64, 1)], checks := fun pl => [(13, decide (fld pl 13 2 ≠ 3)), (15, !bitOf pl 15 || bitOf pl 12), (16, decide (fld pl 16 10 ≤ 1000)), (32, decide (fld pl 32 16 ≤ 60000))] }
      mb pl →
    ((bitOf pl 12 && s.allPorts.any fun p => (s.port p).nativeUp) = false) → mode = fld pl 13 2 →
    Obeys (.fabricConfig mb) s mb ((if bitOf pl 15 then (if bitOf pl 12 then (s.begun mb).modFab fun f =>
      { f with switchId := fbv pl 0 12, idDefault := false } else (s.begun mb)).modMgmt fun m => m.writeDir fun d =>
      { d with savedSwitch := some (fbv pl 0 12) } else (if bitOf pl 12 then (s.begun mb).modFab fun f =>
      { f with switchId := fbv pl 0 12, idDefault := false } else (s.begun mb))).modFab fun f =>
      { f with managed := if mode = 0 then f.managed else decide (mode = 2), topoPending := if mode = 1 ∧ f.managed then true else f.topoPending, commitRetry := f.commitRetry && decide (mode ≠ 2), lifetimeMs := if fld pl 16 10 = 0 then f.lifetimeMs else fld pl 16 10, cplTimeoutMs := if fld pl 32 16 = 0 then f.cplTimeoutMs else fld pl 32 16, seedPending := if bitOf pl 64 then some (fbv pl 48 16) else f.seedPending })
      []) ∧
  (∀ (s : State) (mb : Mb) (pl : Nat) (p : Nat), s.Admits
      { opcode := 0x0409, priv := false, query := true, len := fun _ => 2, fields := [(0, 8), (8, 1)] } mb pl →
    s.portNamed (fld pl 0 8) (fld pl 8 1) = some p → s.mayName mb (s.portOwner p) = true →
    Obeys (.partnerQuery mb) s mb (s.begun mb) (bytesOf 16 (packBits [((s.partnerKind p).toNat, 4), (b2n (s.port p).linkUp, 1), (b2n (s.partnerPresent p),
      1), ((s.link p).inc.toNat, 8), ((s.partner p).geid.toNat, 20), ((s.partner p).port.toNat, 8), ((s.partner p).slot.toNat, 6), ((s.partner
      p).width.toNat, 5), ((s.partner p).rate.toNat, 3), (0, 8), ((s.partner p).uid.toNat, 64)]))) ∧
  (∀ (s : State) (mb : Mb) (pl : Nat) (l : List (List Byte)), s.Admits { opcode := 0x040A, priv := true, query := true } mb pl →
    (l = fitting 4076 (s.fabric.links.filterMap fun e => if e.1 = s.fabric.switchId.toNat then none else e.2.map fun r => linkRecBytes r.record)) →
    Obeys (.topologyQuery mb) s mb (s.begun mb) (bytesOf 2 l.length ++ l.flatMap id ++ bytesOf 2 s.rootSwitch)) ∧
  (∀ (s : State) (mb : Mb) (pl : Nat), s.Admits
      { opcode := 0x040B, priv := true, len := fun _ => 12, fields := [(0, 8), (8, 1), (9, 1), (10, 48), (58, 8), (66, 1), (80, 16)] } mb pl →
    bitOf pl 66 = false →
    Obeys (.fabricTimeConfig mb) s mb ((s.begun mb).modFab fun f =>
      { f with time := { f.time with gmPriority := fbv pl 0 8, ppsInEn := bitOf pl 8, presetSec := if bitOf pl 9 then some (fbv pl 10 48) else f.time.presetSec } })
      []) ∧
  (∀ (s : State) (mb : Mb) (pl : Nat) (p : Nat), s.Admits
      { opcode := 0x040B, priv := true, len := fun _ => 12, fields := [(0, 8), (8, 1), (9, 1), (10, 48), (58, 8), (66, 1), (80, 16)] } mb pl →
    bitOf pl 66 = true → s.portNamed (fld pl 58 8) 0 = some p → (s.port p).pcie = false →
    Obeys (.fabricTimeConfig mb) s mb (((s.begun mb).modTime fun t =>
      { t with gmPriority := fbv pl 0 8, ppsInEn := bitOf pl 8, presetSec := if bitOf pl 9 then some (fbv pl 10 48) else t.presetSec }).modTime fun t
      => { t with asym := Tab.put 0 t.asym p (fldSigned pl 80 16) }) []) ∧
  (∀ (s : State) (mb : Mb) (pl : Nat), s.Admits { opcode := 0x040C, priv := false, query := true } mb pl →
    Obeys (.fabricTimeQuery mb) s mb (s.begun mb) (packVals [(s.fabric.time.seconds.toNat, 6), (s.fabric.time.ns.toNat, 4), (s.fabric.time.state.code, 1),
      (s.fabric.time.source.getD 0xFF, 1), (s.fabric.time.hops, 1)])) ∧
  (∀ (s : State) (mb : Mb) (pl : Nat) (c : FabricCounters), s.Admits
      { opcode := 0x040D, priv := false, query := true, len := fun _ => 1, fields := [(0, 7), (7, 1)] } mb pl →
    privilegedMb mb = true → c = Tab.get {} s.fabric.counters (fld pl 0 7) →
    Obeys (.fabricCountersRead mb) s mb (if bitOf pl 7 then (s.begun mb).countFab (fld pl 0 7) fun _ => {} else (s.begun mb)) (packCounters [c.malformed,
      c.noRoute, c.windowMiss, c.hopLimit, c.lifetimeNp, c.lifetimeDrop, c.cplTimeout, c.unexpectedCpl, c.failover])) ∧
  (∀ (s : State) (mb : Mb) (pl : Nat) (p : Nat), s.Admits
      { opcode := 0x040E, priv := true, len := fun _ => 2, fields := [(0, 8), (8, 1), (9, 6)], checks := fun pl => [(9, decide (fld pl 9 6 < 48 ∨ fld pl 9 6 = 0x3F))] }
      mb pl →
    s.portNamed (fld pl 0 8) (fld pl 8 1) = some p →
    Obeys (.partnerSlotSet mb) s mb ((s.begun mb).modPartner p fun x => { x with slot := fbv pl 9 6 }) [])

/-- R175, R183, R178, R199, R197, R198: VOQ_LIMIT_SET sets the limit of each VOQ that its mask names, up to the cell store of the port; MIDDLE_SHARE_SET and PCIE_STORE_SET
leave shares that the next period takes up; CAROUSEL_QUERY, CAROUSEL_COUNTERS_READ and BUFFER_HWM_READ return states, counters and marks, and a read zeroes the counters,
or returns the marks to the present occupancy, only where CLEAR asks for it. -/
def Obligations.CarouselCommandsAct : Prop :=
  (∀ (s : State) (mb : Mb) (pl : Nat), s.Admits { opcode := 0x0500, priv := true, query := true } mb pl →
    Obeys (.carouselQuery mb) s mb (s.begun mb) (bytesOf 35 (packBits ((List.range 128).map (fun m => ((s.mid m).state.code, 2)) ++ [(s.car.period.toNat,
      24)])))) ∧
  (∀ (s : State) (mb : Mb) (pl : Nat) (p : Nat), s.Admits
      { opcode := 0x0501, priv := true, len := fun _ => 5, fields := [(0, 8), (8, 1), (16, 8), (24, 16)], checks := fun pl => [(24, decide (18 ≤ fld pl 24 16))] }
      mb pl →
    s.portNamed (fld pl 0 8) (fld pl 8 1) = some p → fld pl 24 16 ≤ s.storeOf p →
    Obeys (.voqLimitSet mb) s mb ((s.begun mb).modCar fun c =>
      { c with voqLimit := (List.range 8).foldl (fun t v => if bitOf pl (16 + v) then Tab.put none t (8 * p + v) (some (fld pl 24 16)) else t) c.voqLimit })
      []) ∧
  (∀ (s : State) (mb : Mb) (pl : Nat), s.Admits
      { opcode := 0x0502, priv := true, len := fun _ => 16, fields := [(0, 80)], checks := fun pl => (0, decide (sumRes (sharesOf pl) ≤ 16)) :: (List.range 8).flatMap fun v => let x := nth ⟨0, 0⟩ (sharesOf pl) v; [(10 * v, decide (x.res ≤ x.max ∧ (6 ≤ v → x.res ≠ 0))), (10 * v + 5, decide (1 ≤ x.max ∧ x.max ≤ 16))] }
      mb pl →
    Obeys (.middleShareSet mb) s mb ((s.begun mb).modCar fun c =>
      { c with sharesPending := some ((List.range 8).map fun v => ⟨fld pl (10 * v) 5, fld pl (10 * v + 5) 5⟩) }) []) ∧
  (∀ (s : State) (mb : Mb) (pl : Nat) (p : Nat), s.Admits
      { opcode := 0x0503, priv := true, len := fun _ => 3, fields := [(0, 8), (8, 1), (9, 6), (15, 6)], checks := fun pl => [(9, decide (4 ≤ fld pl 9 6 ∧ fld pl 9 6 + fld pl 15 6 ≤ 56)), (15, decide (4 ≤ fld pl 15 6))] }
      mb pl →
    s.portNamed (fld pl 0 8) (fld pl 8 1) = some p → (s.port p).pcie = true →
    Obeys (.pcieStoreSet mb) s mb ((s.begun mb).modCar fun c =>
      { c with pcieSharePending := Tab.put none c.pcieSharePending p (some (fld pl 9 6, fld pl 15 6)) }) []) ∧
  (∀ (s : State) (mb : Mb) (pl : Nat) (c : CarouselCounters), s.Admits
      { opcode := 0x0504, priv := false, query := true, len := fun _ => 1, fields := [(0, 7), (7, 1)] } mb pl →
    privilegedMb mb = true → c = Tab.get {} s.car.counters (fld pl 0 7) →
    Obeys (.carouselCountersRead mb) s mb (if bitOf pl 7 then (s.begun mb).countCar (fld pl 0 7) fun _ => {} else (s.begun mb)) (packCounters
      [c.cellsSent, c.injCellsSent, c.slotNoCell, c.slotNoRoom, c.slotSkipped, c.cellsRcvd, c.periodsClosed, c.expiredCells, c.payloadErrCells,
      c.staleCells, c.reseqSkipped, c.reseqOverrun, c.reseqFrameLost, c.reseqOld, c.voqWaits])) ∧
  (∀ (s : State) (mb : Mb) (pl : Nat) (p : Nat), s.Admits
      { opcode := 0x0504, priv := false, query := true, len := fun _ => 1, fields := [(0, 7), (7, 1)] } mb pl →
    (s.portsOfQuad (fld pl 0 7)).contains p = true → s.mayName mb (s.portOwner p) = true → bitOf pl 7 = false →
    Obeys (.carouselCountersRead mb) s mb (s.begun mb) (packCounters (Tab.get {} s.car.counters (fld pl 0 7)).list)) ∧
  (∀ (s : State) (mb : Mb) (pl : Nat) (p : Nat), s.Admits
      { opcode := 0x0505, priv := false, query := true, len := fun _ => 2, fields := [(0, 8), (8, 1), (9, 1)] } mb pl →
    s.portNamed (fld pl 0 8) (fld pl 8 1) = some p → s.mayName mb (s.portOwner p) = true →
    Obeys (.bufferHwmRead mb) s mb (if bitOf pl 9 then (s.begun mb).resetHwm p else (s.begun mb)) (packVals (((Tab.get {} s.car.hwm p).voq ++ [(Tab.get {}
      s.car.hwm p).store, (Tab.get {} s.car.hwm p).held, (Tab.get {} s.car.hwm p).pool, (Tab.get {} s.car.hwm p).displace]).map (fun n => (n, 2)) ++
      (s.quadsOf p).map fun q => ((s.mid q).hwm, 1))))

/-- R207, R212, R226, R231, R230, R229: SCHED_CONFIG gives each queue its BAND and WEIGHT; SHAPER_SET leaves rates and bursts that the next refill takes up; GATE_LIST_SET
schedules a list, or none, for the first cycle boundary of its base at least 10 us after the command, and says where the base lay; GATE_QUERY, SCHED_COUNTERS_READ and
HWM_READ return lists, counters and marks, cleared only where CLEAR asks for it. -/
def Obligations.SchedulerCommandsAct : Prop :=
  (∀ (s : State) (mb : Mb) (pl : Nat) (p : Nat), s.Admits { opcode := 0x0600, priv := true, len := fun _ => 14, fields := [(0, 8), (8, 1), (16, 90)] } mb
      pl →
    s.portNamed (fld pl 0 8) (fld pl 8 1) = some p →
    Obeys (.schedConfig mb) s mb ((s.begun mb).modSched p fun x => (List.range 9).foldl (Sched.configure pl) x) []) ∧
  (∀ (s : State) (mb : Mb) (pl : Nat) (p : Nat), s.Admits
      { opcode := 0x0601, priv := true, len := fun _ => 18, fields := [(0, 8), (8, 1), (9, 4), (16, 40), (56, 24), (80, 40), (120, 24)], checks := fun pl => let port := decide (fld pl 9 4 = 15); [(9, decide (fld pl 9 4 ≤ 8) || port), (16, !port || decide (fld pl 16 40 = 0)), (56, burstOk (fld pl 16 40) (fld pl 56 24) && (!port || decide (fld pl 56 24 = 0))), (80, peakRateOk (fld pl 16 40) (fld pl 80 40)), (120, burstOk (fld pl 80 40) (fld pl 120 24))] }
      mb pl →
    s.portNamed (fld pl 0 8) (fld pl 8 1) = some p → fld pl 9 4 = 15 →
    Obeys (.shaperSet mb) s mb ((s.begun mb).modSched p fun x => { x with portPeak := { x.portPeak with pending := some (fld pl 80 40, fld pl 120 24) } })
      []) ∧
  (∀ (s : State) (mb : Mb) (pl : Nat) (p : Nat), s.Admits
      { opcode := 0x0601, priv := true, len := fun _ => 18, fields := [(0, 8), (8, 1), (9, 4), (16, 40), (56, 24), (80, 40), (120, 24)], checks := fun pl => let port := decide (fld pl 9 4 = 15); [(9, decide (fld pl 9 4 ≤ 8) || port), (16, !port || decide (fld pl 16 40 = 0)), (56, burstOk (fld pl 16 40) (fld pl 56 24) && (!port || decide (fld pl 56 24 = 0))), (80, peakRateOk (fld pl 16 40) (fld pl 80 40)), (120, burstOk (fld pl 80 40) (fld pl 120 24))] }
      mb pl →
    s.portNamed (fld pl 0 8) (fld pl 8 1) = some p → fld pl 9 4 ≤ 8 →
    Obeys (.shaperSet mb) s mb ((s.begun mb).modSched p fun x => x.modQueue (fld pl 9 4) fun q =>
      { q with committed := { q.committed with pending := some (fld pl 16 40, fld pl 56 24) }, peak := { q.peak with pending := some (fld pl 80 40, fld pl 120 24) } })
      []) ∧
  (∀ (s : State) (mb : Mb) (pl : Nat) (p base start : Nat), s.Admits
      { opcode := 0x0605, priv := true, len := fun pl => 24 + 6 * gateCount pl, fields := [(0, 8), (8, 1), (9, 1), (16, 9), (25, 10), (40, 48), (88, 30), (128, 30), (192, 32448)], checks := fun pl => [(16, !bitOf pl 9 || decide (1 ≤ fld pl 16 9 ∧ fld pl 16 9 ≤ 256)), (88, decide (fld pl 88 30 < 1000000000)), (128, decide (1 ≤ fld pl 128 30 ∧ fld pl 128 30 ≤ 1000000000))] ++ (List.range (gateCount pl)).flatMap (gateEntryChecks pl) }
      mb pl →
    s.portNamed (fld pl 0 8) (fld pl 8 1) = some p → base = fld pl 40 48 * 1000000000 + fld pl 88 30 →
    start = firstBoundary base (fld pl 128 30) (s.fabNs + 10000) →
    Obeys (.gateListSet mb) s mb ((s.begun mb).modSched p fun x =>
      { x with gatePending := some { list := if bitOf pl 9 then some { guard := fld pl 25 10, base := base, cycle := fld pl 128 30, start := start, entries := (List.range (gateCount pl)).map fun i => (fbv pl (192 + 48 * i) 9, fld pl (192 + 48 * i + 16) 30) } else none, start := start, base := base, cycle := fld pl 128 30 } })
      (packVals [(start / 1000000000, 6), (start % 1000000000, 4), (if s.fabNs + 10000 ≤ base then 0 else if base < s.fabNs then 1 else 2, 1)])) ∧
  (∀ (s : State) (mb : Mb) (pl : Nat) (p : Nat) (x : Sched), s.Admits
      { opcode := 0x0606, priv := false, query := true, len := fun _ => 2, fields := [(0, 8), (8, 1)] } mb pl →
    s.portNamed (fld pl 0 8) (fld pl 8 1) = some p → s.mayName mb (s.portOwner p) = true → x = s.schedOf p →
    Obeys (.gateQuery mb) s mb (s.begun mb) (packVals [(b2n x.gate.isSome, 1), (x.gateEntry, 2), (x.gateCycles, 8)] ++ gateBytes p x.gate ((x.gate.map fun
      g => g.base).getD 0) ((x.gate.map fun g => g.cycle).getD 0) ++ x.gatePending.elim (gateBytes p none 0 0 ++ packVals [(0, 6), (0, 4)]) fun n =>
      gateBytes p n.list n.base n.cycle ++ packVals [(n.start / 1000000000, 6), (n.start % 1000000000, 4)])) ∧
  (∀ (s : State) (mb : Mb) (pl : Nat) (p : Nat), s.Admits
      { opcode := 0x0608, priv := false, query := true, len := fun _ => 2, fields := [(0, 8), (8, 1), (9, 1)] } mb pl →
    s.portNamed (fld pl 0 8) (fld pl 8 1) = some p → s.mayName mb (s.portOwner p) = true →
    Obeys (.schedCountersRead mb) s mb (if bitOf pl 9 then (s.begun mb).modSched p Sched.clearCounters else (s.begun mb)) (packCounters (((List.range
      10).flatMap fun k => ((s.schedOf p).queue k).counters.list (k == 9)) ++ [(s.schedOf p).portShaperWaits]))) ∧
  (∀ (s : State) (mb : Mb) (pl : Nat), s.Admits
      { opcode := 0x0609, priv := false, query := true, len := fun _ => 3, fields := [(0, 1), (1, 8), (9, 1), (10, 7), (17, 1)] } mb pl →
    bitOf pl 0 = true → privilegedMb mb = true →
    Obeys (.hwmRead mb) s mb (if bitOf pl 17 then (s.begun mb).resetPenaltyHwm (fld pl 10 7) else (s.begun mb)) (packVals ((List.range 64).flatMap fun k
      => [((s.penalty (64 * fld pl 10 7 + k)).occHwm, 2), ((s.penalty (64 * fld pl 10 7 + k)).sojHwm, 4)]))) ∧
  (∀ (s : State) (mb : Mb) (pl : Nat) (p : Nat), s.Admits
      { opcode := 0x0609, priv := false, query := true, len := fun _ => 3, fields := [(0, 1), (1, 8), (9, 1), (10, 7), (17, 1)] } mb pl →
    bitOf pl 0 = false → s.portNamed (fld pl 1 8) (fld pl 9 1) = some p → s.mayName mb (s.portOwner p) = true →
    Obeys (.hwmRead mb) s mb (if bitOf pl 17 then (s.begun mb).resetSchedHwm p else (s.begun mb)) (packVals (((List.range 9).flatMap fun k =>
      [(((s.schedOf p).queue k).occHwm, 2), (((s.schedOf p).queue k).sojHwm, 4)]) ++ [((s.schedOf p).ageHwm, 4)])))

/-- R221, R213, R219, R231: METER_SET leaves the rates, bursts and flags that the next refill takes up; METER_MAP_SET maps or unmaps each traffic class that its mask names;
PENALTY_QUEUE_SET sets a limit and looks at once whether the queue is full; METER_READ returns levels and counters, zeroed only where CLEAR asks for it. A command that
names a meter of another owner is refused. -/
def Obligations.MeterCommandsAct : Prop :=
  (∀ (s : State) (mb : Mb) (pl : Nat), s.Admits
      { opcode := 0x0602, priv := false, len := fun _ => 24, fields := [(0, 14), (14, 1), (15, 1), (16, 1), (17, 6), (32, 40), (72, 24), (96, 40), (136, 24)], checks := fun pl => [(72, burstOk (fld pl 32 40) (fld pl 72 24)), (96, peakRateOk (fld pl 32 40) (fld pl 96 40)), (136, burstOk (fld pl 96 40) (fld pl 136 24))] }
      mb pl →
    s.mayMeter mb (fld pl 0 14) = true →
    Obeys (.meterSet mb) s mb ((s.begun mb).modMeter (fld pl 0 14) fun x =>
      { x with committed := { x.committed with pending := some (fld pl 32 40, fld pl 72 24) }, peak := { x.peak with pending := some (fld pl 96 40, fld pl 136 24) }, pending := some (bitOf pl 14, bitOf pl 15, bitOf pl 16, fld pl 17 6) })
      []) ∧
  (∀ (s : State) (mb : Mb) (pl : Nat), s.Admits
      { opcode := 0x0603, priv := true, len := fun _ => 5, fields := [(0, 9), (16, 8), (24, 14), (38, 1)], checks := fun pl => [(0, decide (fld pl 0 9 < 384))] }
      mb pl →
    (bitOf pl 38 && !s.mayMap (fld pl 0 9) (fld pl 24 14)) = false →
    Obeys (.meterMapSet mb) s mb
      ({ (s.begun mb) with sched := { s.sched with meterMap := (List.range 8).foldl (fun a c => if bitOf pl (16 + c) then Tab.put none a (8 * fld pl 0 9 + c) (if bitOf pl 38 then some (fld pl 24 14) else none) else a) s.sched.meterMap } })
      []) ∧
  (∀ (s : State) (mb : Mb) (pl : Nat), s.Admits
      { opcode := 0x0604, priv := true, len := fun _ => 3, fields := [(0, 7), (7, 6), (13, 11)], checks := fun pl => [(13, decide (1 ≤ fld pl 13 11 ∧ fld pl 13 11 ≤ 1024))] }
      mb pl →
    Obeys (.penaltyQueueSet mb) s mb (((s.begun mb).modPenalty (64 * fld pl 0 7 + fld pl 7 6) fun q => { q with limit := fld pl 13 11 }).checkFull (64 *
      fld pl 0 7 + fld pl 7 6)) []) ∧
  (∀ (s : State) (mb : Mb) (pl : Nat) (x : Meter), s.Admits
      { opcode := 0x0607, priv := false, query := true, len := fun _ => 2, fields := [(0, 14), (14, 1)] } mb pl →
    x = s.meter (fld pl 0 14) → s.mayMeter mb (fld pl 0 14) = true →
    Obeys (.meterRead mb) s mb (if bitOf pl 14 then (s.begun mb).modMeter (fld pl 0 14) fun x =>
      { x with green := 0, yellow := 0, red := 0, held := 0, released := 0, demoted := 0 } else (s.begun mb)) (packCounters [signedNat 8
      x.committed.level, signedNat 8 x.peak.level, x.green, x.yellow, x.red, x.held, x.released, x.demoted]))

/-- R511, R235, R272, R240, R236, R275, R274: PARTITION_CREATE makes a partition usable and PARTITION_DESTROY ends one that owns no VH and no instance; PARTITION_ASSIGN,
PARTITION_GRANT and PORT_TRUST_SET stage writes of the policy table, but a mailbox changes hands at once; PARTITION_CONFIG sets the isolation level; PARTITION_QUERY and
PART_COUNTERS_READ return what they name. -/
def Obligations.PartitionCommandsAct : Prop :=
  (∀ (s : State) (mb : Mb) (pl : Nat), s.Admits
      { opcode := 0x0700, priv := true, len := fun _ => 1, fields := [(0, 8)], checks := fun pl => [partRange pl 0] } mb pl →
    Obeys (.partitionCreate mb) s mb (if s.usablePart (fld pl 0 8) then (s.begun mb) else (s.begun mb).modParts fun x =>
      { x with usable := Tab.put false x.usable (fld pl 0 8) true, timing := Tab.put false x.timing (fld pl 0 8) false, lapsed := Tab.put false x.lapsed (fld pl 0 8) false })
      []) ∧
  (∀ (s : State) (mb : Mb) (pl : Nat), s.Admits
      { opcode := 0x0701, priv := true, len := fun _ => 1, fields := [(0, 8)], checks := fun pl => [partRange pl 0] } mb pl →
    s.usablePart (fld pl 0 8) = true → s.ownsVirtual (BitVec.ofNat 8 (fld pl 0 8)) = false →
    Obeys (.partitionDestroy mb) s mb ((((s.begun mb).modParts fun x => { x with usable := Tab.put false x.usable (fld pl 0 8) false }).stagePolicy
      (.destroy (BitVec.ofNat 8 (fld pl 0 8)))).freeMailboxes (BitVec.ofNat 8 (fld pl 0 8))) []) ∧
  (∀ (s : State) (mb : Mb) (pl : Nat) (p : Nat), s.Admits
      { opcode := 0x0702, priv := true, len := fun _ => 3, fields := [(0, 8), (8, 2), (10, 8), (18, 1)], checks := fun pl => let k := fld pl 8 2; [(8, decide (k ≠ 3)), (10, decide (k = 1 → fld pl 10 8 ≤ 1) && decide (k = 2 → 1 ≤ fld pl 10 8 ∧ fld pl 10 8 ≤ 62))] }
      mb pl →
    fld pl 8 2 = 0 → s.portNamed (fld pl 10 8) (fld pl 18 1) = some p → s.usablePart (fld pl 0 8) = true → s.portBusy p = false →
    Obeys (.partitionAssign mb) s mb ((s.begun mb).stagePolicy (.owner p (BitVec.ofNat 8 (fld pl 0 8)))) []) ∧
  (∀ (s : State) (mb : Mb) (pl : Nat), s.Admits
      { opcode := 0x0702, priv := true, len := fun _ => 3, fields := [(0, 8), (8, 2), (10, 8), (18, 1)], checks := fun pl => let k := fld pl 8 2; [(8, decide (k ≠ 3)), (10, decide (k = 1 → fld pl 10 8 ≤ 1) && decide (k = 2 → 1 ≤ fld pl 10 8 ∧ fld pl 10 8 ≤ 62))] }
      mb pl →
    fld pl 8 2 = 1 → s.usablePart (fld pl 0 8) = true →
    Obeys (.partitionAssign mb) s mb ((s.begun mb).stagePolicy (.pwOwner (fld pl 10 8 == 1) (BitVec.ofNat 8 (fld pl 0 8)))) []) ∧
  (∀ (s : State) (mb : Mb) (pl : Nat), s.Admits
      { opcode := 0x0702, priv := true, len := fun _ => 3, fields := [(0, 8), (8, 2), (10, 8), (18, 1)], checks := fun pl => let k := fld pl 8 2; [(8, decide (k ≠ 3)), (10, decide (k = 1 → fld pl 10 8 ≤ 1) && decide (k = 2 → 1 ≤ fld pl 10 8 ∧ fld pl 10 8 ≤ 62))] }
      mb pl →
    fld pl 8 2 = 2 → s.usablePart (fld pl 0 8) = true →
    Obeys (.partitionAssign mb) s mb ((s.begun mb).modMbox (fld pl 10 8) fun m => { m with owner := BitVec.ofNat 8 (fld pl 0 8) }) []) ∧
  (∀ (s : State) (mb : Mb) (pl : Nat), s.Admits { opcode := 0x0703, priv := true, len := fun _ => 2, fields := [(0, 8), (8, 1)] } mb pl →
    s.usablePart (fld pl 0 8) = true → (bitOf pl 8 = true → s.timingOk (BitVec.ofNat 8 (fld pl 0 8)) = true) →
    Obeys (.partitionConfig mb) s mb ((s.begun mb).modParts fun x =>
      { x with timing := Tab.put false x.timing (fld pl 0 8) (bitOf pl 8), lapsed := if bitOf pl 8 then x.lapsed else Tab.put false x.lapsed (fld pl 0 8) false })
      []) ∧
  (∀ (s : State) (mb : Mb) (pl : Nat), s.Admits { opcode := 0x0704, priv := true, len := fun _ => 3, fields := [(0, 8), (8, 8), (16, 1)] } mb pl →
    (bitOf pl 16 && !(s.usablePart (fld pl 0 8) && s.usablePart (fld pl 8 8))) = false →
    Obeys (.partitionGrant mb) s mb ((s.begun mb).stagePolicy (.grant (fbv pl 0 8) (fbv pl 8 8) (bitOf pl 16))) []) ∧
  (∀ (s : State) (mb : Mb) (pl : Nat) (p : Nat), s.Admits
      { opcode := 0x0705, priv := true, len := fun _ => 2, fields := [(0, 8), (8, 1), (9, 2)], checks := fun pl => [(9, decide (fld pl 9 2 ≠ 2))] } mb
      pl →
    s.portNamed (fld pl 0 8) (fld pl 8 1) = some p →
    Obeys (.portTrustSet mb) s mb ((s.begun mb).stagePolicy (.trust p (fbv pl 9 2))) []) ∧
  (∀ (s : State) (mb : Mb) (pl : Nat), s.Admits { opcode := 0x0706, priv := false, query := true, len := fun _ => 1, fields := [(0, 8)] } mb pl →
    s.mayName mb (fbv pl 0 8) = true →
    Obeys (.partitionQuery mb) s mb (s.begun mb) ((s.begun mb).partBytes (fbv pl 0 8))) ∧
  (∀ (s : State) (mb : Mb) (pl : Nat) (c : PartCounters), s.Admits
      { opcode := 0x0715, priv := false, query := true, len := fun _ => 1, fields := [(0, 7), (7, 1)] } mb pl →
    privilegedMb mb = true → c = Tab.get {} s.parts.counters (fld pl 0 7) →
    Obeys (.partCountersRead mb) s mb (if bitOf pl 7 then (s.begun mb).countPart (fld pl 0 7) fun _ => {} else (s.begun mb)) (packCounters [c.partDeny,
      c.vhMiss, c.orderHolds, c.orderTimeout, c.orderUntracked, c.instWaits, c.instCreditOver, c.instQuiesceDrop, c.instResetDrop]))

/-- R242, R245, R275, R252: VH_CREATE stages a VH of a free number on an upstream PCIe-mode port that has none, VH_DESTROY stages its removal where it has no bindings,
VH_BIND stages a binding or its removal; VH_QUERY returns bindings and emulated registers; SHARED_ENDPOINT_SET stages the shared endpoint on a native port whose
INSTANCE_CAP is 1 to 256 and returns the pools. -/
def Obligations.VirtualCommandsAct : Prop :=
  (∀ (s : State) (mb : Mb) (pl : Nat) (p : Nat), s.Admits
      { opcode := 0x0707, priv := true, len := fun _ => 4, fields := [(0, 7), (7, 8), (15, 6), (21, 10)], checks := fun pl => [(15, decide (1 ≤ fld pl 15 6 ∧ fld pl 15 6 ≤ 32)), (21, decide (fld pl 21 10 ≤ 1000))] }
      mb pl →
    s.portNamed (fld pl 7 8) 0 = some p → (s.port p).pcie = true ∧ (s.port p).upstream = true →
    Tab.get none s.stagedPolicy.vh (fld pl 0 7) = none → ((s.stagedPolicy.vh.all fun e => decide ((e.2.map fun r => r.port) ≠ some p)) = true) →
    Obeys (.vhCreate mb) s mb ((s.begun mb).stagePolicy (.vh (fld pl 0 7) (some
      { port := p, vdsps := fld pl 15 6, orderWait := if fld pl 21 10 = 0 then 100 else fld pl 21 10 }))) []) ∧
  (∀ (s : State) (mb : Mb) (pl : Nat) (r : VhRec), s.Admits { opcode := 0x0708, priv := true, len := fun _ => 1, fields := [(0, 7)] } mb pl →
    Tab.get none s.stagedPolicy.vh (fld pl 0 7) = some r → s.stagedPolicy.bound (fld pl 0 7) = false →
    Obeys (.vhDestroy mb) s mb ((s.begun mb).stagePolicy (.vh (fld pl 0 7) none)) []) ∧
  (∀ (s : State) (mb : Mb) (pl : Nat) (r : VhRec), s.Admits
      { opcode := 0x0709, priv := true, len := fun _ => 6, fields := [(0, 7), (7, 5), (12, 2), (14, 20), (34, 8)], checks := fun pl => [(12, decide (fld pl 12 2 ≠ 3))] }
      mb pl →
    Tab.get none s.stagedPolicy.vh (fld pl 0 7) = some r → fld pl 7 5 < r.vdsps → fld pl 12 2 = 0 →
    Obeys (.vhBind mb) s mb ((s.begun mb).stagePolicy (.bind (fld pl 0 7) (fld pl 7 5) none)) []) ∧
  (∀ (s : State) (mb : Mb) (pl : Nat) (r : VhRec) (b : Binding), s.Admits
      { opcode := 0x0709, priv := true, len := fun _ => 6, fields := [(0, 7), (7, 5), (12, 2), (14, 20), (34, 8)], checks := fun pl => [(12, decide (fld pl 12 2 ≠ 3))] }
      mb pl →
    Tab.get none s.stagedPolicy.vh (fld pl 0 7) = some r → fld pl 7 5 < r.vdsps → fld pl 12 2 ≠ 0 →
    b = (if fld pl 12 2 = 1 then .endpoint (fbv pl 14 20) else .inst (fbv pl 14 20) (fbv pl 34 8)) →
    s.bindOk s.stagedPolicy (32 * fld pl 0 7 + fld pl 7 5) (s.stagedPolicy.ownerOf r.port) b = true →
    Obeys (.vhBind mb) s mb ((s.begun mb).stagePolicy (.bind (fld pl 0 7) (fld pl 7 5) (some b))) []) ∧
  (∀ (s : State) (mb : Mb) (pl : Nat) (r : VhRec), s.Admits { opcode := 0x070A, priv := false, query := true, len := fun _ => 1, fields := [(0, 7)] } mb
      pl →
    s.vhRec (fld pl 0 7) = some r → s.mayName mb (s.portOwner r.port) = true →
    Obeys (.vhQuery mb) s mb (s.begun mb) ((s.begun mb).vhBytes (fld pl 0 7) r)) ∧
  (∀ (s : State) (mb : Mb) (pl p : Nat) (c : BitVec 64), s.Admits { opcode := 0x070B, priv := true, len := fun _ => 8, fields := [(0, 64)] } mb pl → s.portNamed (fld pl 0 8) 0 = some p →
    (s.port p).pcie = false → (s.partner p).kind = 2 → 1 ≤ c.toNat % 512 → c.toNat % 512 ≤ 256 →
    Obeys (.sharedEndpointSet mb (some c)) s mb ((s.begun mb).stagePolicy (.shared p { cap := c.toNat % 512, vendor := fbv pl 8 16, device := fbv pl 24 16, classCode := fbv pl 40 24 }))
      (packVals [(c.toNat % 512, 2), (4096 * (s.port p).quads - nth 0 (s.pools p) 6 - nth 0 (s.pools p) 7, 2), (4096, 2), (128 * (s.port p).quads, 2), (64 * (s.port p).quads, 2), (32768, 2)]))

/-- R258, R259, R263, R264, R265, R266, R257, R275: INSTANCE_CREATE stages a record with shares that the pools supply; INSTANCE_SHARE_SET changes the shares in force at once;
INSTANCE_QUIESCE and INSTANCE_RESUME move an instance to QUIESCING or ACTIVE, write its ICB and stop its rings or start them again; INSTANCE_RESET begins the reset of a
QUIESCED instance, INSTANCE_RESET_FORCE of any but a FAILED one; INSTANCE_DESTROY resets a QUIESCED instance and ends a FAILED one; INSTANCE_XLATE_SET writes translation
entries of the instance. -/
def Obligations.InstanceCommandsAct : Prop :=
  (∀ (s : State) (mb : Mb) (pl : Nat) (p a : Nat) (sh : SharedRec) (m : Option Nat), s.Admits
      { opcode := 0x070C, priv := true, len := fun _ => 20, fields := [(0, 8), (8, 8), (16, 8), (24, 6), (32, 16), (48, 13), (61, 1), (64, 16), (80, 16), (96, 64)], checks := fun pl => [partRange pl 16, (24, decide (12 ≤ fld pl 24 6)), (32, decide (18 ≤ fld pl 32 16)), (48, decide (1 ≤ fld pl 48 13 ∧ fld pl 48 13 ≤ 4096)), (64, decide (fld pl 64 16 ≤ 16)), (80, decide (1 ≤ fld pl 80 16 ∧ fld pl 80 16 ≤ 32768)), (96, decide (fld pl 96 64 % 2 ^ fld pl 24 6 = 0))] }
      mb pl →
    s.portNamed (fld pl 0 8) 0 = some p → (s.port p).pcie = false → Tab.get none s.stagedPolicy.shared p = some sh → fld pl 8 8 < sh.cap →
    s.usablePart (fld pl 16 8) = true → s.stagedPolicy.instAt p (fld pl 8 8) = none → s.stagedPolicy.inst.length < 4096 →
    s.poolsSupply s.stagedPolicy p (fld pl 8 8) (fld pl 32 16) (fld pl 48 13) (fld pl 64 16) = true →
    m = (if bitOf pl 61 then s.freeMeter s.stagedPolicy p else none) → m.isSome = bitOf pl 61 →
    s.stagedPolicy.freeXlate (256 * p + fld pl 8 8) (fld pl 80 16) = some a →
    Obeys (.instanceCreate mb) s mb ((s.begun mb).stagePolicy (.inst p (fld pl 8 8)
      { owner := fbv pl 16 8, log2 := fld pl 24 6, base := fbv pl 96 64, buffer := fld pl 32 16, credits := fld pl 48 13, meter := m, mover := fld pl 64 16, xlate := fld pl 80 16, firstXlate := a }))
      (packVals [(m.getD 0xFFFF, 2), (a, 2)])) ∧
  (∀ (s : State) (mb : Mb) (pl p id b c v n a : Nat) (m : Option Nat) (r : InstRec), s.Admits { opcode := 0x070E, priv := true, len := fun _ => 12, fields := [(0, 8), (8, 8), (32, 16), (48, 13), (61, 1), (64, 16), (80, 16)], checks := fun pl => [(32, decide (fld pl 32 16 = 0 ∨ 18 ≤ fld pl 32 16)), (48, decide (fld pl 48 13 ≤ 4096)), (64, decide (fld pl 64 16 ≤ 16)), (80, decide (fld pl 80 16 ≤ 32768))] } mb pl → s.NamesInst mb pl p id r →
    b = keepZero (fld pl 32 16) r.buffer → c = keepZero (fld pl 48 13) r.credits → v = keepZero (fld pl 64 16) r.mover → n = keepZero (fld pl 80 16) r.xlate →
    m = (if bitOf pl 61 ∧ r.meter = none then s.freeMeter s.stagedPolicy p else r.meter) → (bitOf pl 61 = true → m.isSome = true) →
    (if n ≤ r.xlate then some r.firstXlate else s.stagedPolicy.freeXlate (256 * p + id) n) = some a → s.poolsSupply s.stagedPolicy p id b c v = true →
    ∃ t : State, t = ((s.begun mb).moveXlate r a n).setInstRec p id { r with buffer := b, credits := c, mover := v, xlate := n, meter := m, firstXlate := a } ∧
      Obeys (.instanceShareSet mb) s mb (if c = r.credits then t else t.writeIcb p id (fun i => { i with npCredits := BitVec.ofNat 16 c }) [0]) []) ∧
  (∀ (s : State) (mb : Mb) (pl : Nat) (p id : Nat) (r : InstRec), s.Admits (instCmd 0x070F true false) mb pl →
    s.NamesInst mb pl p id r → (s.instRun p id).state = .active →
    Obeys (.instanceQuiesce mb) s mb (((((s.begun mb).modInst p id fun x => { x with timeoutMs := instTimeout pl }).setInst p id .quiescing 1).writeIcb p
      id (fun i => { i with quiesceReq := true }) [0]).pauseRings p id) []) ∧
  (∀ (s : State) (mb : Mb) (pl : Nat) (p id : Nat) (r : InstRec), s.Admits (instCmd 0x0710 true false) mb pl →
    s.NamesInst mb pl p id r → ((s.instRun p id).state = .quiescing ∨ (s.instRun p id).state = .quiesced) →
    Obeys (.instanceResume mb) s mb ((((s.begun mb).setInst p id .active 2).writeIcb p id (fun i => { i with quiesceReq := false }) [0]).resumeRings p id)
      []) ∧
  (∀ (s : State) (mb : Mb) (pl : Nat) (p id : Nat) (r : InstRec), s.Admits (instCmd 0x0711 true false) mb pl →
    s.NamesInst mb pl p id r → (s.instRun p id).state = .quiesced →
    Obeys (.instanceReset mb) s mb ((s.begun mb).beginReset p id 3 (instTimeout pl) false) []) ∧
  (∀ (s : State) (mb : Mb) (pl : Nat) (p id : Nat) (r : InstRec), s.Admits (instCmd 0x0712 true false) mb pl →
    s.NamesInst mb pl p id r → (s.instRun p id).state ≠ .failed →
    Obeys (.instanceResetForce mb) s mb (((s.begun mb).modInst p id fun x => { x with timeoutMs := instTimeout pl }).forceReset p id) []) ∧
  (∀ (s : State) (mb : Mb) (pl : Nat) (p id : Nat) (r : InstRec), s.Admits (instCmd 0x070D true false) mb pl →
    s.NamesInst mb pl p id r → ((s.instRun p id).state = .quiesced ∨ (s.instRun p id).state = .failed) →
    Obeys (.instanceDestroy mb) s mb (if (s.instRun p id).state = .quiesced then (s.begun mb).beginReset p id 3 (instTimeout pl) true else (s.begun
      mb).endInst p id r) []) ∧
  (∀ (s : State) (mb : Mb) (pl : Nat) (p id : Nat) (r : InstRec), s.Admits
      { opcode := 0x0713, priv := false, len := fun pl => 8 + 24 * min 169 (fld pl 32 8), fields := [(0, 8), (8, 8), (16, 15), (32, 8), (64, 32448)], checks := fun pl => (32, decide (1 ≤ fld pl 32 8 ∧ fld pl 32 8 ≤ 169)) :: (List.range (min 169 (fld pl 32 8))).flatMap (xlateChecks pl) }
      mb pl →
    s.NamesInst mb pl p id r → fld pl 16 15 + fld pl 32 8 ≤ r.xlate →
    Obeys (.instanceXlateSet mb) s mb ((s.begun mb).modParts fun x =>
      { x with xlate := (List.range (fld pl 32 8)).foldl (fun t i => Tab.put {} t (r.firstXlate + fld pl 16 15 + i) (xlateOf pl (64 + 192 * i))) x.xlate })
      []) ∧
  (∀ (s : State) (mb : Mb) (pl : Nat) (p id : Nat) (r : InstRec), s.Admits (instCmd 0x0714 false true) mb pl →
    s.NamesInst mb pl p id r →
    Obeys (.instanceQuery mb) s mb (s.begun mb) (packVals ([((s.instRun p id).state.code, 1), (r.buffer, 2), (r.credits, 2), (r.meter.getD 0xFFFF, 2),
      (r.mover, 2), (r.xlate, 2), (r.firstXlate, 2), ((s.instRun p id).count.length, 8), (s.instCells (p, id), 8)] ++ (List.range 4).map fun k =>
      ((s.instRun p id).icb.word k, 8))))

/-- R284, R290, R297, R303, R304: JUGGLER_ALLOC gives Jugglers to a partition where no VH and no Patchwork port loses its last one, and moves the rings that they may no
longer serve; MOVER_RING_SET configures a ring that is new, STOPPED, in ERROR or DISABLED, and leaves it STOPPED; MOVER_RING_CONTROL starts, stops and resets a ring in
the states that allow it; MOVER_PLACE moves a ring to an eligible Juggler with room; the query and read commands return what they name. -/
def Obligations.JugglerCommandsAct : Prop :=
  (∀ (s : State) (mb : Mb) (pl : Nat) (s1 s2 : State), s.Admits
      { opcode := 0x0800, priv := true, len := fun _ => 4, fields := [(0, 9), (9, 10), (19, 8)], checks := fun pl => [(9, decide (1 ≤ fld pl 9 10 ∧ fld pl 0 9 + fld pl 9 10 ≤ 512))] }
      mb pl →
    (s1 = (s.begun mb).each (List.range (fld pl 9 10)) fun t i => t.modJuggler (fld pl 0 9 + i) fun x => { x with owner := fbv pl 19 8 }) →
    ((s.engineNeeds.any fun e => s.hasJuggler e.1 e.2 && !s1.hasJuggler e.1 e.2) = false) → moveForeign s1.foreignRings s1 = some s2 →
    Obeys (.jugglerAlloc mb) s mb (s2) []) ∧
  (∀ (s : State) (mb : Mb) (pl : Nat), s.Admits { opcode := 0x0801, priv := true, query := true, len := fun _ => 2, fields := [(0, 9)] } mb pl →
    Obeys (.jugglerQuery mb) s mb (s.begun mb) (packVals ([((s.juggler (fld pl 0 9)).owner.toNat, 1), (s.jugglerState (fld pl 0 9), 1), (s.ringsOn (fld pl
      0 9), 8)] ++ ([1, 2, 3, 4, 5] : List Nat).map fun p => (s.queuedItems (fld pl 0 9) p, 8)))) ∧
  (∀ (s : State) (mb : Mb) (pl : Nat) (p id : Nat) (r : InstRec) (x : MoverRing) (t : State), s.Admits
      { opcode := 0x0802, priv := false, len := fun _ => 48, fields := [(0, 29), (32, 352 - 32)], checks := fun pl => [(20, decide (4 ≤ fld pl 20 4)), (64, ringAligned (fld pl 64 64) 64 (fld pl 20 4)), (160, ringAligned (fld pl 160 64) 32 (fld pl 20 4)), (256, decide (fld pl 256 64 % 4 = 0))] }
      mb pl →
    s.NamesInst mb pl p (fld pl 8 8) r → fld pl 16 4 < r.mover →
    ((s.ringsWith fun x => decide (x.port = p ∧ x.inst = fld pl 8 8 ∧ x.ring = fld pl 16 4)).head? = some id) → s.moverRing id = some x →
    x.state ≠ .running → x.state ≠ .stopping →
    (t = (((((s.begun mb).dropStaged id).killTags id).modMover id fun x => x.configure p pl).setRingState id .stopped 0).reseat id) →
    Obeys (.moverRingSet mb) s mb (t) (packVals [(id, 2), (((t.moverRing id).map fun y => y.juggler).getD 0, 2)])) ∧
  (∀ (s : State) (mb : Mb) (pl : Nat) (p id j : Nat) (r : InstRec), s.Admits
      { opcode := 0x0802, priv := false, len := fun _ => 48, fields := [(0, 29), (32, 352 - 32)], checks := fun pl => [(20, decide (4 ≤ fld pl 20 4)), (64, ringAligned (fld pl 64 64) 64 (fld pl 20 4)), (160, ringAligned (fld pl 160 64) 32 (fld pl 20 4)), (256, decide (fld pl 256 64 % 4 = 0))] }
      mb pl →
    s.NamesInst mb pl p (fld pl 8 8) r → fld pl 16 4 < r.mover →
    ((s.ringsWith fun x => decide (x.port = p ∧ x.inst = fld pl 8 8 ∧ x.ring = fld pl 16 4)) = []) →
    ((List.range 8192).find? (fun i => (s.moverRing i).isNone) = some id) → s.placeOn p r.owner = some j →
    Obeys (.moverRingSet mb) s mb (((s.begun mb).setMover id (some ({ juggler := j : MoverRing }.configure p pl))).setRingState id .stopped 0) (packVals
      [(id, 2), (j, 2)])) ∧
  (∀ (s : State) (mb : Mb) (pl : Nat) (r : MoverRing), s.Admits
      { opcode := 0x0803, priv := false, len := fun _ => 2, fields := [(0, 13), (13, 2)], checks := fun pl => [(13, decide (fld pl 13 2 ≠ 3))] } mb pl
      →
    s.moverRing (fld pl 0 13) = some r → s.mayName mb (s.ringOwner r) = true → fld pl 13 2 = 0 → r.state = .stopped →
    Obeys (.moverRingControl mb) s mb (((s.begun mb).setRingState (fld pl 0 13) .running 1).reseat (fld pl 0 13)) []) ∧
  (∀ (s : State) (mb : Mb) (pl : Nat) (r : MoverRing), s.Admits
      { opcode := 0x0803, priv := false, len := fun _ => 2, fields := [(0, 13), (13, 2)], checks := fun pl => [(13, decide (fld pl 13 2 ≠ 3))] } mb pl
      →
    s.moverRing (fld pl 0 13) = some r → s.mayName mb (s.ringOwner r) = true → fld pl 13 2 = 1 → r.state = .running →
    Obeys (.moverRingControl mb) s mb ((s.begun mb).stopRing (fld pl 0 13) 2) []) ∧
  (∀ (s : State) (mb : Mb) (pl : Nat) (r : MoverRing), s.Admits
      { opcode := 0x0803, priv := false, len := fun _ => 2, fields := [(0, 13), (13, 2)], checks := fun pl => [(13, decide (fld pl 13 2 ≠ 3))] } mb pl
      →
    s.moverRing (fld pl 0 13) = some r → s.mayName mb (s.ringOwner r) = true → fld pl 13 2 = 2 → (r.state = .stopped ∨ r.state = .error) →
    Obeys (.moverRingControl mb) s mb ((((((s.begun mb).dropStaged (fld pl 0 13)).killTags (fld pl 0 13)).modMover (fld pl 0 13) fun x =>
      { x with head := 0, tail := 0, phase := true, descs := [], wasRunning := false }).setRingState (fld pl 0 13) .stopped 3).reseat (fld pl 0 13))
      []) ∧
  (∀ (s : State) (mb : Mb) (pl : Nat) (r : MoverRing), s.Admits
      { opcode := 0x0804, priv := false, query := true, len := fun _ => 2, fields := [(0, 13)] } mb pl →
    s.moverRing (fld pl 0 13) = some r → s.mayName mb (s.ringOwner r) = true →
    Obeys (.moverRingQuery mb) s mb (s.begun mb) (packVals [(r.state.code, 1), (r.head, 2), (r.tail, 2), (r.juggler, 2), ((r.descs.filter fun d =>
      d.started && d.status.isNone).length, 8), (r.cause.toNat, 1)])) ∧
  (∀ (s : State) (mb : Mb) (pl : Nat) (r : MoverRing), s.Admits { opcode := 0x0805, priv := true, len := fun _ => 3, fields := [(0, 13), (13, 9)] } mb pl
      →
    s.moverRing (fld pl 0 13) = some r → (s.eligible r.port (s.ringOwner r)).contains (fld pl 13 9) = true → s.ringsOn (fld pl 13 9) < 16 →
    Obeys (.moverPlace mb) s mb (((s.begun mb).modMover (fld pl 0 13) fun x => { x with moveTo := some (fld pl 13 9) }).moveRing (fld pl 0 13)) []) ∧
  (∀ (s : State) (mb : Mb) (pl : Nat) (x : Juggler), s.Admits
      { opcode := 0x0806, priv := false, query := true, len := fun _ => 2, fields := [(0, 13), (13, 1), (14, 1)], checks := fun pl => [(9 + (lowBit (fld pl 9 4) 4).getD 0, !bitOf pl 13 || decide (fld pl 9 4 = 0))] }
      mb pl →
    privilegedMb mb = true → bitOf pl 13 = true → x = s.juggler (fld pl 0 9) →
    Obeys (.moverCountersRead mb) s mb (if bitOf pl 14 then ((s.begun mb).modJuggler (fld pl 0 9) fun x =>
      { x with synthCpl := 0, steps := [0, 0, 0, 0, 0] }).modJug fun y =>
      { y with synthWaits := Tab.put 0 y.synthWaits (fld pl 0 9 / 4) 0, moverDbDeny := 0 } else (s.begun mb)) (packCounters ([x.synthCpl] ++ x.steps
      ++ [Tab.get 0 s.jug.synthWaits (fld pl 0 9 / 4), s.jug.moverDbDeny]))) ∧
  (∀ (s : State) (mb : Mb) (pl : Nat) (r : MoverRing), s.Admits
      { opcode := 0x0806, priv := false, query := true, len := fun _ => 2, fields := [(0, 13), (13, 1), (14, 1)], checks := fun pl => [(9 + (lowBit (fld pl 9 4) 4).getD 0, !bitOf pl 13 || decide (fld pl 9 4 = 0))] }
      mb pl →
    bitOf pl 13 = false → s.moverRing (fld pl 0 13) = some r → s.mayName mb (s.ringOwner r) = true →
    Obeys (.moverCountersRead mb) s mb (if bitOf pl 14 then (s.begun mb).modMover (fld pl 0 13) fun x =>
      { x with descDone := 0, descErr := 0, bytesMoved := 0 } else (s.begun mb)) (packCounters [r.descDone, r.descErr, r.bytesMoved]))

/-- R306, R308, R314, R339, R332, R338, R336: PW_CONFIG gives a Patchwork port its personality and settings where no fence, test, mark, absent VDD_HB or running personality
stands in the way, and ends the port's work when it disables it; PW_HOME_SET moves a home to a PU that may be one; PW_WINDOW_SET closes the open block write, drops the
prefetched bytes of the window and writes it; PW_BUS_RESET ends the work and drives the reset; SIDEBAND_SET connects a wire and may change WARN_EN; the others return what
they name. -/
def Obligations.PatchworkCommandsAct : Prop :=
  (∀ (s : State) (mb : Mb) (pl : Nat) (x : PwPort) (e : Personality), s.Admits
      { opcode := 0x0900, priv := true, len := fun _ => 8, fields := [(0, 1), (1, 2), (3, 1), (4, 1), (5, 1), (6, 1), (7, 2), (9, 1), (10, 2), (12, 1), (13, 3), (16, 10), (26, 7), (33, 8), (41, 8)], checks := fun pl => let pe := fld pl 1 2; [(1, decide (pe ≠ 3)), (3, !(bitOf pl 3 && decide (pe = 2))), (4, !(bitOf pl 4 && decide (pe = 1))), (10, decide (fld pl 10 2 ≠ 3)), (12, !(decide (pe = 2) && !bitOf pl 12)), (16, decide (fld pl 16 10 = 0 ∨ (2 ≤ fld pl 16 10 ∧ fld pl 16 10 ≤ 512)))] }
      mb pl →
    x = pwOf (bitOf pl 0) → e = personalityOf (fld pl 1 2) → s.fenced (pwUnit x) = false → s.underTest (pwUnit x) = false →
    ((s.pw x).personality ≠ .disabled → e ≠ .disabled → e = (s.pw x).personality ∧ bitOf pl 3 = (s.pw x).syscon ∧ bitOf pl 4 = (s.pw x).hostBridge) →
    (e ≠ .disabled → (s.pw x).vddHb = true ∧ ((s.pw x).personality = .disabled → s.marked (pwUnit x) = false)) →
    Obeys (.pwConfig mb) s mb ((if (s.pw x).personality ≠ .disabled ∧ e = .disabled then (s.begun mb).pwEndWork x false else (s.begun mb)).modPw x fun p
      =>
      { p with personality := e, syscon := bitOf pl 3, hostBridge := bitOf pl 4, bus64 := bitOf pl 5, m66 := bitOf pl 6, brLevel := fbv pl 7 2, ror := bitOf pl 9, arbMode := fbv pl 10 2, yieldOn := bitOf pl 12, yieldTime := fbv pl 13 3, busTimer := if fld pl 16 10 = 0 then p.busTimer else fld pl 16 10, reqEn := fbv pl 26 7, secBus := fbv pl 33 8, prefetchHold := if fld pl 41 8 = 0 then p.prefetchHold else fld pl 41 8, driving := if e = .disabled then false else p.driving })
      []) ∧
  (∀ (s : State) (mb : Mb) (pl : Nat), s.Admits { opcode := 0x0901, priv := true, len := fun _ => 1, fields := [(0, 1), (1, 7)] } mb pl →
    s.puHome (fld pl 1 7) = true →
    Obeys (.pwHomeSet mb) s mb ((s.begun mb).modMgmt fun m => if bitOf pl 0 then { m with homeB := fld pl 1 7 } else { m with homeA := fld pl 1 7 }) []) ∧
  (∀ (s : State) (mb : Mb) (pl : Nat) (x : PwPort) (w : PwWindow), s.Admits
      { opcode := 0x0902, priv := true, len := fun _ => 32, fields := [(0, 27), (29, 9), (64, 64), (128, 64), (192, 20), (212, 12)] } mb pl →
    x = pwOf (bitOf pl 0) →
    w =
      { valid := bitOf pl 7, dirIn := bitOf pl 8, space := fbv pl 9 2, priv := bitOf pl 11, width := fbv pl 12 2, block := fbv pl 14 2, lanes := fbv pl 16 2, sef := bitOf pl 18, prefetch := fbv pl 19 4, tunnel := bitOf pl 23, cls := fbv pl 24 3, bar := fbv pl 29 3, sizeLog2 := fbv pl 32 6, base := fbv pl 64 64, xlate := fbv pl 128 64, target := fbv pl 192 20, inst := fbv pl 212 12 }
      →
    firstBad ((s.pw x).windowChecks (fld pl 1 6) w) = none →
    Obeys (.pwWindowSet mb) s mb ((((s.begun mb).closeWrite x).dropPrefetch x fun b => decide (b.window = fld pl 1 6)).modPw x fun p =>
      { p with windows := Tab.put {} p.windows (fld pl 1 6) w }) []) ∧
  (∀ (s : State) (mb : Mb) (pl : Nat), s.Admits
      { opcode := 0x0903, priv := false, query := true, len := fun _ => 2, fields := [(0, 1), (1, 6), (7, 7)], checks := fun pl => [(7, decide (1 ≤ fld pl 7 7 ∧ fld pl 1 6 + fld pl 7 7 ≤ 64))] }
      mb pl →
    s.mayName mb (s.pwOwner (pwOf (bitOf pl 0))) = true →
    Obeys (.pwWindowRead mb) s mb (s.begun mb) ((List.range (fld pl 7 7)).flatMap fun i => ((s.pw (pwOf (bitOf pl 0))).window (fld pl 1 6 + i)).bytes
      (bitOf pl 0) (fld pl 1 6 + i))) ∧
  (∀ (s : State) (mb : Mb) (pl : Nat) (p : Patchwork), s.Admits { opcode := 0x0904, priv := false, query := true, len := fun _ => 1, fields := [(0, 1)] }
      mb pl →
    p = s.pw (pwOf (bitOf pl 0)) → s.mayName mb (s.pwOwner (pwOf (bitOf pl 0))) = true →
    Obeys (.pwQuery mb) s mb (s.begun mb) (packVals [((if p.personality = .disabled then 0 else if p.personality = .vme then 1 else 2), 1), (b2n (p.syscon
      || p.hostBridge), 1), ((if p.vddHb then (if p.fiveVolt then 2 else 1) else 0), 1), (if p.driving then 3 else if p.sequence.isSome then 1 else if
      p.store.isEmpty then 0 else 2, 1), (p.outEntries.length + (p.entries.filter fun e => e.2.isSome).length, 8), ((p.store.map fun r =>
      r.frame.blocks).sum, 8), (s.inboundCells (pwOf (bitOf pl 0)), 8)])) ∧
  (∀ (s : State) (mb : Mb) (pl : Nat) (w : BitVec 64), s.Admits
      { opcode := 0x0905, priv := true, len := fun _ => 2, fields := [(0, 6), (6, 1), (7, 1), (8, 6), (14, 1), (15, 1)] } mb pl →
    w = (if bitOf pl 15 then (if bitOf pl 14 then s.sideband.warnEn ||| (1 <<< fld pl 8 6) else s.sideband.warnEn &&& ~~~((1 : BitVec 64) <<< fld pl 8 6))
      else s.sideband.warnEn) →
    Obeys (.sidebandSet mb) s mb
      ({ (s.begun mb) with sideband := { s.sideband with wires := Tab.put {} s.sideband.wires (fld pl 0 6) { enable := bitOf pl 6, toHeritage := bitOf pl 7, hpin := fbv pl 8 6 }, warnEn := w } })
      []) ∧
  (∀ (s : State) (mb : Mb) (pl : Nat), s.Admits { opcode := 0x0906, priv := false, query := true } mb pl →
    Obeys (.sidebandQuery mb) s mb (s.begun mb) ((s.begun mb).sidebandBytes mb)) ∧
  (∀ (s : State) (mb : Mb) (pl : Nat) (x : PwPort), s.Admits { opcode := 0x0907, priv := true, len := fun _ => 1, fields := [(0, 1)] } mb pl →
    x = pwOf (bitOf pl 0) → (s.pw x).personality ≠ .disabled → ((s.pw x).syscon || (s.pw x).hostBridge) = true →
    Obeys (.pwBusReset mb) s mb ((((s.begun mb).pwEndWork x false).raise 0x0901 [(pwIdx x, 1), (1, 1)] [s.pwOwner x]).modPw x fun p =>
      { p with driving := true }) []) ∧
  (∀ (s : State) (mb : Mb) (pl : Nat) (c : PwCounters), s.Admits
      { opcode := 0x0908, priv := false, query := true, len := fun _ => 1, fields := [(0, 1), (1, 1)] } mb pl →
    c = (s.pw (pwOf (bitOf pl 0))).counters → s.mayName mb (s.pwOwner (pwOf (bitOf pl 0))) = true →
    Obeys (.pwCountersRead mb) s mb (if bitOf pl 1 then (s.begun mb).countPw (pwOf (bitOf pl 0)) fun _ => {} else (s.begun mb)) (packCounters [c.outReads,
      c.outWrites, c.outRmw, c.inReads, c.inWrites, c.outMiss, c.unsuppFrames, c.splitCycles, c.outWriteErr, c.busErr, c.inAbort, c.prefetchBytes,
      c.prefetchDiscard, c.delayedDiscard, c.yields, c.yieldDiscard, c.entryWaits]))

/-- R366, R367, R368, R369, R361, R363, R364, R365: with the booth controller running, SLOT_CONFIG sets a channel, keeping each value whose field is 0; SLOT_POWER turns a
channel on or off, clears a latch, a lockout or a retry wait, in the states that Table 10.4 allows; SLOT_BUS_CONFIG sets the bus thresholds where they stay 2 V apart;
SLOT_PROFILE_SAVE keeps all settings; the others act on what they name. While the booth controller restarts a command of the group waits in its mailbox. -/
def Obligations.SlotCommandsAct : Prop :=
  (∀ (s : State) (mb : Mb) (pl : Nat) (o : ChanSettings), s.Admits
      { opcode := 0x0A00, priv := true, len := fun _ => 12, fields := [(0, 6), (6, 1), (7, 1), (8, 1), (16, 8), (24, 7), (32, 10), (42, 10), (52, 10), (64, 4), (68, 1)], checks := fun pl => [(0, decide (fld pl 0 6 < 48)), (16, decide (fld pl 16 8 = 0 ∨ (10 ≤ fld pl 16 8 ∧ fld pl 16 8 ≤ 200))), (24, decide (fld pl 24 7 ≤ 100)), (32, decide (fld pl 32 10 ≤ 1000)), (42, decide (fld pl 42 10 ≤ 1000)), (52, decide (fld pl 52 10 = 0 ∨ (5 ≤ fld pl 52 10 ∧ fld pl 52 10 ≤ 1000)))] }
      mb pl →
    s.slots.restarting = false → o = (s.chan (fld pl 0 6)).set →
    Obeys (.slotConfig mb) s mb ((s.begun mb).setChan (fld pl 0 6)
      { enable := bitOf pl 6, autoOn := bitOf pl 7, hostPower := bitOf pl 8, vLim := keep0 (fld pl 16 8) o.vLim, breaker := keep0 (fld pl 24 7) o.breaker, prechargeMax := keep0 (fld pl 32 10) o.prechargeMax, pgDelay := keep0 (fld pl 42 10) o.pgDelay, pfwLead := keep0 (fld pl 52 10) o.pfwLead, retryMax := if bitOf pl 68 then fld pl 64 4 else o.retryMax })
      []) ∧
  (∀ (s : State) (mb : Mb) (pl : Nat) (g : ChanState), s.Admits
      { opcode := 0x0A01, priv := true, len := fun _ => 2, fields := [(0, 6), (8, 3)], checks := fun pl => [(0, decide (fld pl 0 6 < 48)), (8, decide (fld pl 8 3 ≤ 4))] }
      mb pl →
    s.slots.restarting = false → g = (s.chan (fld pl 0 6)).state → fld pl 8 3 = 0 → (g = .ready ∨ g.powered = true) →
    Obeys (.slotPower mb) s mb (if g = .ready then (s.begun mb).requestStart (fld pl 0 6) else (s.begun mb)) []) ∧
  (∀ (s : State) (mb : Mb) (pl : Nat) (g : ChanState), s.Admits
      { opcode := 0x0A01, priv := true, len := fun _ => 2, fields := [(0, 6), (8, 3)], checks := fun pl => [(0, decide (fld pl 0 6 < 48)), (8, decide (fld pl 8 3 ≤ 4))] }
      mb pl →
    s.slots.restarting = false → g = (s.chan (fld pl 0 6)).state → fld pl 8 3 = 1 →
    Obeys (.slotPower mb) s mb (if g.powered then ((s.begun mb).modChan (fld pl 0 6) fun x => { x with retry := 0 }).warnOff (fld pl 0 6) scCommand else
      if g = .retryWait then ((s.begun mb).modChan (fld pl 0 6) fun x => { x with retry := 0 }).chanTo (fld pl 0 6) .ready scCommand else (s.begun
      mb)) []) ∧
  (∀ (s : State) (mb : Mb) (pl : Nat), s.Admits
      { opcode := 0x0A01, priv := true, len := fun _ => 2, fields := [(0, 6), (8, 3)], checks := fun pl => [(0, decide (fld pl 0 6 < 48)), (8, decide (fld pl 8 3 ≤ 4))] }
      mb pl →
    s.slots.restarting = false → fld pl 8 3 = 2 → (s.chan (fld pl 0 6)).state = .latched →
    Obeys (.slotPower mb) s mb ((((s.begun mb).modChan (fld pl 0 6) fun x => { x with retry := 0 }).chanTo (fld pl 0 6) .ready scCommand).autoStart (fld
      pl 0 6)) []) ∧
  (∀ (s : State) (mb : Mb) (pl : Nat), s.Admits
      { opcode := 0x0A01, priv := true, len := fun _ => 2, fields := [(0, 6), (8, 3)], checks := fun pl => [(0, decide (fld pl 0 6 < 48)), (8, decide (fld pl 8 3 ≤ 4))] }
      mb pl →
    s.slots.restarting = false → fld pl 8 3 = 3 → (s.chan (fld pl 0 6)).state = .lockout →
    Obeys (.slotPower mb) s mb ((s.begun mb).clearLockout (fld pl 0 6)) []) ∧
  (∀ (s : State) (mb : Mb) (pl : Nat), s.Admits
      { opcode := 0x0A01, priv := true, len := fun _ => 2, fields := [(0, 6), (8, 3)], checks := fun pl => [(0, decide (fld pl 0 6 < 48)), (8, decide (fld pl 8 3 ≤ 4))] }
      mb pl →
    s.slots.restarting = false → fld pl 8 3 = 4 → (s.chan (fld pl 0 6)).state = .retryWait →
    Obeys (.slotPower mb) s mb (((s.begun mb).chanTo (fld pl 0 6) .ready scCommand).requestStart (fld pl 0 6)) []) ∧
  (∀ (s : State) (mb : Mb) (pl : Nat) (x : Chan), s.Admits
      { opcode := 0x0A02, priv := false, query := true, len := fun _ => 1, fields := [(0, 6)], checks := fun pl => [(0, decide (fld pl 0 6 < 48))] }
      mb pl →
    s.slots.restarting = false → x = s.chan (fld pl 0 6) →
    ((privilegedMb mb || (s.portsOfSlot (fld pl 0 6)).any fun p => s.mayName mb (s.portOwner p)) = true) →
    Obeys (.slotQuery mb) s mb (s.begun mb) (packVals [(x.state.code, 1), (x.cause.toNat, 1), (min x.retry 15, 1), (s.slotRemaining (fld pl 0 6), 3), (b2n
      x.present, 1), (b2n x.pg, 1), (b2n (!s.pfwAsserted (fld pl 0 6)), 1), (b2n x.set.enable, 1), (b2n x.set.autoOn, 1), (b2n x.set.hostPower, 1),
      (x.sample.vin.toNat, 2), (x.sample.out.toNat, 2), (x.sample.vgs.toNat, 2), (x.sample.vsense.toNat, 2), (x.tripCause.toNat, 1)])) ∧
  (∀ (s : State) (mb : Mb) (pl : Nat) (w r : Nat), s.Admits
      { opcode := 0x0A03, priv := true, len := fun _ => 5, fields := [(0, 8), (8, 8), (16, 6), (24, 8), (32, 1)], checks := fun pl => [(0, decide (fld pl 0 8 = 0 ∨ (144 ≤ fld pl 0 8 ∧ fld pl 0 8 ≤ 224))), (8, decide (fld pl 8 8 = 0 ∨ 120 ≤ fld pl 8 8)), (16, decide (fld pl 16 6 ≤ 48))] }
      mb pl →
    s.slots.restarting = false → w = keep0 (fld pl 0 8) s.slots.bus.warnLevel → r = keep0 (fld pl 8 8) s.slots.bus.resetLevel → r + 8 ≤ w →
    Obeys (.slotBusConfig mb) s mb ((s.begun mb).modSlots fun x =>
      { x with bus := { warnLevel := w, resetLevel := r, startLimit := keep0 (fld pl 16 6) s.slots.bus.startLimit, staggerGap := if bitOf pl 32 then fld pl 24 8 else s.slots.bus.staggerGap } })
      []) ∧
  (∀ (s : State) (mb : Mb) (pl : Nat), s.Admits { opcode := 0x0A04, priv := true, query := true } mb pl →
    s.slots.restarting = false →
    Obeys (.slotBusQuery mb) s mb ((s.begun mb).modSlots fun x => { x with vfeedMin := x.vfeed }) (bytesOf 5 (packBits [(s.slots.vfeed.toNat, 16),
      (s.slots.vfeedMin.toNat, 16), (b2n s.slots.warning, 1), (b2n s.slots.cut, 1)]))) ∧
  (∀ (s : State) (mb : Mb) (pl : Nat), s.Admits
      { opcode := 0x0A05, priv := true, len := fun _ => 1, fields := [(0, 6)], checks := fun pl => [(0, decide (fld pl 0 6 < 48))] } mb pl →
    s.slots.restarting = false → s.chanMapped (fld pl 0 6) = true →
    Obeys (.slotAttention mb) s mb ((s.begun mb).modChan (fld pl 0 6) fun x => { x with attention := true }) []) ∧
  (∀ (s : State) (mb : Mb) (pl : Nat), s.Admits { opcode := 0x0A06, priv := true } mb pl →
    s.slots.restarting = false →
    Obeys (.slotProfileSave mb) s mb ((s.begun mb).modSlots fun x =>
      { x with profile := some { bus := x.bus, chans := (List.range 48).foldl (fun t c => Tab.put {} t c (s.chan c).set) [], seq := (s.slots.profile.map fun p => p.seq + 1).getD 0 } })
      []) ∧
  (∀ (s : State) (mb : Mb) (pl : Nat), s.Admits
      { opcode := 0x0A07, priv := false, query := true, len := fun _ => 1, fields := [(0, 6), (6, 1), (7, 1)], checks := fun pl => [(0, bitOf pl 6 || decide (fld pl 0 6 < 48))] }
      mb pl →
    s.slots.restarting = false → bitOf pl 6 = true → privilegedMb mb = true →
    Obeys (.slotCountersRead mb) s mb (if bitOf pl 7 then (s.begun mb).modSlots fun x => { x with busWarnings := 0, busCuts := 0 } else (s.begun mb))
      (packCounters [s.slots.busWarnings, s.slots.busCuts])) ∧
  (∀ (s : State) (mb : Mb) (pl : Nat) (k : ChanCounters), s.Admits
      { opcode := 0x0A07, priv := false, query := true, len := fun _ => 1, fields := [(0, 6), (6, 1), (7, 1)], checks := fun pl => [(0, bitOf pl 6 || decide (fld pl 0 6 < 48))] }
      mb pl →
    s.slots.restarting = false → bitOf pl 6 = false → k = (s.chan (fld pl 0 6)).counters →
    ((privilegedMb mb || (s.portsOfSlot (fld pl 0 6)).any fun p => s.mayName mb (s.portOwner p)) = true) →
    Obeys (.slotCountersRead mb) s mb (if bitOf pl 7 then (s.begun mb).modChan (fld pl 0 6) fun x => { x with counters := {} } else (s.begun mb))
      (packCounters [k.attempts, k.tripsFast, k.tripsBreaker, k.tripsOther, k.latches, k.lockouts, k.insertions, k.removals, k.shortAbsences])) ∧
  (∀ (s : State) (mb : Mb) (c : Instr), s.slots.restarting = true →
    c ∈ [Instr.slotConfig mb, .slotPower mb, .slotQuery mb, .slotBusConfig mb, .slotBusQuery mb, .slotAttention mb, .slotProfileSave mb, .slotCountersRead mb] →
    exec c s = .next s)

/-- R434, R421, R423, R433, R416: FAULT_QUERY and FAULT_LOG_READ return FFR, first Fatal record and log records with a FRSEQ at or after FIRST; FAULT_CLEAR empties FFR and
log and sets the FFR level where its bits ask for it; FAULT_FORWARD_SET sets one of the two forward addresses; FAULT_COUNTERS_READ returns the counters of a source and a
PU, zeroed only where CLEAR asks for it; FAULT_SUPERVISE ends the state unsupervised where the pair is valid. -/
def Obligations.FaultRecordCommandsAct : Prop :=
  (∀ (s : State) (mb : Mb) (pl : Nat) (f : Faults), s.Admits { opcode := 0x0B00, priv := true, stopped := true, query := true } mb pl →
    f = s.faults →
    Obeys (.faultQuery mb) s mb (s.begun mb) ((f.ffr.getD noRecord).bytes ++ (f.firstFatal.getD noRecord).bytes ++ packVals [(f.ffrLevel.toNat, 1),
      (((f.log.head?.map fun r => r.frseq).getD f.frseq).toNat, 2), ((f.frseq - 1).toNat, 2), (f.fences.length, 8), ((f.sources.filter fun e =>
      e.2.unsupervised).length, 8)])) ∧
  (∀ (s : State) (mb : Mb) (pl : Nat) (l : List FaultRec), s.Admits
      { opcode := 0x0B01, priv := true, stopped := true, query := true, len := fun _ => 3, fields := [(0, 16), (16, 7)], checks := fun pl => [(16, decide (fld pl 16 7 ≠ 0))] }
      mb pl →
    (l = (s.faults.log.filter fun r => atOrAfter (fbv pl 0 16) r.frseq).take (fld pl 16 7)) →
    Obeys (.faultLogRead mb) s mb (s.begun mb) (packVals [(((l.head?.map fun r => r.frseq).getD (fbv pl 0 16)).toNat, 2), (l.length, 2)] ++ l.flatMap
      FaultRec.bytes)) ∧
  (∀ (s : State) (mb : Mb) (pl : Nat), s.Admits
      { opcode := 0x0B02, priv := true, len := fun _ => 1, fields := [(0, 1), (1, 1), (2, 1), (3, 3)], checks := fun pl => [(3, decide (fld pl 3 3 ≤ 4))] }
      mb pl →
    Obeys (.faultClear mb) s mb ((s.begun mb).modFaults fun f =>
      { f with ffr := if bitOf pl 0 then none else f.ffr, log := if bitOf pl 1 then [] else f.log, ffrLevel := if bitOf pl 2 then fbv pl 3 3 else f.ffrLevel })
      []) ∧
  (∀ (s : State) (mb : Mb) (pl : Nat) (g : Option Geid), s.Admits
      { opcode := 0x0B09, priv := true, len := fun _ => 4, fields := [(0, 1), (1, 1), (12, 20)] } mb pl →
    g = (if bitOf pl 1 then some (fbv pl 12 20) else none) →
    Obeys (.faultForwardSet mb) s mb ((s.begun mb).modFaults fun f => if bitOf pl 0 then { f with forward1 := g } else { f with forward0 := g }) []) ∧
  (∀ (s : State) (mb : Mb) (pl : Nat) (src : BitVec 12) (q : Nat), s.Admits
      { opcode := 0x0B0A, priv := true, stopped := true, len := fun _ => 3, fields := [(0, 12), (12, 7), (19, 1)], checks := fun pl => [(0, sourceExists (fbv pl 0 12))] }
      mb pl →
    src = fbv pl 0 12 → q = fld pl 12 7 →
    Obeys (.faultCountersRead mb) s mb (if bitOf pl 19 then ((s.begun mb).modSource src fun x => { x with correctable := 0 }).modFaults fun f =>
      { f with poisonSet := Tab.put 0 f.poisonSet q 0, poisonRx := Tab.put 0 f.poisonRx q 0, pairOnly := 0, merged := 0, logOverwritten := 0, fenceDrop := 0 }
      else (s.begun mb)) (packCounters [(s.source src).correctable, Tab.get 0 s.faults.poisonSet q, Tab.get 0 s.faults.poisonRx q, s.faults.pairOnly,
      s.faults.merged, s.faults.logOverwritten, s.faults.fenceDrop])) ∧
  (∀ (s : State) (mb : Mb) (pl : Nat), s.Admits
      { opcode := 0x0B07, priv := true, len := fun _ => 2, fields := [(0, 12)], checks := fun pl => [(0, sourceExists (fbv pl 0 12))] } mb pl →
    (s.source (fbv pl 0 12)).pair ≠ .invalid →
    Obeys (.faultSupervise mb) s mb ((s.begun mb).modSource (fbv pl 0 12) fun x => { x with unsupervised := false }) [])

/-- R413, R424, R426, R434, R435: FAULT_SEVERITY_SET sets the severity of an error, WIRE_FAULT keeping Degraded; FAULT_FENCE of a unit that is not fenced logs MANAGER_FENCE
against it, which fences it; FAULT_RELEASE releases the fence of a unit that is neither marked nor an instance or channel; FENCE_QUERY lists the fences that the mailbox
may see; FAULT_INJECT raises a pair with or without a report, a Fatal one only with CONFIRM_FATAL. The DETAIL of an injected report is a free value within its layout (log
entry 61). -/
def Obligations.FenceCommandsAct : Prop :=
  (∀ (s : State) (mb : Mb) (pl : Nat), s.Admits
      { opcode := 0x0B03, priv := true, len := fun _ => 3, fields := [(0, 12), (12, 8), (20, 3)], checks := fun pl => let src := fbv pl 0 12; let code := fbv pl 12 8; let sev := fbv pl 20 3; let row := severityRow src code; [(0, decide (src.toNat < 0xC00) || sourceExists src), (12, row.isSome || decide (code = 0xFE ∨ code = 0xFF)), (20, match row with | some r => decide (r.lo ≤ sev ∧ sev ≤ r.hi) && (r.unit || decide (sev ≠ svContained)) | none => decide (code = 0xFF ∧ sev = svDegraded))] }
      mb pl →
    fbv pl 12 8 ≠ 0xFF →
    Obeys (.faultSeveritySet mb) s mb ((s.begun mb).modFaults fun f =>
      { f with severity := Tab.put none f.severity (severityKey (fbv pl 0 12) (fbv pl 12 8)) (some (fbv pl 20 3)) }) []) ∧
  (∀ (s : State) (mb : Mb) (pl : Nat), s.Admits
      { opcode := 0x0B03, priv := true, len := fun _ => 3, fields := [(0, 12), (12, 8), (20, 3)], checks := fun pl => let src := fbv pl 0 12; let code := fbv pl 12 8; let sev := fbv pl 20 3; let row := severityRow src code; [(0, decide (src.toNat < 0xC00) || sourceExists src), (12, row.isSome || decide (code = 0xFE ∨ code = 0xFF)), (20, match row with | some r => decide (r.lo ≤ sev ∧ sev ≤ r.hi) && (r.unit || decide (sev ≠ svContained)) | none => decide (code = 0xFF ∧ sev = svDegraded))] }
      mb pl →
    fbv pl 12 8 = 0xFF →
    Obeys (.faultSeveritySet mb) s mb (s.begun mb) []) ∧
  (∀ (s : State) (mb : Mb) (pl : Nat) (u : UnitId), s.Admits
      { opcode := 0x0B04, priv := true, len := fun _ => 4, fields := [(0, 4), (4, 16)], checks := unitChecks } mb pl →
    u = ⟨fbv pl 0 4, fbv pl 4 16⟩ → s.fenced u = false →
    Obeys (.faultFence mb) s mb ((s.begun mb).classify
      { source := 0xF01, error := 0x01, severity := svContained, seconds := s.timeNow.1, ns := s.timeNow.2 } (some u)) []) ∧
  (∀ (s : State) (mb : Mb) (pl : Nat), s.Admits { opcode := 0x0B04, priv := true, len := fun _ => 4, fields := [(0, 4), (4, 16)], checks := unitChecks }
      mb pl →
    s.fenced ⟨fbv pl 0 4, fbv pl 4 16⟩ = true →
    Obeys (.faultFence mb) s mb (s.begun mb) []) ∧
  (∀ (s : State) (mb : Mb) (pl : Nat) (u : UnitId), s.Admits
      { opcode := 0x0B05, priv := true, len := fun _ => 4, fields := [(0, 4), (4, 16)], checks := unitChecks } mb pl →
    u = ⟨fbv pl 0 4, fbv pl 4 16⟩ → u.kind ≠ 7 → u.kind ≠ 9 → s.marked u = false →
    Obeys (.faultRelease mb) s mb ((s.begun mb).releaseFence u) []) ∧
  (∀ (s : State) (mb : Mb) (pl : Nat) (l : List Fence), s.Admits
      { opcode := 0x0B06, priv := false, stopped := true, query := true, len := fun _ => 2, fields := [(0, 8), (8, 8)] } mb pl →
    (l = ((s.faults.fences.filter fun f => (s.begun mb).ownsUnit mb f.unit).drop (fld pl 0 8)).take (fld pl 8 8)) →
    Obeys (.fenceQuery mb) s mb (s.begun mb) (packVals ((l.length, 2) :: l.flatMap fun f => [(f.unit.bits.toNat, 3), (f.source.toNat, 2), (f.error.toNat,
      1), (0, 2)]))) ∧
  (∀ (s : State) (mb : Mb) (pl : Nat) (src : BitVec 12) (code : BitVec 8), s.Admits
      { opcode := 0x0B08, priv := true, len := fun _ => 3, fields := [(0, 12), (12, 8), (20, 1), (21, 1)], checks := fun pl => [(0, sourceExists (fbv pl 0 12)), (12, (errorRow (fbv pl 0 12) (fbv pl 12 8)).isSome || decide (fbv pl 12 8 = 0xFE ∨ fbv pl 12 8 = 0xFF))] }
      mb pl →
    src = fbv pl 0 12 → code = fbv pl 12 8 →
    (bitOf pl 21 = true ∨ (s.currentSeverity src code ≠ svFatal ∧ (code = 0xFE → s.fallbackSeverity src ≠ svFatal))) →
    (bitOf pl 20 = true ∨ code = 0xFE) →
    Obeys (.faultInject mb) s mb ((s.begun mb).modSource src fun x =>
      { x with pair := if x.pair = .invalid then .invalid else .pending, pairInjected := true }) []) ∧
  (∀ (s : State) (mb : Mb) (pl : Nat) (src : BitVec 12) (code : BitVec 8), s.Admits
      { opcode := 0x0B08, priv := true, len := fun _ => 3, fields := [(0, 12), (12, 8), (20, 1), (21, 1)], checks := fun pl => [(0, sourceExists (fbv pl 0 12)), (12, (errorRow (fbv pl 0 12) (fbv pl 12 8)).isSome || decide (fbv pl 12 8 = 0xFE ∨ fbv pl 12 8 = 0xFF))] }
      mb pl →
    src = fbv pl 0 12 → code = fbv pl 12 8 → (bitOf pl 21 = true ∨ s.currentSeverity src code ≠ svFatal) → bitOf pl 20 = false → code ≠ 0xFE →
    Obeys (.faultInject mb) s mb (({ (s.begun mb) with free := s.free + 1 } : State).queueReport src
      { code := code, detail := injectDetail src (Config.freeWord s.free).toNat, injected := true }) [])

/-- R439, R445, R443, R447, R458: BIST_START begins a test that nothing refuses and returns its target; BIST_ABORT ends the tests of its unit with cause 1; BIST_UNMARK takes
the mark from a unit, initialises it and returns it to service; BIST_QUERY and BIST_LIST return the record of a unit and the units that are marked or under test. -/
def Obligations.BistCommandsAct : Prop :=
  (∀ (s : State) (mb : Mb) (pl : Nat) (u : UnitId), s.Admits
      { opcode := 0x0C00, priv := true, len := fun _ => 4, fields := [(0, 4), (4, 16)], checks := testChecks } mb pl →
    u = ⟨fbv pl 0 4, fbv pl 4 16⟩ → s.testRefusal u = none →
    Obeys (.bistStart mb) s mb ((s.begun mb).testStart u) (bytesOf 3 u.bits.toNat)) ∧
  (∀ (s : State) (mb : Mb) (pl : Nat), s.Admits { opcode := 0x0C01, priv := true, len := fun _ => 4, fields := [(0, 4), (4, 16)], checks := testChecks }
      mb pl →
    Obeys (.bistAbort mb) s mb ((s.begun mb).abortTests (fun v => decide (v = ⟨fbv pl 0 4, fbv pl 4 16⟩)) 1) []) ∧
  (∀ (s : State) (mb : Mb) (pl : Nat), s.Admits
      { opcode := 0x0C02, priv := true, query := true, len := fun _ => 4, fields := [(0, 4), (4, 16)], checks := testChecks } mb pl →
    Obeys (.bistQuery mb) s mb (s.begun mb) (s.bistBytes ⟨fbv pl 0 4, fbv pl 4 16⟩)) ∧
  (∀ (s : State) (mb : Mb) (pl : Nat) (u : UnitId), s.Admits
      { opcode := 0x0C03, priv := true, len := fun _ => 4, fields := [(0, 4), (4, 16)], checks := testChecks } mb pl →
    u = ⟨fbv pl 0 4, fbv pl 4 16⟩ →
    Obeys (.bistUnmark mb) s mb (if s.marked u then (((s.begun mb).modBist fun b =>
      { b with marks := b.marks.filter fun k => decide (k ≠ u.key) }).reinitUnit u).returnUnit u true else (s.begun mb)) []) ∧
  (∀ (s : State) (mb : Mb) (pl : Nat) (l : List Nat), s.Admits
      { opcode := 0x0C04, priv := true, query := true, len := fun _ => 2, fields := [(0, 8), (8, 8)] } mb pl →
    (l = ((s.testsActive.foldl (fun a u => insertNat u.key a) s.bist.marks).drop (fld pl 0 8)).take (fld pl 8 8)) →
    Obeys (.bistList mb) s mb (s.begun mb) (packVals ((l.length, 2) :: l.map fun k => (packBits [((unitOfKey k).bits.toNat, 20), (b2n (s.marked (unitOfKey
      k)), 1), (b2n (s.underTest (unitOfKey k)), 1)], 4))))

/-- R451, R458, R455, R456, R457, R453: PMON_CONFIG loads each counter that MASK names; PMON_READ returns the values of a monitor and clears them only where CLEAR asks for
it; PMON_FREEZE freezes or releases one monitor or all; PMON_SNAPSHOT takes a time at least 2 us ahead, or the next whole us, where no snapshot is pending;
PMON_SNAPSHOT_READ returns captured values or marks; PMON_SAMPLE_READ takes the oldest records out. Counts that the model does not keep are free values (log entry 62). -/
def Obligations.MonitorCommandsAct : Prop :=
  (∀ (s : State) (mb : Mb) (pl : Nat), s.Admits
      { opcode := 0x0D00, priv := true, len := fun pl => 4 + 12 * (pmonMask pl).length, fields := [(0, 9), (16, 8)] ++ (List.range 8).flatMap fun n => [(pmonBlock n, 17), (pmonBlock n + 32, 64)], checks := fun pl => (0, pmonExists (fld pl 0 9)) :: (List.range (pmonMask pl).length).flatMap fun n => blockChecks (fld pl 0 9) pl n }
      mb pl →
    Obeys (.pmonConfig mb) s mb (((pmonMask pl).foldl (fun (a : State × Nat) k => (a.1.modPmon (fld pl 0 9) fun m => m.modCounter k fun c =>
      { ctl := fbv pl (32 + 96 * a.2) 32, preload := fbv pl (32 + 96 * a.2 + 32) 48, count := fbv pl (32 + 96 * a.2 + 32) 48, ovf := c.ovf }, a.2 +
      1)) ((s.begun mb), 0)).1) []) ∧
  (∀ (s : State) (mb : Mb) (pl : Nat) (t : State), s.Admits
      { opcode := 0x0D01, priv := true, len := fun _ => 2, fields := [(0, 9), (9, 1)], checks := fun pl => [(0, pmonExists (fld pl 0 9))] } mb pl →
    t = (s.begun mb).pmonSync (fld pl 0 9) →
    Obeys (.pmonRead mb) s mb (if bitOf pl 9 then t.modPmon (fld pl 0 9) fun m =>
      { m with counters := Tab.mapAll {} m.counters fun c => { c with count := 0, ovf := false }, samplesLost := 0 } else t) ((t.pmonOf (fld pl 0
      9)).values)) ∧
  (∀ (s : State) (mb : Mb) (pl : Nat), s.Admits
      { opcode := 0x0D02, priv := true, len := fun _ => 2, fields := [(0, 9), (9, 1), (10, 1)], checks := fun pl => [(0, bitOf pl 9 || pmonExists (fld pl 0 9))] }
      mb pl →
    Obeys (.pmonFreeze mb) s mb ((s.begun mb).each (if bitOf pl 9 then pmonMons else [fld pl 0 9]) fun t mon => (if bitOf pl 10 then t.pmonSync mon else
      t).modPmon mon fun m => { m with frozen := bitOf pl 10 }) []) ∧
  (∀ (s : State) (mb : Mb) (pl : Nat) (t : Nat), s.Admits
      { opcode := 0x0D03, priv := true, len := fun _ => 10, fields := [(0, 48), (48, 30), (78, 1)], checks := fun pl => [(48, decide (fld pl 48 30 < 1000000000))] }
      mb pl →
    s.bist.pending = none → t = fld pl 0 48 * 1000000000 + fld pl 48 30 → (t = 0 ∨ s.fabNs + 2000 ≤ t) →
    Obeys (.pmonSnapshot mb) s mb ((s.begun mb).modBist fun b =>
      { b with pending := some (if t = 0 then (s.fabNs + 2999) / 1000 * 1000 else t, bitOf pl 78) }) []) ∧
  (∀ (s : State) (mb : Mb) (pl : Nat), s.Admits
      { opcode := 0x0D04, priv := true, query := true, len := fun _ => 3, fields := [(0, 9), (9, 1), (10, 8), (18, 1)], checks := fun pl => [(0, bitOf pl 9 || pmonExists (fld pl 0 9))] }
      mb pl →
    bitOf pl 9 = false →
    Obeys (.pmonSnapshotRead mb) s mb (s.begun mb) (packVals [(s.bist.snapSeq.toNat, 2), (s.bist.snapTime / 1000000000, 6), (s.bist.snapTime % 1000000000,
      4), (b2n (Tab.get {} s.bist.snaps (fld pl 0 9)).valid, 1), (b2n s.bist.skewOk, 1)] ++ (Tab.get {} s.bist.snaps (fld pl 0 9)).values)) ∧
  (∀ (s : State) (mb : Mb) (pl : Nat) (p : Nat) (x : MarkSnap), s.Admits
      { opcode := 0x0D04, priv := true, query := true, len := fun _ => 3, fields := [(0, 9), (9, 1), (10, 8), (18, 1)], checks := fun pl => [(0, bitOf pl 9 || pmonExists (fld pl 0 9))] }
      mb pl →
    bitOf pl 9 = true → s.portNamed (fld pl 10 8) (fld pl 18 1) = some p → x = Tab.get {} s.bist.marksSnap p →
    Obeys (.pmonSnapshotRead mb) s mb (s.begun mb) (if x.bytes = [] then List.replicate (s.hwmBytes p ++ s.schedHwmBytes p).length 0 else x.bytes)) ∧
  (∀ (s : State) (mb : Mb) (pl : Nat) (l : List PmonSample), s.Admits
      { opcode := 0x0D05, priv := true, len := fun _ => 2, fields := [(0, 9), (9, 7)], checks := fun pl => [(0, pmonExists (fld pl 0 9)), (9, decide (1 ≤ fld pl 9 7 ∧ fld pl 9 7 ≤ 64))] }
      mb pl →
    l = (s.pmonOf (fld pl 0 9)).samples.take (fld pl 9 7) →
    Obeys (.pmonSampleRead mb) s mb ((s.begun mb).modPmon (fld pl 0 9) fun m => { m with samples := m.samples.drop (fld pl 9 7) }) (packVals [(l.length,
      2)] ++ l.flatMap PmonSample.bytes))

/-- R470, R471, R473, R482, R481, R474: PWR_STATE_SET wakes a port or asks it to sleep, powers a quad on or off, takes a Ring off or brings it back and enters Intermission,
where no test, mark, fence, Ring Off, update or port in use stands in the way; the state asked for already is no change. PWR_QUERY returns power states, and of a port its
counts of entries. -/
def Obligations.PowerStateCommandsAct : Prop :=
  (∀ (s : State) (mb : Mb) (pl : Nat) (p : Nat), s.Admits
      { opcode := 0x0E00, priv := true, len := fun _ => 2, fields := [(0, 2), (2, 7), (9, 3)], checks := fun pl => [(2, decide (fld pl 0 2 ≠ 2 ∨ fld pl 2 7 < 16)), (9, powerPair (fld pl 0 2) (fld pl 9 3))] }
      mb pl →
    fld pl 0 2 = 0 → s.portNamed (fld pl 2 7) 0 = some p → fld pl 9 3 = 0 →
    Obeys (.pwrStateSet mb) s mb ((s.begun mb).wakePort p) []) ∧
  (∀ (s : State) (mb : Mb) (pl : Nat) (p : Nat), s.Admits
      { opcode := 0x0E00, priv := true, len := fun _ => 2, fields := [(0, 2), (2, 7), (9, 3)], checks := fun pl => [(2, decide (fld pl 0 2 ≠ 2 ∨ fld pl 2 7 < 16)), (9, powerPair (fld pl 0 2) (fld pl 9 3))] }
      mb pl →
    fld pl 0 2 = 0 → s.portNamed (fld pl 2 7) 0 = some p → fld pl 9 3 = 1 →
    ((s.port p).stage = .sleep ∨ (s.portHeld s.underTest p = false ∧ (s.port p).pcie = false ∧ (s.port p).stage = .active ∧ (s.link p).maySleep = true)) →
    Obeys (.pwrStateSet mb) s mb (if (s.port p).stage = .sleep then (s.begun mb) else (s.begun mb).modLink p Link.sleepRequest) []) ∧
  (∀ (s : State) (mb : Mb) (pl : Nat) (q : Nat), s.Admits
      { opcode := 0x0E00, priv := true, len := fun _ => 2, fields := [(0, 2), (2, 7), (9, 3)], checks := fun pl => [(2, decide (fld pl 0 2 ≠ 2 ∨ fld pl 2 7 < 16)), (9, powerPair (fld pl 0 2) (fld pl 9 3))] }
      mb pl →
    fld pl 0 2 = 1 → fld pl 9 3 = 0 → q = fld pl 2 7 → quadHeld s.fenced q = false → quadHeld s.marked q = false →
    s.ringIsOff (ringOf q) = false →
    Obeys (.pwrStateSet mb) s mb (if (s.portsOfQuad q).isEmpty then (s.begun mb) else (s.begun mb).powerQuad q) []) ∧
  (∀ (s : State) (mb : Mb) (pl : Nat) (q : Nat), s.Admits
      { opcode := 0x0E00, priv := true, len := fun _ => 2, fields := [(0, 2), (2, 7), (9, 3)], checks := fun pl => [(2, decide (fld pl 0 2 ≠ 2 ∨ fld pl 2 7 < 16)), (9, powerPair (fld pl 0 2) (fld pl 9 3))] }
      mb pl →
    fld pl 0 2 = 1 → fld pl 9 3 = 2 → q = fld pl 2 7 → quadHeld s.underTest q = false →
    (Tab.get false s.power.quadOn q = false ∨ s.quadIdle q = true) →
    Obeys (.pwrStateSet mb) s mb (if Tab.get false s.power.quadOn q then (s.begun mb).quadOff q else (s.begun mb)) []) ∧
  (∀ (s : State) (mb : Mb) (pl : Nat), s.Admits
      { opcode := 0x0E00, priv := true, len := fun _ => 2, fields := [(0, 2), (2, 7), (9, 3)], checks := fun pl => [(2, decide (fld pl 0 2 ≠ 2 ∨ fld pl 2 7 < 16)), (9, powerPair (fld pl 0 2) (fld pl 9 3))] }
      mb pl →
    fld pl 0 2 = 2 → fld pl 9 3 = 0 →
    Obeys (.pwrStateSet mb) s mb (if s.ringIsOff (fld pl 2 7) then (s.begun mb).ringUp (fld pl 2 7) else (s.begun mb)) []) ∧
  (∀ (s : State) (mb : Mb) (pl : Nat) (r : Nat), s.Admits
      { opcode := 0x0E00, priv := true, len := fun _ => 2, fields := [(0, 2), (2, 7), (9, 3)], checks := fun pl => [(2, decide (fld pl 0 2 ≠ 2 ∨ fld pl 2 7 < 16)), (9, powerPair (fld pl 0 2) (fld pl 9 3))] }
      mb pl →
    fld pl 0 2 = 2 → fld pl 9 3 = 2 → r = fld pl 2 7 → ((s.testsActive.any fun u => testRing u == some r) = false) →
    (s.ringIsOff r = true ∨ ((ringPus r).any fun q => Tab.get false s.power.quadOn q) = false) →
    Obeys (.pwrStateSet mb) s mb (if s.ringIsOff r then (s.begun mb) else (s.begun mb).ringDown r) []) ∧
  (∀ (s : State) (mb : Mb) (pl : Nat), s.Admits
      { opcode := 0x0E00, priv := true, len := fun _ => 2, fields := [(0, 2), (2, 7), (9, 3)], checks := fun pl => [(2, decide (fld pl 0 2 ≠ 2 ∨ fld pl 2 7 < 16)), (9, powerPair (fld pl 0 2) (fld pl 9 3))] }
      mb pl →
    fld pl 0 2 = 3 → fld pl 9 3 = 0 →
    Obeys (.pwrStateSet mb) s mb (s.begun mb) []) ∧
  (∀ (s : State) (mb : Mb) (pl : Nat) (t : State), s.Admits
      { opcode := 0x0E00, priv := true, len := fun _ => 2, fields := [(0, 2), (2, 7), (9, 3)], checks := fun pl => [(2, decide (fld pl 0 2 ≠ 2 ∨ fld pl 2 7 < 16)), (9, powerPair (fld pl 0 2) (fld pl 9 3))] }
      mb pl →
    fld pl 0 2 = 3 → fld pl 9 3 = 3 → s.testsActive = [] → s.mgmt.update = none → s.mgmt.cal.importCount = 0 →
    (t = ((s.begun mb).modPower fun x => { x with inter := .entering }).raise 0x0E00 [(3, 1), (0, 1), (4, 1)] []) →
    Obeys (.pwrStateSet mb) s mb (((t.each t.allPorts fun t p => (t.disable p rsAdmin).clearDiag p).pwEndWork .a true).pwEndWork .b true) []) ∧
  (∀ (s : State) (mb : Mb) (pl : Nat) (p : Nat), s.Admits
      { opcode := 0x0E01, priv := false, query := true, len := fun _ => 2, fields := [(0, 2), (2, 7), (9, 1)], checks := fun pl => [(2, decide (fld pl 0 2 ≠ 2 ∨ fld pl 2 7 < 16))] }
      mb pl →
    fld pl 0 2 = 0 → s.portNamed (fld pl 2 7) 0 = some p → s.mayName mb (s.portOwner p) = true →
    Obeys (.pwrQuery mb) s mb (if bitOf pl 9 then (s.begun mb).modLink p fun l => { l with sleep := { l.sleep with entries := 0, abandoned := 0 } } else
      (s.begun mb)) (packVals [(((s.quadsOf p).map s.quadPower).foldl max 0, 1), ((s.link p).sleep.entries, 8), ((s.link p).sleep.abandoned, 8)])) ∧
  (∀ (s : State) (mb : Mb) (pl : Nat), s.Admits
      { opcode := 0x0E01, priv := false, query := true, len := fun _ => 2, fields := [(0, 2), (2, 7), (9, 1)], checks := fun pl => [(2, decide (fld pl 0 2 ≠ 2 ∨ fld pl 2 7 < 16))] }
      mb pl →
    fld pl 0 2 = 1 → privilegedMb mb = true →
    Obeys (.pwrQuery mb) s mb (s.begun mb) (packVals [(s.quadPower (fld pl 2 7), 1)])) ∧
  (∀ (s : State) (mb : Mb) (pl : Nat), s.Admits
      { opcode := 0x0E01, priv := false, query := true, len := fun _ => 2, fields := [(0, 2), (2, 7), (9, 1)], checks := fun pl => [(2, decide (fld pl 0 2 ≠ 2 ∨ fld pl 2 7 < 16))] }
      mb pl →
    fld pl 0 2 = 2 → privilegedMb mb = true →
    Obeys (.pwrQuery mb) s mb (s.begun mb) (packVals [(if s.ringIsOff (fld pl 2 7) then 3 else 0, 1)])) ∧
  (∀ (s : State) (mb : Mb) (pl : Nat), s.Admits
      { opcode := 0x0E01, priv := false, query := true, len := fun _ => 2, fields := [(0, 2), (2, 7), (9, 1)], checks := fun pl => [(2, decide (fld pl 0 2 ≠ 2 ∨ fld pl 2 7 < 16))] }
      mb pl →
    fld pl 0 2 = 3 → privilegedMb mb = true →
    Obeys (.pwrQuery mb) s mb (s.begun mb) (packVals [(0, 1)]))

/-- R461, R463, R464, R465, R466, R476, R471: SYS_RESET schedules the warm reset; RING_RESET resets the units of a Ring that has no test; PORT_RESET takes a port down, clears
its diagnostics and adaptation and starts it again where AUTO_UP asks for it; VH_RESET resets a VH that exists; BOOTH_RESTART restarts the booth controller; WAKE_CONFIG
and SLEEP_CONFIG set what they name. -/
def Obligations.ResetCommandsAct : Prop :=
  (∀ (s : State) (mb : Mb) (pl : Nat), s.Admits { opcode := 0x0E02, priv := true } mb pl →
    Obeys (.sysReset mb) s mb ((s.begun mb).modPower fun x => { x with warmDue := true }) []) ∧
  (∀ (s : State) (mb : Mb) (pl : Nat), s.Admits { opcode := 0x0E03, priv := true, len := fun _ => 1, fields := [(0, 4)] } mb pl →
    ((s.testsActive.any fun u => testRing u == some (fld pl 0 4)) = false) →
    Obeys (.ringReset mb) s mb (((s.begun mb).resetRingUnits (fld pl 0 4)).raise 0x0E01 [(4, 1), (2, 1)] []) []) ∧
  (∀ (s : State) (mb : Mb) (pl : Nat) (p : Nat), s.Admits { opcode := 0x0E04, priv := true, len := fun _ => 2, fields := [(0, 8), (8, 1)] } mb pl →
    s.portNamed (fld pl 0 8) (fld pl 8 1) = some p →
    Obeys (.portReset mb) s mb (((((s.begun mb).disable p rsAdmin).clearDiag p).dropAdaptation p).autoUp [p]) []) ∧
  (∀ (s : State) (mb : Mb) (pl : Nat) (r : VhRec), s.Admits { opcode := 0x0E05, priv := true, len := fun _ => 1, fields := [(0, 7)] } mb pl →
    Tab.get none s.policy.vh (fld pl 0 7) = some r →
    Obeys (.vhReset mb) s mb ((s.begun mb).vhReset (fld pl 0 7)) []) ∧
  (∀ (s : State) (mb : Mb) (pl : Nat), s.Admits { opcode := 0x0E06, priv := true } mb pl →
    Obeys (.boothRestart mb) s mb ((s.begun mb).boothRestart) []) ∧
  (∀ (s : State) (mb : Mb) (pl : Nat), s.Admits { opcode := 0x0E07, priv := true, len := fun _ => 4, fields := [(0, 5), (16, 16)] } mb pl →
    Obeys (.wakeConfig mb) s mb ((s.begun mb).modPower fun x =>
      { x with wakeMask := fbv pl 0 5, wakeTimer := if fld pl 16 16 = 0 then x.wakeTimer else fld pl 16 16 }) []) ∧
  (∀ (s : State) (mb : Mb) (pl : Nat) (p : Nat), s.Admits { opcode := 0x0E08, priv := true, len := fun _ => 4, fields := [(0, 8), (8, 16), (24, 1)] } mb
      pl →
    s.portNamed (fld pl 0 8) 0 = some p → (s.port p).pcie = false →
    Obeys (.sleepConfig mb) s mb ((s.begun mb).modLink p fun l => { l with sleep := { l.sleep with idleUs := fld pl 8 16, noSleep := bitOf pl 24 } }) [])

/-- R403, R402, R404, R398, R408: FW_WRITE_BEGIN erases the slot that does not run and opens an update, outside RECOVERY with no trial running; FW_WRITE programs the bytes
that follow those written; FW_WRITE_END closes an update whose image verifies; FW_ACTIVATE makes the checked image the trial image or restarts into it; FW_CONFIRM makes
the running image ACTIVE, and raises the fused minimum where FUSE asks for it; FW_RESTART begins a weft reset; FW_QUERY returns both images. -/
def Obligations.FirmwareCommandsAct : Prop :=
  (∀ (s : State) (mb : Mb) (pl : Nat) (d : DirCopy), s.Admits { opcode := 0x0F00, priv := true, recovery := true, query := true } mb pl →
    d = s.mgmt.directory.getD {} →
    Obeys (.fwQuery mb) s mb (s.begun mb) (packVals ([false, true].flatMap (fun b => [(b2n (s.mgmt.imageOk b), 1), ((s.mgmt.slot b).info.version.toNat,
      3), ((s.mgmt.slot b).info.svn.toNat, 1), ((s.mgmt.slot b).info.length.toNat, 4), ((s.mgmt.slot b).info.hitlessMin.toNat, 3)]) ++ [(b2n
      d.activeB, 1), (imageCode d.trialImage, 1), (s.mgmt.fusedSvn.toNat, 1)]))) ∧
  (∀ (s : State) (mb : Mb) (pl : Nat), s.Admits
      { opcode := 0x0F01, priv := true, recovery := true, len := fun _ => 5, fields := [(0, 32), (32, 1)], checks := fun pl => [(0, decide (fld pl 0 32 ≤ 4096 + maxBody))] }
      mb pl →
    (s.mgmt.stage = stageRecovery ∨ (bitOf pl 32 ≠ s.mgmt.image ∧ s.mgmt.trial = false)) →
    Obeys (.fwWriteBegin mb) s mb ((s.begun mb).modMgmt fun m =>
      { m.modSlot (bitOf pl 32) fun x => x.erase ((fld pl 0 32 + 65535) / 65536 * 65536) with update := some { slotB := bitOf pl 32, length := fld pl 0 32, written := 0 } })
      []) ∧
  (∀ (s : State) (mb : Mb) (pl : Nat) (u : FwUpdate) (n : Nat), s.Admits
      { opcode := 0x0F02, priv := true, recovery := true, len := fun _ => 9, fields := [(0, 32), (64, 8 * 4072)] } mb pl →
    n = (s.mbox mb).cmdHdr.length - 8 → s.mgmt.update = some u → fld pl 0 32 = u.written → u.written + n ≤ u.length →
    Obeys (.fwWrite mb) s mb ((s.begun mb).modMgmt fun m =>
      { m.modSlot u.slotB fun x => x.program u.written (bytesOf n (pl >>> 64)) with update := some { u with written := u.written + n } }) []) ∧
  (∀ (s : State) (mb : Mb) (pl : Nat) (u : FwUpdate), s.Admits { opcode := 0x0F03, priv := true, recovery := true } mb pl →
    s.mgmt.update = some u → s.mgmt.imageOk u.slotB = true →
    Obeys (.fwWriteEnd mb) s mb ((s.begun mb).modMgmt fun m =>
      { m.modSlot u.slotB fun x => { x with checked := true } with update := none, lastChecked := u.slotB }) []) ∧
  (∀ (s : State) (mb : Mb) (pl : Nat) (b : Bool), s.Admits { opcode := 0x0F04, priv := true, recovery := true, len := fun _ => 1, fields := [(0, 1)] } mb
      pl →
    b = (if s.mgmt.stage = stageRecovery then s.mgmt.lastChecked else !s.mgmt.image) → (s.mgmt.slot b).checked = true → bitOf pl 0 = false →
    Obeys (.fwActivate mb) s mb ((s.begun mb).modMgmt fun m => m.writeDir fun d => { d with trialImage := some b }) []) ∧
  (∀ (s : State) (mb : Mb) (pl : Nat), s.Admits { opcode := 0x0F04, priv := true, recovery := true, len := fun _ => 1, fields := [(0, 1)] } mb pl →
    s.mgmt.stage ≠ stageRecovery → (s.mgmt.slot (!s.mgmt.image)).checked = true → bitOf pl 0 = true →
    (s.mgmt.slot (!s.mgmt.image)).info.hitlessMin ≤ s.mgmt.fwVersion →
    Obeys (.fwActivate mb) s mb ((s.begun mb).weftStart true) []) ∧
  (∀ (s : State) (mb : Mb) (pl : Nat) (m : Mgmt), s.Admits { opcode := 0x0F05, priv := true, len := fun _ => 1, fields := [(0, 1)] } mb pl →
    s.mgmt.trial = true → (m = (s.begun mb).mgmt.writeDir fun d => { d with activeB := s.mgmt.image }) →
    Obeys (.fwConfirm mb) s mb
      ({ (s.begun mb) with mgmt := { m with trial := false, fusedSvn := if bitOf pl 0 ∧ s.mgmt.fusedSvn < (s.mgmt.slot s.mgmt.image).info.svn then (s.mgmt.slot s.mgmt.image).info.svn else s.mgmt.fusedSvn } })
      []) ∧
  (∀ (s : State) (mb : Mb) (pl : Nat), s.Admits { opcode := 0x0F06, priv := true } mb pl →
    Obeys (.fwRestart mb) s mb ((s.begun mb).weftStart false) [])

/-- R405, R406, R407, R408: CAL_READ returns bytes of the store; CAL_WRITE, where the store has been written fewer than 1,000 times, writes bytes of one section; CAL_EXPORT
returns bytes of the signed blob, taken afresh at offset 0; CAL_IMPORT takes the next bytes, and after the last ones writes the store where the blob verifies and is
refused with AUTH_FAIL where it does not. -/
def Obligations.CalibrationCommandsAct : Prop :=
  (∀ (s : State) (mb : Mb) (pl : Nat), s.Admits
      { opcode := 0x0F07, priv := true, query := true, len := fun _ => 4, fields := [(0, 16), (16, 12)], checks := fun pl => [(16, decide (1 ≤ fld pl 16 12 ∧ fld pl 16 12 ≤ 4080 ∧ fld pl 0 16 + fld pl 16 12 ≤ 0x10000))] }
      mb pl →
    Obeys (.calRead mb) s mb (s.begun mb) (s.mgmt.cal.read (fld pl 0 16) (fld pl 16 12))) ∧
  (∀ (s : State) (mb : Mb) (pl : Nat) (k : Nat), s.Admits
      { opcode := 0x0F08, priv := true, len := fun pl => 8 + fld pl 16 12, fields := [(0, 16), (16, 12), (64, 8 * 4072)], checks := fun pl => [(0, decide (fld pl 0 16 < calLimit (fld pl 0 16))), (16, decide (1 ≤ fld pl 16 12 ∧ fld pl 16 12 ≤ 4072 ∧ fld pl 0 16 + fld pl 16 12 ≤ calLimit (fld pl 0 16)))] }
      mb pl →
    k = (calSection (fld pl 0 16)).getD 0 → s.mgmt.cal.writeCount < 1000 →
    Obeys (.calWrite mb) s mb (((s.begun mb).modCal fun c => c.write k (fld pl 0 16) (bytesOf (fld pl 16 12) (pl >>> 64))).evCal (2 ^ k)) []) ∧
  (∀ (s : State) (mb : Mb) (pl : Nat) (x : List Host.Cell × Nat), s.Admits
      { opcode := 0x0F09, priv := true, len := fun _ => 4, fields := [(0, 17), (17, 12)], checks := fun pl => [(0, decide (fld pl 0 17 < 65888)), (17, decide (1 ≤ fld pl 17 12 ∧ fld pl 17 12 ≤ 4080 ∧ fld pl 0 17 + fld pl 17 12 ≤ 65888))] }
      mb pl →
    fld pl 0 17 = 0 → x = (s.mgmt.cal.bytes, s.mgmt.cal.writeCount) →
    Obeys (.calExport mb) s mb ((s.begun mb).modCal fun c => { c with snapshot := some x }) (((s.begun mb).blob x.1 x.2).take (fld pl 17 12))) ∧
  (∀ (s : State) (mb : Mb) (pl : Nat) (x : List Host.Cell × Nat), s.Admits
      { opcode := 0x0F09, priv := true, len := fun _ => 4, fields := [(0, 17), (17, 12)], checks := fun pl => [(0, decide (fld pl 0 17 < 65888)), (17, decide (1 ≤ fld pl 17 12 ∧ fld pl 17 12 ≤ 4080 ∧ fld pl 0 17 + fld pl 17 12 ≤ 65888))] }
      mb pl →
    fld pl 0 17 ≠ 0 → s.mgmt.cal.snapshot = some x →
    Obeys (.calExport mb) s mb (s.begun mb) ((((s.begun mb).blob x.1 x.2).drop (fld pl 0 17)).take (fld pl 17 12))) ∧
  (∀ (s : State) (mb : Mb) (pl : Nat) (n : Nat), s.Admits
      { opcode := 0x0F0A, priv := true, len := fun _ => 9, fields := [(0, 17), (17, 1), (64, 8 * 4072)] } mb pl →
    n = (s.mbox mb).cmdHdr.length - 8 → s.mgmt.cal.writeCount < 1000 → fld pl 0 17 = s.mgmt.cal.importCount → bitOf pl 17 = false →
    Obeys (.calImport mb) s mb ((s.begun mb).modCal fun c =>
      { c with importBytes := cellsWrite c.importBytes c.importCount (bytesOf n (pl >>> 64)), importCount := c.importCount + n }) []) ∧
  (∀ (s t : State) (mb : Mb) (pl n : Nat) (b : List Byte), s.Admits { opcode := 0x0F0A, priv := true, len := fun _ => 9, fields := [(0, 17), (17, 1), (64, 8 * 4072)] } mb pl → n = (s.mbox mb).cmdHdr.length - 8 → s.mgmt.cal.writeCount < 1000 →
    fld pl 0 17 = s.mgmt.cal.importCount → bitOf pl 17 = true →
    b = cellsRead (cellsWrite s.mgmt.cal.importBytes s.mgmt.cal.importCount (bytesOf n (pl >>> 64))) 0 (s.mgmt.cal.importCount + n) →
    t = ((s.begun mb).modCal fun c => { c with importBytes := [], importCount := 0 }) →
    (s.blobOk b = true → Obeys (.calImport mb) s mb ((t.modCal fun c => c.import b).evCal 0x1F) []) ∧
    (s.blobOk b = false → exec (.calImport mb) s = .next (t.complete mb (s.mbox mb).cmdHdr stAuthFail 0 [])))

/-- R374, R375, R384, R9, R429: a doorbell submits the command in CMD, or sets COLLISION while BUSY is 1, and a command that no table gives is answered INVALID_OPCODE; the
W1C bits of STATUS clear, EVQ_HEAD takes a value that lies cyclically between head and tail, and clearing EVQ_OVERFLOW zeroes EVQ_LOST; FORCE_STOP records MANAGER_STOP
and stops the XM5120 with cause 3; a write to any other register changes nothing. -/
def Obligations.MailboxRegistersAct : Prop :=
  (∀ (s : State) (mb : Mb), (s.mbox mb).busy = true →
    exec (.doorbell mb) s = .next (s.setMbox mb { s.mbox mb with collision := true })) ∧
  (∀ (s : State) (mb : Mb), (s.mbox mb).busy = false →
    opcodeKnown (s.mbox mb).cmdHdr.opcode = true →
    exec (.doorbell mb) s = .next (s.setMbox mb { s.mbox mb with busy := true })) ∧
  (∀ (s : State) (mb : Mb) (m : Mailbox), m = s.mbox mb →
    m.busy = false → opcodeKnown m.cmdHdr.opcode = false → s.serves mb = true → m.cmdHdr.length ≤ 4080 → m.tokenOk m.cmdHdr.session = true →
    m.repeated m.cmdHdr = none →
    ∃ t : State, exec (.doorbell mb) s = .next t ∧ t = ((s.setMbox mb { m with busy := true }).renewLease mb m.cmdHdr.session).complete mb m.cmdHdr
      stInvalidOpcode 0 []) ∧
  (∀ (s : State) (mb : Mb) (off : BitVec 12) (v : BitVec 64), off = 0x000 →
    exec (.registerWrite (.mailbox mb) off v) s = .next (if v.getLsbD 0 then s.ring mb else s)) ∧
  (∀ (s : State) (mb : Mb) (off : BitVec 12) (v : BitVec 64) (m : Mailbox), off = 0x008 →
    m = s.mbox mb →
    exec (.registerWrite (.mailbox mb) off v) s = .next (s.setMbox mb
      { m with done := m.done && !v.getLsbD 1, evqOverflow := m.evqOverflow && !v.getLsbD 3, evqLost := if v.getLsbD 3 then 0 else m.evqLost, collision := m.collision && !v.getLsbD 5 })) ∧
  (∀ (s : State) (mb : Mb) (off : BitVec 12) (v : BitVec 64), off = 0x010 →
    exec (.registerWrite (.mailbox mb) off v) s = .next (s.setMbox mb ((s.mbox mb).setHead (v.setWidth 6)))) ∧
  (∀ (s : State) (mb : Mb) (off : BitVec 12) (v : BitVec 64), off ≠ 0x000 →
    off ≠ 0x008 → off ≠ 0x010 →
    exec (.registerWrite (.mailbox mb) off v) s = .next s) ∧
  (∀ (s : State) (off : BitVec 12) (v : BitVec 64), exec (.registerWrite .global off v) s = .next (if off = 0x018 ∧ v.getLsbD 4 then s.forceStop else s)) ∧
  (∀ (s : State) (mb : Mb) (v : BitVec 6) (m : Mailbox), m = s.mbox mb →
    exec (.evqHeadWrite mb v) s = .next (s.setMbox mb { m with evqHead := if v - m.evqHead ≤ m.evqTail - m.evqHead then v else m.evqHead })) ∧
  (∀ (s : State) (mb : Mb), exec (.evqOverflowClear mb) s = .next (s.setMbox mb { s.mbox mb with evqOverflow := false, evqLost := 0 })) ∧
  (∀ (s : State), s.collectorOn = true →
    exec .forceStop s = .next ((s.logError
      { source := 0xF00, error := 1, severity := svFatal, seconds := s.fabric.time.seconds.setWidth 32, ns := s.fabric.time.ns }).fatalStop 3))

/-- R390, R391, R397: with the booth controller running, a Block Write with a right PEC writes its bytes from its pointer on to the page of MB63, where the stage takes
writes; Write Word sets the pointer; Block Read returns 240 bytes at the pointer and advances it by 240; Send Byte rings MB63 and asks for a wake. A transaction with a
wrong PEC, or a block outside 1 to 240 bytes, is not acknowledged and changes nothing else. -/
def Obligations.SerialPortActs : Prop :=
  (∀ (s : State) (ptr : BitVec 16) (data : List Byte) (u : State), s.slots.restarting = false →
    s.serialWrites = true → 1 ≤ data.length → data.length ≤ 240 →
    (u = (data.foldl (fun (t : State × Nat) b => (if t.2 < 0x4000 then t.1.writePageByte 63 t.2 b else t.1, t.2 + 1)) (s, ptr.toNat)).1) →
    exec (.serialBlockWrite ptr data true) s = .next ({ u with mgmt := { u.mgmt with serialAck := true } })) ∧
  (∀ (s : State) (ptr : BitVec 16) (data : List Byte) (pecOk : Bool), (pecOk = false ∨ data = [] ∨ 240 < data.length ∨ s.slots.restarting = true) →
    exec (.serialBlockWrite ptr data pecOk) s = .next ({ s with mgmt := { s.mgmt with serialAck := false } })) ∧
  (∀ (s : State) (ptr : BitVec 16) (data : List Byte), s.slots.restarting = false →
    s.serialWrites = false → 1 ≤ data.length → data.length ≤ 240 →
    exec (.serialBlockWrite ptr data true) s = .next ({ s with mgmt := { s.mgmt with serialAck := true } })) ∧
  (∀ (s : State), s.slots.restarting = false →
    s.mgmt.stage ≠ stageFailed →
    ∃ t : State, exec (.serialSendByte true) s = .next t ∧ t = { (s.ring 63).wake 2 with mgmt := { ((s.ring 63).wake 2).mgmt with serialAck := true } }) ∧
  (∀ (s : State) (pecOk : Bool), (s.slots.restarting = true ∨ pecOk = false) →
    exec (.serialSendByte pecOk) s = .next ({ s with mgmt := { s.mgmt with serialAck := false } })) ∧
  (∀ (s : State) (ptr : BitVec 16), s.slots.restarting = false →
    exec (.serialWriteWord ptr true) s = .next ({ s with mgmt := { s.mgmt with serialPtr := ptr, serialAck := true } })) ∧
  (∀ (s : State) (ptr : BitVec 16) (pecOk : Bool), (s.slots.restarting = true ∨ pecOk = false) →
    exec (.serialWriteWord ptr pecOk) s = .next ({ s with mgmt := { s.mgmt with serialAck := false } })) ∧
  (∀ (s : State), s.slots.restarting = false →
    exec .serialBlockRead s = .next
      ({ s with mgmt := { s.mgmt with serialData := (List.range 240).map fun i => s.serialByte ((s.mgmt.serialPtr.toNat + i) % 65536), serialPtr := s.mgmt.serialPtr + 240, serialAck := true } }))

/-- R372, R389, R381: a read of a mailbox page that the path may use, in a form that is allowed, is answered with the bytes of the page, a write changes them, and an access
to another page is denied and counted; a REMOTE_MAILBOX request that may use an idle mailbox puts its envelope in CMD and rings the doorbell, and otherwise is answered
NOT_PERMITTED or BUSY; the end of a lease closes the session with cause 0. -/
def Obligations.PageAndRemoteFramesAct : Prop :=
  (∀ (s : State) (entry : Option PortNo) (f : Frame) (u : State) (n off : Nat), f.wellFormed = true →
    s.running = true → u = s.takeInbox 3 f → f.hdr.type = tyMemRead → pageAddr f.hdr.addr.toNat = .mailbox n off →
    (u.usable (u.framePath entry f)).contains n = true → accessOk off f.hdr.reqLen = true →
    exec (.mailboxFrameAccess entry f) s = .next (u.rmReply f.hdr csSuccess ((List.range f.hdr.reqLen).map fun i => u.pageByte n (off + i)))) ∧
  (∀ (s : State) (entry : Option PortNo) (f : Frame) (u : State) (n off : Nat), f.wellFormed = true →
    s.running = true → u = s.takeInbox 3 f → f.hdr.type = tyMemRead → pageAddr f.hdr.addr.toNat = .mailbox n off →
    (u.usable (u.framePath entry f)).contains n = false →
    exec (.mailboxFrameAccess entry f) s = .next (({ u with mgmt := { u.mgmt with accessDeny := inc48 u.mgmt.accessDeny } } : State).rmReply f.hdr csAbort
      [])) ∧
  (∀ (s : State) (entry : Option PortNo) (f : Frame) (u : State) (n off : Nat), f.wellFormed = true →
    s.running = true → u = s.takeInbox 3 f → f.hdr.type = tyMemWrite → f.hdr.poison = false → pageAddr f.hdr.addr.toNat = .mailbox n off →
    (u.usable (u.framePath entry f)).contains n = true → accessOk off f.hdr.length.toNat = true →
    exec (.mailboxFrameAccess entry f) s = .next (u.writePage n off f.payload)) ∧
  (∀ (s : State) (f : Frame) (u : State) (rh n : Nat), f.wellFormed = true →
    s.running = true → u = s.takeInbox 3 f → rh = natOf (f.payload.take 16) → n = fld rh 0 6 → fld rh 6 2 = 0 → 32 ≤ f.payload.length →
    f.hdr.poison = false → u.remoteOk f.hdr n = true → (u.mbox n).busy = false →
    exec (.remoteMailboxReceive f) s = .next ((u.modMbox n fun m =>
      { m with cmd := cellsWrite m.cmd 0 ((f.payload.drop 16).take 4096), remote := some ⟨f.hdr.src, fbv rh 32 32, f.hdr.part⟩, requesters := if f.hdr.src ∈ m.requesters then m.requesters else m.requesters ++ [f.hdr.src] }).ring
      n)) ∧
  (∀ (s : State) (f : Frame) (u : State) (rh n : Nat) (ev st : Nat), f.wellFormed = true →
    s.running = true → u = s.takeInbox 3 f → rh = natOf (f.payload.take 16) → n = fld rh 0 6 → ev = natOf ((f.payload.drop 16).take 16) →
    fld rh 6 2 = 0 → 32 ≤ f.payload.length → f.hdr.poison = false → (u.remoteOk f.hdr n = false ∨ (u.mbox n).busy = true) →
    st = (if u.remoteOk f.hdr n then stBusy else stNotPermitted) →
    exec (.remoteMailboxReceive f) s = .next (u.remoteFrame f.hdr.src f.hdr.part (remoteHeader n 1 (fbv rh 32 32) ++ respBytes
      { opcode := fld ev 0 16, tag := fbv ev 16 16, length := 0, dryRun := bitOf ev 48, reserved := false, session := 0 } st 0 []))) ∧
  (∀ (s : State) (mb : Mb) (x : Session), s.mgmt.available = true →
    (s.mbox mb).session = some x →
    exec (.sessionLeaseExpiry mb) s = .next ((s.modMbox mb fun m => { m with session := none }).raiseTo 0x0100 (packVals [(mb, 1), (0, 1)]) [(s.mbox
      mb).owner] fun k => k == mb.val || k == 0))

/-- R61, R65, R68, R54, R59, R62, R63: in DETECT an attempt acts on what it found; in TRAIN a valid control word changes the lane and may end TRAIN, an invalid one is
ignored, and the clock and TRAIN timeouts fail the attempt with 0x03 and 0x02; in LOCK markers with a wrong place or skew fail it with 0x07 and 0x06 and others deskew the
port, a locked port goes on to EXCHANGE or back to ACTIVE, and the timeout fails it with 0x0B, 0x05 or 0x04; LOSS_OF_SIGNAL fails it with 0x01. -/
def Obligations.TrainingEventsAct : Prop :=
  (∀ (s : State) (p : PortNo) (found : Detection), s.AtStage p .detect →
    (s.port p).waiting = false →
    exec (.detectAttempt p found) s = .next (s.detect p found)) ∧
  (∀ (s : State) (p : PortNo) (found : Detection), s.AtStage p .detect →
    (s.port p).waiting = true →
    exec (.trainFailWaitEnd p found) s = .next (s.detect p found)) ∧
  (∀ (s : State) (ln : LaneNo) (w : BitVec 128) (p : Nat), s.portOfLane ln = some p →
    s.AtStage p .train → (s.port p).pcie = false →
    exec (.trainingFrameReceive ln w) s = .next (if (crc16 0xFFFF w.toNat 112).toNat = fld w.toNat 112 16 then (s.modLane ln fun l => l.control
      w.toNat).trainDone p else s)) ∧
  (∀ (s : State) (p : PortNo), s.AtStage p .train →
    exec (.forwardedClockLockTimeout p) s = .next (s.attemptDown p 0x03)) ∧
  (∀ (s : State) (p : PortNo), s.AtStage p .train →
    exec (.trainTimeout p) s = .next (s.attemptDown p 0x02)) ∧
  (∀ (s : State) (ln : LaneNo) (p : Nat), s.portOfLane ln = some p →
    s.AtStage p .lock → (s.port p).pcie = false →
    exec (.fecLock ln) s = .next (s.modLane ln fun l => { l with fecLock := true })) ∧
  (∀ (s : State) (ln : LaneNo) (lip : BitVec 4) (a p : Nat), s.portOfLane ln = some p →
    s.AtStage p .lock → (s.port p).pcie = false →
    exec (.alignmentMarkerReceive ln lip a) s = .next (if lip.toNat / 4 ≠ ln.val / 4 - leadOf p then s.attemptDown p 0x07 else if s.skewOk p ln a then
      (s.modLane ln fun l => { l with lip := lip, marker := some a }).deskew p else s.attemptDown p 0x06)) ∧
  (∀ (s : State) (p : PortNo), s.AtStage p .lock →
    ((s.lanesOf p).all (fun n => (s.lane n).fecLock && (s.lane n).marker.isSome) = true) →
    exec (.lockComplete p) s = .next (if (s.port p).retrain = true ∧ (s.port p).fromExchange = false then s.returnActive p else s.enterExchange p)) ∧
  (∀ (s : State) (p : PortNo), s.AtStage p .lock →
    exec (.lockTimeout p) s = .next (s.attemptDown p (if (s.port p).clockLost then 0x0B else if (s.lanesOf p).any (fun n => (s.lane n).fecLock) then 0x05
      else 0x04))) ∧
  (∀ (s : State) (ln : LaneNo) (p : Nat) (g : Stage), s.portOfLane ln = some p →
    s.AtStage p g → (s.port p).pcie = false → (g = .train ∨ g = .lock ∨ g = .exchange) →
    exec (.lossOfSignal ln) s = .next (s.attemptDown p 0x01))

/-- R62, R58, R54, R63, R70, R71, R61, R73, R76, R81, R78: losses of FEC lock, deskew or clock retrain a port in EXCHANGE or ACTIVE, as does a retrain signal in ACTIVE; a
record is sent when due, and one received in EXCHANGE is taken or fails the attempt; a fast retrain ends in ACTIVE or in a full retrain; a PCIe-mode port comes up at L0
or goes back to training; the SER alarm compares the window with the threshold. -/
def Obligations.RetrainEventsAct : Prop :=
  (∀ (s : State) (ln : LaneNo) (p : Nat) (g : Stage), s.portOfLane ln = some p →
    s.AtStage p g → (s.port p).pcie = false → (g = .lock ∨ g = .exchange ∨ g = .active) →
    exec (.fecLockLoss ln) s = .next (if g = .lock then s.modLane ln fun l => { l with fecLock := false, cwUncorr := satAdd l.cwUncorr 4 } else (s.modLane
      ln fun l => { l with fecLock := false, cwUncorr := satAdd l.cwUncorr 4 }).retrain p rsPhy)) ∧
  (∀ (s : State) (ln : LaneNo) (p : Nat) (g : Stage), s.portOfLane ln = some p →
    s.AtStage p g → (s.port p).pcie = false → (g = .exchange ∨ g = .active) →
    exec (.deskewLoss ln) s = .next (s.retrain p rsPhy)) ∧
  (∀ (s : State) (q : QuadNo) (p : Nat) (g : Stage), s.mainPortOfQuad q = some p →
    s.AtStage p g → (s.port p).pcie = false → (g = .exchange ∨ g = .active ∨ g = .lock) →
    exec (.clockLaneLoss q) s = .next (if g = .lock then (s.report (laneSource q) 0x02 0).modPort p fun x => { x with clockLost := true } else (s.report
      (laneSource q) 0x02 0).retrain p rsPhy)) ∧
  (∀ (s : State) (p : PortNo), s.AtStage p .active →
    exec (.retrainSignalReceive p) s = .next (s.retrain p rsPhy)) ∧
  (∀ (s : State) (p : PortNo) (g : Stage), s.AtStage p g →
    (g = .exchange ∨ (g = .active ∧ (s.link p).sawOther = false)) →
    exec (.exchangeRecordSend p) s = .next (s.modLink p fun l => { l with recordDue := true })) ∧
  (∀ (s : State) (p : PortNo) (pl : BlockPayload) (r : ExchangeRec), s.AtStage p .exchange →
    r = ExchangeRec.ofPayload pl →
    exec (.exchangeBlockReceive p pl) s = .next (if s.incompatible p r then s.attemptDown p 0x09 else if r.uid = s.part.nodeUid ∧ r.portNum.toNat = leadOf
      p then s.attemptDown p 0x0A else (s.modLink p fun l => { l with peer := some r }).tryActive p)) ∧
  (∀ (s : State) (p : PortNo), s.AtStage p .exchange →
    exec (.exchangeTimeout p) s = .next (s.attemptDown p 0x08)) ∧
  (∀ (s : State) (ln : LaneNo) (above : Bool), s.running = true →
    above = decide ((s.lane ln).threshold ≠ 0 ∧ (s.lane ln).threshold < (s.lane ln).window) →
    exec (.serAlarmWindow ln) s = .next (if above && !(s.lane ln).alarm then ((s.modLane ln fun l => { l with window := 0, alarm := above }).raise 0x0201
      [(ln, 2)] (((s.portOfLane ln).toList).map s.portOwner)).report (laneSource (ln / 4)) 0x01 (BitVec.ofNat 64 ln) else s.modLane ln fun l =>
      { l with window := 0, alarm := above })) ∧
  (∀ (s : State) (p : PortNo), s.AtStage p .sleep →
    (s.port p).waking = true →
    exec (.fastRetrainTimeout p) s = .next (s.retrain p rsPhy)) ∧
  (∀ (s : State) (p : PortNo), s.AtStage p .sleep →
    (s.port p).waking = true →
    exec (.fastRetrainComplete p) s = .next ((s.modPort p fun x => { x with stage := .active, waking := false }).modLink p fun l =>
      { l with timerOn := !l.u.isEmpty })) ∧
  (∀ (s : State) (ln : LaneNo) (errs : List Nat) (a : Lane × Nat), s.running = true →
    (s.lane ln).chkEn = true → ((errs.all fun n => decide (n ≤ 2)) = true) →
    (a = errs.foldl (fun (a : Lane × Nat) n => (a.1.prbsSymbol n, if a.1.prbsSync then a.2 + n else a.2)) (s.lane ln, 0)) →
    exec (.prbsCheck ln errs) s = .next ((s.modLane ln fun l => errs.foldl Lane.prbsSymbol l).pmon (ln / 4) 0x043 (ln % 4) a.2)) ∧
  (∀ (s : State) (p : PortNo) (training : Bool) (ltssm : BitVec 6) (g : Stage), s.AtStage p g →
    (s.port p).pcie = true → (g = .pcieTraining ∨ g = .pcieL0 ∨ g = .pcieL1) →
    exec (.pcieLinkDown p training ltssm) s = .next ((s.modPort p fun x =>
      { x with ltssm := ltssm, hotReset := false, lastFail := if training then 0x0C else x.lastFail }).goDown p .pcieTraining rsPhy (if training then
      0x0C else 0))) ∧
  (∀ (s : State) (p : PortNo) (width : BitVec 5) (rate : BitVec 3) (ltssm : BitVec 6) (host : Bool), s.AtStage p .pcieTraining → (s.port p).pcie = true →
    s.storeCells p = 0 → width.toNat ∈ [1, 2, 4, 8, 16] → rate.toNat ≤ 5 →
    exec (.pcieLinkUp p width rate ltssm host) s = .next (((s.partnerChange p fun s => s.pcieUp p width rate ltssm host).resetWoken p).checkLapses))

/-- R110, R117, R112, R101, R90, R91, R104, R105, R114, R471: in ACTIVE a received block of a type that R89 gives has its header used and then its payload; a bad block is
counted and reported and nothing of it used, and one of a reserved type is counted; a block slot sends the next block in the order of R110; SYNC and credit returns fall
due. A block whose type field is another is refused as ill-formed. -/
def Obligations.BlockEventsAct : Prop :=
  (∀ (s : State) (p : PortNo) (g : Stage), s.AtStage p g →
    (g = .exchange ∨ g = .active) →
    exec (.transmitBlockSlot p) s = .next (s.slot p)) ∧
  (∀ (s : State) (p : PortNo), s.AtStage p .active →
    exec (.syncSend p) s = .next (s.modLink p fun l => { l with syncDue := l.syncDue || l.syncing })) ∧
  (∀ (s : State) (p : PortNo), s.AtStage p .active →
    exec (.creditReturnDue p) s = .next (s.modLink p fun l => { l with creditDue := l.creditDue || !l.pendOrder.isEmpty })) ∧
  (∀ (s : State) (p : PortNo) (h : BitVec 64) (pl : BlockPayload), s.AtStage p .active →
    h.toNat % 16 = 1 →
    exec (.dataBlockReceive p h pl) s = .next (s.goodBlock p h true fun t => t.dataIn p ⟨bhSeq h, bhVc h, bhFirst h, bhLast h, pl⟩)) ∧
  (∀ (s : State) (p : PortNo) (g : Stage), s.AtStage p g →
    (g = .exchange ∨ g = .active) →
    exec (.badBlockReceive p) s = .next (((s.countLink p fun c => { c with rxBad := inc48 c.rxBad }).pmon (leadOf p) 0x065 0 1).linkError p 0x01 0 0)) ∧
  (∀ (s : State) (p : PortNo) (h : BitVec 64), s.AtStage p .active →
    h.toNat % 16 = 0 →
    exec (.idleBlockReceive p h) s = .next (s.goodBlock p h false id)) ∧
  (∀ (s : State) (p : PortNo) (h : BitVec 64) (pl : BlockPayload), s.AtStage p .active →
    h.toNat % 16 = 2 →
    exec (.nakBlockReceive p h pl) s = .next (s.goodBlock p h false fun t => t.nakIn p pl)) ∧
  (∀ (s : State) (p : PortNo) (h : BitVec 64) (pl : BlockPayload), s.AtStage p .active →
    h.toNat % 16 = 3 →
    exec (.creditBlockReceive p h pl) s = .next (s.goodBlock p h false fun t => t.creditBlockIn p pl)) ∧
  (∀ (s : State) (p : PortNo) (h : BitVec 64) (pl : BlockPayload), s.AtStage p .active →
    h.toNat % 16 = 5 →
    exec (.powerBlockReceive p h pl) s = .next (s.goodBlock p h false fun t => t.powerOp p (fld pl.toNat 0 8))) ∧
  (∀ (s : State) (p : PortNo) (h : BitVec 64) (g : Stage), s.AtStage p g →
    (g = .exchange ∨ g = .active) → 6 ≤ h.toNat % 16 →
    exec (.reservedTypeBlockReceive p h) s = .next (s.countLink p fun c => { c with rxRsvType := inc48 c.rxRsvType }))

/-- R106, R117, R97, R123, R121, R137, R471, R473: the replay timer sends the oldest block of U again; a first SYNC timeout retrains and a second one in a row takes the link
down, as does a first-block timeout; the end of a hold-off may complete link-up; an outstanding request that expires is removed and counted; the Quad Sleep events change
the handshake of a port. -/
def Obligations.LinkTimersAct : Prop :=
  (∀ (s : State) (p : PortNo) (b : TxData) (l : List TxData), s.AtStage p .active →
    (s.link p).timerOn = true → (s.link p).u = b :: l →
    exec (.replayTimerExpiry p) s = .next ((s.pmon (leadOf p) 0x069 0 1).requeue p b.seq .timer)) ∧
  (∀ (s : State) (p : PortNo), s.AtStage p .active →
    (s.link p).awaitSync = true →
    exec (.syncTimeout p) s = .next (if (s.link p).syncTimeouts = 0 then (s.modLink p fun l => { l with syncTimeouts := 1 }).retrain p rsSyncTimeout else
      s.goDown p .detect rsSyncTimeout 0)) ∧
  (∀ (s : State) (p : PortNo), s.AtStage p .active →
    (s.link p).sawOther = false →
    exec (.firstBlockTimeout p) s = .next (s.goDown p .detect rsProtocol 0)) ∧
  (∀ (s : State) (p : PortNo) (g : Stage), s.AtStage p g →
    exec (.linkUpHoldoffEnd p) s = .next ((s.modPort p fun x => { x with holdOff := false }).tryActive p)) ∧
  (∀ (s : State) (p : PortNo) (req : Geid) (tag : BitVec 12) (g : Stage) (o : OutReq), s.AtStage p g →
    ((s.link p).outReqs.find? (fun o => decide (o.requester = req ∧ o.tag = tag)) = some o) →
    exec (.npExpiry p req tag) s = .next (((s.instFall p req tag).modLink p fun l => { l with outReqs := l.outReqs.erase o }).countLink p fun c =>
      { c with npExpired := inc48 c.npExpired })) ∧
  (∀ (s : State) (p : PortNo), s.AtStage p .active →
    (s.port p).pcie = false → (s.link p).sleep.idleUs ≠ 0 →
    exec (.idleSleepTimeout p) s = .next (s.modLink p Link.sleepRequest)) ∧
  (∀ (s : State) (p : PortNo), s.AtStage p .active →
    ((s.link p).sleep.reqSent || (s.link p).sleep.ackSent) = true → (s.link p).sleep.goRcvd = false →
    exec (.sleepAnswerTimeout p) s = .next (s.modLink p fun l => { l with sleep := { l.sleep.resume with abandoned := inc48 l.sleep.abandoned } })) ∧
  (∀ (s : State) (p : PortNo) (g : Stage), s.AtStage p g →
    exec (.sleepNakBackoffEnd p) s = .next (s.modLink p fun l => { l with sleep := { l.sleep with backoff := false } })) ∧
  (∀ (s : State) (p : PortNo), s.AtStage p .sleep →
    (s.port p).pcie = false →
    exec (.wakePulseDetect p) s = .next (s.modPort p fun x => { x with waking := true })) ∧
  (∀ (s : State) (p : PortNo) (g : Stage), s.AtStage p g →
    (s.port p).pcie = false →
    exec (.sleepWake p) s = .next (if g = .sleep then s.modPort p fun x => { x with waking := true } else if (s.link p).sleep.goSent then s.modLink p fun
      l => { l with sleep := { l.sleep with wakePending := true } } else s))

/-- R136, R137, R140, R26, R152, R145, R146, R147, R148: a completion for a requester of this switch acts on its request; a tag whose limit has passed ends with a TIMEOUT
completion, is counted and freed; an epoch that has drained raises EV_EPOCH_DRAINED; a topology change commits routes outside managed mode; a LINK_STATE record of a new
switch, or newer than the one held, is held and forwarded, one no newer is dropped, and one that ages out is a topology change. -/
def Obligations.FabricEventsAct : Prop :=
  (∀ (s : State) (f : Frame), f.wellFormed = true →
    s.running = true → f.hdr.kind = .completion → f.hdr.dst.toNat / 256 = s.fabric.switchId.toNat →
    exec (.completionReceive f) s = .next (s.completion f)) ∧
  (∀ (s : State) (g : Geid) (tag : BitVec 12) (u : TagUse), s.tagUse g tag = some u →
    s.running = true → g.toNat % 256 ≠ 3 →
    exec (.completionTimeout g tag) s = .next (((s.countFab (s.requesterPu g tag) fun c => { c with cplTimeout := inc48 c.cplTimeout }).completion
      { hdr := { dst := g, src := u.dst, type := tyCompletion, cls := u.cls, tag := tag, part := u.partition, status := csTimeout } }).setTag g tag
      none)) ∧
  (∀ (s : State) (g : Geid) (tag : BitVec 12) (u : TagUse), s.tagUse g tag = some u →
    s.running = true → g.toNat % 256 = 3 →
    exec (.completionTimeout g tag) s = .next (((s.countFab (tag.toNat / 32) fun c => { c with cplTimeout := inc48 c.cplTimeout }).moverTimeout
      tag).setTag g tag none)) ∧
  (∀ (s : State) (src : SrcNo) (vc : VcNo), s.running = true →
    exec (.frameLookup src vc) s = .next (s.lookupNext src vc)) ∧
  (∀ (s : State) (q : PuNo), s.running = true →
    exec (.commitInEffect q) s = .next (s.modFab fun f => { f with stale := Tab.put none f.stale q none })) ∧
  (∀ (s : State) (k : TableKind) (e : BitVec 2), s.firmwareRuns = true →
    (k, e) ∈ s.fabric.waits → s.epochFrames k e = 0 →
    exec (.epochDrained k e) s = .next ((s.modFab fun f => { f with waits := f.waits.filter fun w => decide (w ≠ (k, e)) }).raise 0x0402 [(k.code, 1),
      (e.toNat, 1)] [])) ∧
  (∀ (s : State), s.firmwareRuns = true →
    s.fabric.topoPending = true →
    exec .routeComputation s = .next (if s.fabric.managed then s.modFab fun f => { f with topoPending := false } else s.commitRoutes)) ∧
  (∀ (s : State), s.firmwareRuns = true →
    s.fabric.commitRetry = true → s.fabric.managed = false →
    exec .routeCommitRetry s = .next (s.commitRoutes)) ∧
  (∀ (s : State) (u : State), s.firmwareRuns = true →
    s.fabric.managed = false → (u = s.modFab (fun f => { f with ownLinkSeq := f.ownLinkSeq + 1 })) →
    exec .linkStateSend s = .next (u.each u.fabricPorts fun t p => t.sendLocal p 1 (Config.linkStateBytes u.ownRecordLs))) ∧
  (∀ (s : State) (p : PortNo) (r : LinkStateRec) (u : State), r.nbrs.length ≤ 128 →
    s.firmwareRuns = true → u = s.takeLocal p 1 → s.fabricPorts.contains p = true → r.sw ≠ u.fabric.switchId →
    Tab.get none u.fabric.links r.sw.toNat = none →
    exec (.linkStateReceive p r) s = .next (((u.setLinkRec r.sw.toNat (some { record := r })).forwardRecord p r).topologyChange)) ∧
  (∀ (s : State) (p : PortNo) (r : LinkStateRec) (u : State) (h : LinkRec), r.nbrs.length ≤ 128 →
    s.firmwareRuns = true → u = s.takeLocal p 1 → s.fabricPorts.contains p = true → r.sw ≠ u.fabric.switchId →
    Tab.get none u.fabric.links r.sw.toNat = some h → h.record.uid = r.uid →
    exec (.linkStateReceive p r) s = .next (if r.seq ≤ h.record.seq then u else if h.record.nbrs = r.nbrs then (u.setLinkRec r.sw.toNat (some
      { h with record := r })).forwardRecord p r else ((u.setLinkRec r.sw.toNat (some { h with record := r })).forwardRecord p r).topologyChange)) ∧
  (∀ (s : State) (sw : BitVec 12), s.firmwareRuns = true →
    (Tab.get none s.fabric.links sw.toNat).isSome = true →
    exec (.linkStateAgeOut sw) s = .next ((s.setLinkRec sw.toNat none).topologyChange))

/-- R162, R163, R164, R476: a time message from an up native port adds its delay and offer and may change the source, and one from the source steers fabric time by its error
and sets the state by that error; a PPS_IN edge steers the time of a grandmaster with PPS_IN enabled to the second it marks; PPS_OUT rises at each whole second; a time
exchange sends the present time. -/
def Obligations.TimeEventsAct : Prop :=
  (∀ (s : State) (p : PortNo), s.firmwareRuns = true →
    (s.port p).pcie = false → (s.port p).linkUp = true →
    exec (.timeSyncExchange p) s = .next (s.sendLocal p 2 (Config.timeBytes s.fabNs))) ∧
  (∀ (s : State) (p : PortNo) (m : TimeMsg) (u v : State) (err : Int), s.firmwareRuns = true →
    u = s.takeLocal p 2 → (u.port p).pcie = false → (u.port p).linkUp = true →
    (v = (u.modTime fun t =>
      { t with delays := Tab.mod [] t.delays p fun l => (((m.t4 - m.t1) - (m.t3 - m.t2)) / 2 :: l).take 16, offers := Tab.put none t.offers p (some (m.gmPrio, m.gmId, m.hops)) }).chooseSource)
      →
    err = (m.timeNs : Int) * 1000 + (mean (Tab.get [] v.fabric.time.delays p) - Tab.get 0 v.fabric.time.asym p) - (v.fabNs : Int) * 1000 →
    exec (.timeMessageReceive p m) s = .next (if v.fabric.time.source = some p.val then ((v.steer err).passSnapshot v.fabNs).setTimeState (timeStateAfter
      v.fabric.time.state err) else v)) ∧
  (∀ (s : State) (u : State) (err : Int), u = s.wake 3 →
    u.running = true → u.fabric.time.ppsInEn = true → u.isGm = true →
    (err = (((u.fabric.time.presetSec.map fun n => n.toNat * 1000000000).getD ((u.fabNs + 500000000) / 1000000000 * 1000000000) : Nat) - (u.fabNs : Int))
      * 1000) →
    exec .ppsInEdge s = .next ((((u.modTime fun t => { t with presetSec := none }).steer err).passSnapshot u.fabNs).setTimeState (timeStateAfter
      u.fabric.time.state err))) ∧
  (∀ (s : State) (u : State), u = s.wake 3 →
    (u.running && u.fabric.time.ppsInEn && u.isGm) = false →
    exec .ppsInEdge s = .next (u)) ∧
  (∀ (s : State), s.running = true →
    exec .ppsOutSecond s = .next (s.modFab fun f => { f with time := { f.time with ppsOut := true } }))

/-- R174, R259, R170, R171, R176, R169, R183, R188, R192, R193, R194, R23: a looked-up frame that is whole and has room in its VOQ and in its instance's share joins the VOQ,
and one that has none waits, counted once; each slot advances the 128 inputs or middle buffers in order; a period takes the new shares, ages draining buffers and opens
outputs; a cell at an output counts as an arrival and is dropped where its port or quad is out; gaps that are old enough are skipped; a drained buffer is skipped, and a
skipped one whose cause is gone serves again. -/
def Obligations.CarouselEventsAct : Prop :=
  (∀ (s : State) (src : SrcNo) (vc : VcNo) (uid : Nat) (l : List Nat) (r : FrameRec), s.waitingAt src.val vc.val = uid :: l →
    s.frame? uid = some r → s.running = true → r.place = .lookedUp → r.whole = true → s.instRoom r = false →
    exec (.voqAdmit src vc) s = .next (if r.instWaited then s else (s.countPart (puOf src.val) fun c =>
      { c with instWaits := inc48 c.instWaits }).setFrame uid (some { r with instWaited := true }))) ∧
  (∀ (s : State) (src : SrcNo) (vc : VcNo) (uid : Nat) (l : List Nat) (r : FrameRec), s.waitingAt src.val vc.val = uid :: l →
    s.frame? uid = some r → s.running = true → r.place = .lookedUp → r.whole = true → s.instRoom r = true → s.voqRoom r = false →
    exec (.voqAdmit src vc) s = .next (if r.waited then s else (s.countCar (puOf src.val) fun c => { c with voqWaits := inc48 c.voqWaits }).setFrame uid
      (some { r with waited := true }))) ∧
  (∀ (s : State) (src : SrcNo) (vc : VcNo) (uid : Nat) (l : List Nat) (r : FrameRec) (t0 u : State), s.waitingAt src.val vc.val = uid :: l →
    s.frame? uid = some r → s.running = true → r.place = .lookedUp → r.whole = true → s.instRoom r = true → s.voqRoom r = true →
    t0 = (s.pmon (puOf src.val) 0x108 r.frame.hdr.vc 1).pmon (puOf src.val) 0x109 r.frame.hdr.vc r.frame.blocks →
    (u = ((t0.modWaiting src.val vc.val (·.erase uid)).setFrame uid (some { r with place := .admitted })).modVoq r.flow fun v =>
      { v with frames := v.frames ++ [uid] }) →
    exec (.voqAdmit src vc) s = .next (if 256 ≤ src.val then u else u.modCar fun c =>
      { c with hwm := Tab.mod {} c.hwm src.val fun h => { h with voq := modAt h.voq r.frame.hdr.vc (max (u.cellsLeft (u.voq r.flow).frames)) } })) ∧
  (∀ (s : State), s.running = true →
    exec .firstStageSlot s = .next ((s.pmonSlot.each (List.range 128) State.inputSlot).modCar fun c =>
      { c with slot := (c.slot + 1) % 128, slots := c.slots + 1 })) ∧
  (∀ (s : State), s.running = true →
    exec .secondStageSlot s = .next (s.each (List.range 128) State.midSlot)) ∧
  (∀ (s : State) (u : State), s.running = true →
    (u = s.pmon 0x90 0x145 0 ((s.car.mids.map fun e => (e.2.queues.map fun q => q.2.length).sum).sum)) →
    exec .periodStart s = .next ((u.modCar fun c =>
      { c with slot := 0, period := c.period + 1, shares := c.sharesPending.getD c.shares, sharesPending := none, mids := Tab.mapAll {} c.mids fun b => if b.state = .draining then { b with drained := b.drained + 1 } else b }).openOutputs)) ∧
  (∀ (s : State) (o : PuNo), s.running = true →
    Tab.get [] s.car.arrivals o.val = [] →
    exec (.outputCellArrival o) s = .next s) ∧
  (∀ (s : State) (o : PuNo) (c : Cell) (rest : List Cell) (u v : State), s.running = true →
    Tab.get [] s.car.arrivals o.val = c :: rest →
    (u = (s.modCar fun x => { x with arrivals := Tab.put [] x.arrivals o.val rest }).countCar o.val fun x => x.arrived c.state) →
    (v = if c.first then u.modFrame c.uid fun r => { r with firstAt := some o.val } else u) → v.puRuns o.val = false →
    exec (.outputCellArrival o) s = .next (v.dropCell c o.val .fenced)) ∧
  (∀ (s : State) (o : PuNo) (c : Cell) (rest : List Cell) (u v : State) (p : Nat), s.running = true →
    Tab.get [] s.car.arrivals o.val = c :: rest →
    (u = (s.modCar fun x => { x with arrivals := Tab.put [] x.arrivals o.val rest }).countCar o.val fun x => x.arrived c.state) →
    (v = if c.first then u.modFrame c.uid fun r => { r with firstAt := some o.val } else u) → v.puRuns o.val = true → c.egress ≤ 1 →
    v.outPort o.val c.egress = some p →
    exec (.outputCellArrival o) s = .next (if v.up p = false ∨ Tab.get false v.power.quadOn o.val = false ∨ c.state = 3 ∨ c.inc ≠ (v.link p).inc then
      v.dropCell c o.val .linkDown else (v.reseqCell (flowKey c.src (8 * leadOf p + p % 2) c.vc) o.val (leadOf p) (some p) c).markPool p)) ∧
  (∀ (s : State) (p : PortNo) (src : SrcNo) (vc : VcNo), s.running = true →
    exec (.reseqGapSkip p src vc) s = .next (([8 * leadOf p.val + p.val % 2] ++ ([2, 3, 4, 5] : List Nat).flatMap fun c => (s.quadsOf p.val).map fun q =>
      8 * q + c).foldl (fun t ekey => t.skipGap (flowKey src.val ekey vc.val) (leadOf p.val) (leadOf p.val)) s)) ∧
  (∀ (s : State) (m : MidNo), s.running = true →
    (s.mid m.val).state = .draining → ((s.mid m.val).queues = [] ∨ 16 ≤ (s.mid m.val).drained) →
    exec (.middleBufferDrainEnd m) s = .next (s.modMid m.val fun b =>
      { b with state := if b.forOff then .skippedOff else .skippedFenced, queues := [], recent := [], drained := 0 })) ∧
  (∀ (s : State) (m : MidNo), s.running = true →
    ((s.mid m.val).state = .skippedFenced ∨ (s.mid m.val).state = .skippedOff) → midHeld s.out m.val = false →
    s.ringIsOff (ringOf m.val) = false →
    exec (.middleBufferReturn m) s = .next (s.modMid m.val fun b =>
      { b with state := .inService, queues := [], recent := [], drained := 0, forOff := false, bad := false })) ∧
  (∀ (s : State) (q : PuNo) (srcs : List Nat) (u : State), srcs = (256 + q.val) :: s.portsOfQuad q.val →
    (u = s.each (s.framesWith fun r => srcs.contains r.src && decide (r.place = .carousel)) (fun t uid => (t.frame? uid).elim t fun r => t.loseFrame uid
      r.egress.pu)) →
    q.val ∈ s.faults.cleanup →
    exec (.fencedInputCleanup q) s = .next ((u.modCar fun c => { c with reseqs := c.reseqs.filter fun e => !srcs.contains (flowSrc e.1) }).modFaults fun f
      => { f with cleanup := f.cleanup.filter fun x => decide (x ≠ q.val) }))

/-- R202, R203, R208, R217, R218, R219, R222, R224, R245: a frame boundary sends the merge queue's head, or the frame the gates, shapers and priorities choose, or nothing; a
refill refills every bucket and serves the penalty queues; a frame waiting for a full penalty queue joins it once it has room; a gate entry ends and the next opens; a new
gate list starts; a held frame whose time has passed is counted and released. -/
def Obligations.SchedulerEventsAct : Prop :=
  (∀ (s : State) (p : PortNo) (fc : BitVec 3) (x : Nat × FrameRec), s.running = true →
    s.atBoundary p.val = true → (s.sweepQueues p.val).mqHead p.val = some x →
    exec (.egressFrameBoundary p fc) s = .next ((s.sweepQueues p.val).send p.val x.1 x.2)) ∧
  (∀ (s : State) (p : PortNo) (fc : BitVec 3) (u : State), s.running = true →
    s.atBoundary p.val = true → (s.sweepQueues p.val).mqHead p.val = none → u = (s.sweepQueues p.val).countShaperWaits p.val →
    (u.schedOf p.val).portPeak.peakOk = true →
    exec (.egressFrameBoundary p fc) s = .next (u.boundaryChoice p.val fc)) ∧
  (∀ (s : State) (p : PortNo) (fc : BitVec 3) (u : State), s.running = true →
    s.atBoundary p.val = true → (s.sweepQueues p.val).mqHead p.val = none → u = (s.sweepQueues p.val).countShaperWaits p.val →
    (u.schedOf p.val).portPeak.peakOk = false →
    exec (.egressFrameBoundary p fc) s = .next (if (List.range 9).any (fun k => !((u.schedOf p.val).queue k).frames.isEmpty) then u.modSched p.val fun x
      => { x with portShaperWaits := inc48 x.portShaperWaits } else u)) ∧
  (∀ (s : State) (g : EgressQueue → EgressQueue) (u : State), (g = fun x => { x with committed := x.committed.refill, peak := x.peak.refill }) →
    (u =
      { s with sched := { s.sched with ports := Tab.mapAll {} s.sched.ports (fun x => { x with queues := (x.queues.map fun e => (e.1, g e.2)).filter fun e => decide (e.2 ≠ queueDefault e.1), portPeak := x.portPeak.refill }), meters := Tab.mapAll {} s.sched.meters Meter.refill } })
      →
    s.running = true →
    exec .bucketRefill s = .next (u.each (u.sched.penalty.map Prod.fst) fun t k => (t.expirePenalty k).servePenalty k (((t.expirePenalty k).penalty
      k).frames.length + 1))) ∧
  (∀ (s : State) (src : SrcNo) (vc : VcNo) (uid : Nat) (l : List Nat) (r : FrameRec), s.waitingAt src.val vc.val = uid :: l →
    s.frame? uid = some r → s.running = true → r.place = .penaltyFull → (s.penalty r.endPu).full = false →
    exec (.penaltyQueueAdmit src vc) s = .next (s.joinPenalty uid r.endPu)) ∧
  (∀ (s : State) (src : SrcNo) (vc : VcNo) (uid : Nat) (l : List Nat) (r : FrameRec), s.waitingAt src.val vc.val = uid :: l →
    s.frame? uid = some r → s.running = true → r.place = .penaltyFull → (s.penalty r.endPu).full = true →
    exec (.penaltyQueueAdmit src vc) s = .next s) ∧
  (∀ (s : State) (p : PortNo) (g : GateList), s.running = true →
    (s.schedOf p.val).gate = some g →
    exec (.gateEntryChange p) s = .next (s.modSched p.val fun x =>
      { x with gateEntry := (g.next x.gateEntry x.gateCycles).1, gateCycles := (g.next x.gateEntry x.gateCycles).2 })) ∧
  (∀ (s : State) (p : PortNo) (g : PendingGate), s.running = true →
    (s.schedOf p.val).gatePending = some g →
    exec (.gateListStart p) s = .next ((s.modSched p.val fun x => { x with gate := g.list, gatePending := none, gateEntry := 0, gateCycles := 0 }).raise
      0x0601 [(p.val, 1), (g.start / 1000000000, 6), (g.start % 1000000000, 4)] [s.portOwner p.val])) ∧
  (∀ (s : State) (p : PortNo) (uid : Nat), s.running = true →
    uid ∈ Tab.get [] s.parts.held p.val →
    exec (.orderHoldRelease p uid) s = .next ((s.countPart (leadOf p.val) fun c => { c with orderTimeout := inc48 c.orderTimeout }).unhold p.val uid))

/-- R279, R154, R288, R289, R292, R140, R263, R264, R265, R266: a Juggler takes the first kind of work in the fixed order that has any; a doorbell of the ring's owner moves
TAIL unless a later one has been applied, and any other is denied and counted; a completion that ends no request of the mover is counted; an instance with nothing
outstanding is QUIESCED; one whose endpoint clears RESET_REQ ends its reset, after a forced reset only once the lifetime limit has passed too; one whose endpoint does not
in time is FAILED. -/
def Obligations.JugglerAndInstanceEventsAct : Prop :=
  (∀ (s : State) (j : JugglerNo) (u : State), s.running = true →
    s.jugglerOk j.val = true → u = s.retryEnds (j.val / 4) →
    exec (.jugglerStep j) s = .next ((((u.stepSynth j.val).map fun t => t.countStep j.val 1).orElse fun _ => ((u.stepAer j.val).map fun t => t.countStep
      j.val 2).orElse fun _ => ((u.stepBridge j.val).map fun t => t.countStep j.val 3).orElse fun _ => ((u.stepConfig j.val).map fun t => t.countStep
      j.val 4).orElse fun _ => (u.stepMover j.val).map fun t => t.countStep j.val 5).getD u)) ∧
  (∀ (s : State) (f : Frame) (r : MoverRing), f.wellFormed = true →
    s.running = true → f.hdr.kind ≠ .completion → s.inboxFrame 2 f = none → s.moverRing (f.hdr.addr.toNat / 8) = some r →
    f.hdr.type = tyMemWrite → f.hdr.addr.toNat % 8 = 0 → f.hdr.length = 4 → f.hdr.part = s.ringOwner r → r.state ≠ .disabled →
    natOf f.payload % 32768 < 2 ^ r.n → f.hdr.poison = false → r.doorbell ≤ s.car.lookups →
    exec (.moverDoorbell f) s = .next (s.modMover (f.hdr.addr.toNat / 8) fun r => { r with tail := natOf f.payload % 32768, doorbell := s.car.lookups })) ∧
  (∀ (s : State) (f : Frame), f.wellFormed = true →
    s.running = true → f.hdr.kind ≠ .completion → s.inboxFrame 2 f = none → s.moverRing (f.hdr.addr.toNat / 8) = none →
    exec (.moverDoorbell f) s = .next (s.modJug fun x => { x with moverDbDeny := inc48 x.moverDbDeny })) ∧
  (∀ (s : State) (f : Frame), f.wellFormed = true →
    s.running = true → f.hdr.kind = .completion → s.inboxFrame 2 f = none → s.tagUse (s.geid 3) f.hdr.tag = none →
    exec (.moverCompletionReceive f) s = .next (s.countFab (f.hdr.tag.toNat / 32) fun c => { c with unexpectedCpl := inc48 c.unexpectedCpl })) ∧
  (∀ (s : State) (f : Frame) (u : TagUse) (t : MoverTag), f.wellFormed = true →
    s.running = true → f.hdr.kind = .completion → s.inboxFrame 2 f = none → s.tagUse (s.geid 3) f.hdr.tag = some u →
    Tab.get none (s.juggler (f.hdr.tag.toNat / 8)).tags (f.hdr.tag.toNat % 8) = some t → u.dst = f.hdr.src → endsRequest f = false →
    exec (.moverCompletionReceive f) s = .next (s.modJuggler (f.hdr.tag.toNat / 8) fun x =>
      { x with tags := Tab.put none x.tags (f.hdr.tag.toNat % 8) (some { t with data := t.data ++ f.payload, poison := t.poison || f.hdr.poison }) })) ∧
  (∀ (s : State) (p : PortNo) (id : BitVec 8) (q late : Bool) (r : InstRec), s.firmwareRuns = true →
    s.policy.instAt p.val id.toNat = some r → (s.instRun p.val id.toNat).state = .quiescing →
    exec (.quiesceCheck p id q late) s = .next (if s.quiet p.val id.toNat q then (s.modInst p.val id.toNat fun x => { x with state := .quiesced }).evInst
      p.val id.toNat 1 else if late then s.evInst p.val id.toNat 6 else s)) ∧
  (∀ (s : State) (p : PortNo) (id : BitVec 8) (r : InstRec) (x : InstRun) (u : State), s.firmwareRuns = true →
    s.policy.instAt p.val id.toNat = some r → x = s.instRun p.val id.toNat → x.state = .resetting → x.icb.resetReq = true → x.gone = false →
    x.reqCleared = false →
    (u = (s.modInst p.val id.toNat fun y =>
      { y with reqCleared := true, aborted := [], icb := { y.icb with resetReq := false, quiesceReq := false } }).modLink p.val fun l =>
      { l with outReqs := l.outReqs.filter fun o => !x.aborted.contains (o.requester, o.tag) }) →
    exec (.resetReqCleared p id) s = .next (if x.forced ∧ x.lifePassed = false then u else u.endReset p.val id.toNat)) ∧
  (∀ (s : State) (p : PortNo) (id : BitVec 8) (r : InstRec) (x : InstRun), s.firmwareRuns = true →
    s.policy.instAt p.val id.toNat = some r → x = s.instRun p.val id.toNat → x.state = .resetting → x.icb.resetReq = true → x.gone = false →
    x.reqCleared = false →
    exec (.resetTimeout p id) s = .next ((((s.setInst p.val id.toNat .failed 7).each (s.instRings p.val id.toNat) State.resetRing).report (BitVec.ofNat 12
      (0x800 + leadOf p.val)) 4 (id.setWidth 64)))) ∧
  (∀ (s : State) (p : PortNo) (id : BitVec 8) (r : InstRec) (x : InstRun), s.firmwareRuns = true →
    s.policy.instAt p.val id.toNat = some r → x = s.instRun p.val id.toNat → x.state = .resetting → x.forced = true → x.gone = false →
    exec (.resettingLifetimePass p id) s = .next (if x.reqCleared then s.endReset p.val id.toNat else s.modInst p.val id.toNat fun y =>
      { y with lifePassed := true }))

/-- R246, R247, R248, R238, R239, R241, R242, R243, R244, R250, R251: a TLP that a host's port receives is handled by its kind in the host's hierarchy, and one of no
hierarchy is answered UR, or counted; a TLP from an endpoint is routed by its downstream bridge; an emulated function answers a configuration access; Slot Control powers
its channel; a secondary bus reset resets the bridge's target and a hot reset the hierarchy; a completion frame at a PCI Express port becomes a completion TLP and frees
its tag. -/
def Obligations.VirtualEventsAct : Prop :=
  (∀ (s : State) (p : PortNo) (t : Tlp) (u : State) (v : Nat), t.wellFormed = true →
    s.tlpPort p.val true = true → u = s.pmon (leadOf p.val) 0x070 0 1 → u.vhOf p.val = some v →
    (t.kind = .memRead ∨ t.kind = .memWrite ∨ t.kind = .ioRead ∨ t.kind = .ioWrite) →
    exec (.hostTlpWrap p t) s = .next (if isMem t && u.memOn v 1 && decide (u.barBase v 1 ≤ t.addr.toNat ∧ t.addr.toNat + t.len ≤ u.barBase v 1 + 65536)
      then u.barAccess p.val v t else (u.vdspFor v t).elim (u.unclaimed p.val v t) fun k => (u.toTarget v k t).elim (u.answerTlp p.val t (u.instFnId v
      k) psUR []) fun x => u.wrapTlp p.val x.1 x.2.1 x.2.2)) ∧
  (∀ (s : State) (p : PortNo) (t : Tlp) (u : State) (v : Nat), t.wellFormed = true →
    s.tlpPort p.val true = true → u = s.pmon (leadOf p.val) 0x070 0 1 → u.vhOf p.val = some v →
    exec (.hostTlpWrap p t) s = .next (u.hostTlp p.val v t)) ∧
  (∀ (s : State) (p : PortNo) (t : Tlp) (u : State), t.wellFormed = true →
    s.tlpPort p.val true = true → u = s.pmon (leadOf p.val) 0x070 0 1 → u.vhOf p.val = none →
    exec (.hostTlpWrap p t) s = .next (if tlpCode t.kind = 1 then u.tlpToPort p.val (tlpReply t 0 psUR []) else u.countPart (leadOf p.val) fun x =>
      { x with vhMiss := inc48 x.vhMiss })) ∧
  (∀ (s : State) (p : PortNo) (i : BitVec 12) (t : Tlp), t.wellFormed = true →
    s.tlpPort p.val false = true →
    exec (.targetTlpWrap p i t) s = .next ((s.pmon (leadOf p.val) 0x070 0 1).targetTlp p.val t)) ∧
  (∀ (s : State) (p : PortNo) (i : BitVec 12) (t : Tlp) (f : Frame), t.wellFormed = true →
    s.running = true → (s.port p.val).nativeUp = true → s.actsAs s.policy p.val = 2 → s.tlpPort p.val false = false →
    f = s.instTunnel p.val i t →
    exec (.targetTlpWrap p i t) s = .next (s.arrive p.val f.hdr.vc f f.blocks)) ∧
  (∀ (s : State) (vh : VhNo) (fn : EmulatedFn) (reg : BitVec 12) (wr : Option (BitVec 32)) (poison : Bool), reg.toNat % 4 = 0 →
    s.running = true → (s.forwardCfg vh.val fn (fun bus => forwardedCfg bus reg wr poison) = none) →
    exec (.configEmulation vh fn reg wr poison) s = .next ((s.cfgAccess vh.val (fnNumber fn) reg.toNat wr poison).1.modParts fun x =>
      { x with cfgReply := some (s.cfgAccess vh.val (fnNumber fn) reg.toNat wr poison).2 })) ∧
  (∀ (s : State) (vh : VhNo) (k : VdspNo) (w : BitVec 16), s.mgmt.available = true →
    s.boothRuns = true → s.vdspChan vh.val k.val = none →
    exec (.slotControlWrite vh k w) s = .next s) ∧
  (∀ (s : State) (vh : VhNo) (k : VdspNo) (w : BitVec 16) (c : Nat) (u : State), s.mgmt.available = true →
    s.boothRuns = true → s.vdspChan vh.val k.val = some c → (u = s.modChan c fun x => { x with pcc := w.getLsbD 10, cmdCompleted := true }) →
    exec (.slotControlWrite vh k w) s = .next (if (u.chan c).set.hostPower = false then u else if w.getLsbD 10 then (if (u.chan c).state.powered then
      u.warnOff c 0x09 else u) else if (u.chan c).state = .ready then u.requestStart c else u)) ∧
  (∀ (s : State) (vh : VhNo) (k : VdspNo), s.running = true →
    k.val ∈ s.vdsps vh.val →
    exec (.secondaryBusReset vh k) s = .next (if (s.resetTarget vh.val k.val).2 = [] then (s.resetTarget vh.val k.val).1 else (s.resetTarget vh.val
      k.val).1.evVhReset vh.val (s.resetTarget vh.val k.val).2)) ∧
  (∀ (s : State) (p : PortNo) (v : Nat), s.tlpPort p.val true = true →
    s.vhOf p.val = some v →
    exec (.hotResetReceive p) s = .next (s.vhReset v)) ∧
  (∀ (s : State) (p : PortNo) (f : Frame) (uid : Nat), f.wellFormed = true →
    s.running = true → (s.port p.val).pcie = true → (s.port p.val).linkUp = true → f.hdr.kind = .completion → s.queuedFrame p.val f = some uid →
    exec (.completionUnwrap p f) s = .next ((s.discard uid).cplToPort p.val f)) ∧
  (∀ (s : State) (p : PortNo) (f : Frame) (u : TagUse) (t : Tlp), f.wellFormed = true →
    s.running = true → (s.port p.val).pcie = true → (s.port p.val).linkUp = true → f.hdr.kind = .completion → s.queuedFrame p.val f = none →
    s.tagUse f.hdr.dst f.hdr.tag = some u → u.dst = f.hdr.src → f.tlp = some t → endsRequest f = true →
    exec (.completionUnwrap p f) s = .next ((s.sendTlp p.val { t with ep := t.ep || f.hdr.poison }).setTag f.hdr.dst f.hdr.tag none))

/-- R310, R311, R312, R315, R319, R323, R325, R309: a completion ends a request of the port; a frame of a fenced port ends as FENCED, one that a disabled port or its
personality does not support is unsupported, one of no window is a window miss; a record waits in the cycle store with a transaction entry if it is non-posted, and a
frame that finds the store full stays where it is; a live port runs the head of its store; the end of a bus cycle advances the sequence or fails its record; a record
whose lifetime ends is ended. -/
def Obligations.PatchworkFabricSideActs : Prop :=
  (∀ (s : State) (x : PwPort) (f : Frame), f.wellFormed = true →
    s.running = true → f.hdr.kind = .completion → (f.hdr.type = tyCompletion ∨ f.hdr.type = tyHeritage) →
    exec (.patchworkFrameReceive x f) s = .next ((s.takeInbox (pwCode x) f).pwCompletionAt x f)) ∧
  (∀ (s : State) (x : PwPort) (f : Frame), f.wellFormed = true →
    s.running = true → f.hdr.kind ≠ .completion → s.fenced (pwUnit x) = true →
    exec (.patchworkFrameReceive x f) s = .next ((s.takeInbox (pwCode x) f).endHere f (s.pwHome x) .fenced)) ∧
  (∀ (s : State) (x : PwPort) (f : Frame), f.wellFormed = true →
    s.running = true → f.hdr.kind ≠ .completion → s.fenced (pwUnit x) = false → ((s.pw x).personality = .disabled ∨ (s.pw x).asks f = none) →
    exec (.patchworkFrameReceive x f) s = .next ((s.takeInbox (pwCode x) f).unsupportedAt x f)) ∧
  (∀ (s : State) (x : PwPort) (f : Frame) (r : PwRecord), f.wellFormed = true →
    s.running = true → f.hdr.kind ≠ .completion → s.fenced (pwUnit x) = false → (s.pw x).personality ≠ .disabled → (s.pw x).asks f = some r →
    (s.pw x).place r = none →
    exec (.patchworkFrameReceive x f) s = .next (((s.takeInbox (pwCode x) f).countPw x fun c => { c with outMiss := inc48 c.outMiss }).endHere f (s.pwHome
      x) .windowMiss)) ∧
  (∀ (s : State) (x : PwPort) (f : Frame) (r q : PwRecord) (w : PwWindow), f.wellFormed = true →
    s.running = true → f.hdr.kind ≠ .completion → s.fenced (pwUnit x) = false → (s.pw x).personality ≠ .disabled → (s.pw x).asks f = some r →
    (s.pw x).place r = some (q, w) → q.fits w = false →
    exec (.patchworkFrameReceive x f) s = .next ((s.takeInbox (pwCode x) f).pwAnswer x q csAbort 1 [])) ∧
  (∀ (s : State) (x : PwPort) (f : Frame) (r q : PwRecord) (w : PwWindow), f.wellFormed = true →
    s.running = true → f.hdr.kind ≠ .completion → s.fenced (pwUnit x) = false → (s.pw x).personality ≠ .disabled → (s.pw x).asks f = some r →
    (s.pw x).place r = some (q, w) → q.fits w = true → q.nonPosted = false →
    (((s.pw x).store.map fun r => r.frame.blocks).sum + f.blocks ≤ 1024) →
    exec (.patchworkFrameReceive x f) s = .next ((s.takeInbox (pwCode x) f).modPw x fun p =>
      { p with store := p.store ++ [{ q with born := ((s.inboxFrame (pwCode x) f).map fun e => e.2.born).getD s.now, entry := none }] })) ∧
  (∀ (s : State) (x : PwPort) (f : Frame) (r q : PwRecord) (w : PwWindow) (e : Nat), f.wellFormed = true →
    s.running = true → f.hdr.kind ≠ .completion → s.fenced (pwUnit x) = false → (s.pw x).personality ≠ .disabled → (s.pw x).asks f = some r →
    (s.pw x).place r = some (q, w) → q.fits w = true → q.nonPosted = true → (s.pw x).freeSlot = some e →
    (((s.pw x).store.map fun r => r.frame.blocks).sum + f.blocks ≤ 1024) →
    exec (.patchworkFrameReceive x f) s = .next ((s.takeInbox (pwCode x) f).modPw x fun p =>
      { p with store := p.store ++ [{ q with born := ((s.inboxFrame (pwCode x) f).map fun e => e.2.born).getD s.now, entry := some e }], outEntries := e :: p.outEntries })) ∧
  (∀ (s : State) (x : PwPort) (r : PwRecord) (l : List PwRecord), s.pwLive x = true →
    (s.pw x).sequence = none → (s.pw x).store = r :: l → s.lifetimeNs ≤ s.now - r.born →
    exec (.outboundCycleRun x) s = .next (((s.modPw x fun p => { p with store := l }).freeEntry x r).endHere r.frame (s.pwHome x) .lifetime)) ∧
  (∀ (s : State) (x : PwPort) (r q : PwRecord) (l : List PwRecord) (w : PwWindow), s.pwLive x = true →
    (s.pw x).sequence = none → (s.pw x).store = r :: l → s.now - r.born < s.lifetimeNs → r.frame.hdr.poison = false →
    (s.pw x).place r = some (q, w) → q.op = .write →
    exec (.outboundCycleRun x) s = .next ((s.modPw x fun p => { p with store := l }).startRecord x q w)) ∧
  (∀ (s : State) (x : PwPort) (st : BusStatus) (data : List Byte) (q : PwSeq), (st = .ok ∨ data = []) →
    s.pwLive x = true → (s.pw x).sequence = some q → st ≠ .ok → st ≠ .parity →
    exec (.busCycleEnd x st data) s = .next (((s.modPw x fun p => { p with sequence := none }).countPw x fun c =>
      { c with busErr := inc48 c.busErr }).failRecord x q.record csHeritage (busStatusCode st))) ∧
  (∀ (s : State) (x : PwPort) (st : BusStatus) (data : List Byte) (q : PwSeq), (st = .ok ∨ data = []) →
    s.pwLive x = true → (s.pw x).sequence = some q → st = .parity →
    exec (.busCycleEnd x st data) s = .next ((((s.modPw x fun p => { p with sequence := none }).countPw x fun c =>
      { c with busErr := inc48 c.busErr }).report (pwSource x) 0x02 (BitVec.ofNat 64 q.record.window)).failRecord x q.record csPoisoned (busStatusCode
      .parity))) ∧
  (∀ (s : State) (x : PwPort) (st : BusStatus) (data : List Byte), (st = .ok ∨ data = []) →
    s.pwLive x = true → st = .ok →
    exec (.busCycleEnd x st data) s = .next (s.endCycle x .ok data)) ∧
  (∀ (s : State) (x : PwPort) (r : PwRecord), (leastBy (fun r => r.born) (s.pw x).store = some r) →
    exec (.cycleStoreLifetimeExpiry x) s = .next (((s.modPw x fun p => { p with store := p.store.erase r }).freeEntry x r).endHere r.frame (s.pwHome x)
      .lifetime))

/-- R316, R318, R322, R325, R326, R327, R329, R330, R331, R332, R305, R306, R334: a cycle that a window claims acts by its kind and one of no window is not answered; entries,
prefetch buffers and blocked reads end at their times; an observed write drops the buffers it overlaps; a bus reset ends the port's work; the bus timer ends what is open;
the supply's loss and return raise EV_PW_SUPPLY; a configuration cycle of the bus host moves or disables the tied windows; a side-band pin changes its own bit. -/
def Obligations.PatchworkBusSideActs : Prop :=
  (∀ (s : State) (x : PwPort) (c : BusCycle) (u : State), c.wellFormed = true →
    s.pwLive x = true → (u = if c.continued then s else (s.closeWrite x).dropPrefetch x (·.inbound)) →
    exec (.inboundCycleClaim x c) s = .next (((u.pw x).inMatch c).elim (u.modPw x fun p => { p with answer := .none_ }) fun e => if c.rmw then u.claimRmw
      x e.1 e.2 c else if c.write then u.claimWrite x e.1 e.2 c else u.claimRead x e.1 e.2 c)) ∧
  (∀ (s : State) (x : PwPort) (c : BusCycle) (u : State), c.wellFormed = true →
    c.write = true → c.rmw = false → s.pwLive x = true → (u = if c.continued then s else (s.closeWrite x).dropPrefetch x (·.inbound)) →
    exec (.inboundWrite x c) s = .next (((u.pw x).inMatch c).elim (u.modPw x fun p => { p with answer := .none_ }) fun e => u.claimWrite x e.1 e.2 c)) ∧
  (∀ (s : State) (x : PwPort) (c : BusCycle) (u : State), c.wellFormed = true →
    c.write = false → c.rmw = false → s.pwLive x = true → (u = if c.continued then s else (s.closeWrite x).dropPrefetch x (·.inbound)) →
    exec (.inboundRead x c) s = .next (((u.pw x).inMatch c).elim (u.modPw x fun p => { p with answer := .none_ }) fun e => u.claimRead x e.1 e.2 c)) ∧
  (∀ (s : State) (x : PwPort) (c : BusCycle) (u : State), c.wellFormed = true →
    c.rmw = true → (s.pw x).personality = .vme → s.pwLive x = true →
    (u = if c.continued then s else (s.closeWrite x).dropPrefetch x (·.inbound)) →
    exec (.inboundRmw x c) s = .next (((u.pw x).inMatch c).elim (u.modPw x fun p => { p with answer := .none_ }) fun e => u.claimRmw x e.1 e.2 c)) ∧
  (∀ (s : State) (x : PwPort) (c : BusCycle) (u : State), c.wellFormed = true →
    c.write = false → c.rmw = false → (s.pw x).personality = .pci → s.pwLive x = true →
    (u = if c.continued then s else (s.closeWrite x).dropPrefetch x (·.inbound)) →
    exec (.pciDelayedRepeat x c) s = .next (((u.pw x).inMatch c).elim (u.modPw x fun p => { p with answer := .none_ }) fun e => u.claimRead x e.1 e.2 c)) ∧
  (∀ (s : State) (x : PwPort) (e : BitVec 8) (y : PwEntry) (err : Bool), Tab.get none (s.pw x).entries e.toNat = some y →
    y.state = .ready err →
    exec (.delayedDiscardTimeout x e) s = .next ((s.dropEntry x e.toNat).countPw x fun c => { c with delayedDiscard := inc48 c.delayedDiscard })) ∧
  (∀ (s : State) (x : PwPort) (ns : BitVec 32) (e : Nat) (y : PwEntry), (s.pw x).heldRead = some (e, y) →
    (s.pw x).personality = .vme → (s.pw x).store ≠ [] → (s.pw x).sequence = none → (s.pw x).yieldOn = true →
    exec (.yieldTimeout x ns) s = .next ((s.giveUpRead x e y true).countPw x fun c => { c with yields := inc48 c.yields })) ∧
  (∀ (s : State) (x : PwPort) (ns : BitVec 32) (e : Nat) (y : PwEntry), (s.pw x).heldRead = some (e, y) →
    (s.pw x).personality = .vme → (s.pw x).store ≠ [] → (s.pw x).sequence = none → (s.pw x).yieldOn = false → (s.pw x).crossed = false →
    exec (.yieldTimeout x ns) s = .next ((s.modPw x fun p => { p with crossed := true }).raise 0x0900 [(pwIdx x, 1), (y.window, 1), (ns.toNat, 8)]
      [s.pwOwner x])) ∧
  (∀ (s : State) (x : PwPort) (n : BitVec 5) (b : PwPrefetch), (s.pw x).prefetch[n.toNat]? = some b →
    exec (.prefetchHoldExpiry x n) s = .next (s.dropPrefetch x fun y => decide (y = b))) ∧
  (∀ (s : State) (x : PwPort) (sp : BitVec 2) (a : BitVec 64) (n : Nat), 1 ≤ n →
    s.pwLive x = true →
    exec (.busWriteObserved x sp a n) s = .next (s.dropPrefetch x fun b => decide (((s.pw x).window b.window).space = sp ∧ a.toNat < b.busAddr +
      b.data.length ∧ b.busAddr < a.toNat + n))) ∧
  (∀ (s : State) (x : PwPort), s.pwLive x = true →
    exec (.heritageBusReset x) s = .next ((s.pwEndWork x false).raise 0x0901 [(pwIdx x, 1), (0, 1)] [s.pwOwner x])) ∧
  (∀ (s : State) (x : PwPort), exec (.pwBusResetEnd x) s = .next (s.modPw x fun p => { p with driving := false })) ∧
  (∀ (s : State) (x : PwPort) (u : State), (s.pw x).vddHb = true →
    s.running = true → (u = ((s.pwEndWork x false).report (pwSource x) 0x05 0).modPw x fun p => { p with vddHb := false }) →
    exec (.vddHbLoss x) s = .next (u.raise 0x0902 [(pwIdx x, 1), (b2n (u.pw x).vddHb, 1), (b2n (u.pw x).fiveVolt, 1)] [u.pwOwner x])) ∧
  (∀ (s : State) (x : PwPort) (five : Bool) (u : State), (s.pw x).vddHb = false →
    (u = s.modPw x fun p => { p with vddHb := true, fiveVolt := five }) →
    exec (.vddHbReturn x five) s = .next (u.raise 0x0902 [(pwIdx x, 1), (b2n (u.pw x).vddHb, 1), (b2n (u.pw x).fiveVolt, 1)] [u.pwOwner x])) ∧
  (∀ (s : State) (x : PwPort) (q : PwSeq), s.pwLive x = true →
    (s.pw x).personality = .vme → (s.pw x).syscon = true → (s.pw x).sequence = some q →
    exec (.busTimerExpiry x) s = .next ((s.report (pwSource x) 0x04 (BitVec.ofNat 64 q.record.window)).endCycle x .noResponse [])) ∧
  (∀ (s : State) (x : PwPort) (e : Nat) (y : PwEntry), s.pwLive x = true →
    (s.pw x).personality = .vme → (s.pw x).syscon = true → (s.pw x).sequence = none → (s.pw x).heldRead = some (e, y) →
    exec (.busTimerExpiry x) s = .next ((s.report (pwSource x) 0x04 (BitVec.ofNat 64 y.window)).giveUpRead x e y false)) ∧
  (∀ (s : State) (x : PwPort) (reg : BitVec 8) (wr : Option (BitVec 32)) (u : State), reg.toNat % 4 = 0 →
    s.pwLive x = true → (s.pw x).personality = .pci → (s.pw x).hostBridge = false → u = (s.closeWrite x).dropPrefetch x (·.inbound) →
    wr = none →
    exec (.deviceConfigCycle x reg wr) s = .next (u.answerBus x (.data (bytesOf 4 ((s.pw x).deviceReg reg.toNat).toNat)))) ∧
  (∀ (s : State) (x : PwPort) (reg : BitVec 8) (wr : Option (BitVec 32)) (u : State) (v : BitVec 32), reg.toNat % 4 = 0 →
    s.pwLive x = true → (s.pw x).personality = .pci → (s.pw x).hostBridge = false → u = ((s.closeWrite x).dropPrefetch x (·.inbound)) →
    wr = some v →
    exec (.deviceConfigCycle x reg wr) s = .next (if reg = 0x04 then ((u.dropPrefetch x fun b => decide (((s.pw x).window b.window).bar ≠ 0)).answerBus x
      .acknowledged).modPw x fun p => { p with memEnable := v.getLsbD 1 } else if 0x10 ≤ reg.toNat ∧ reg.toNat < 0x28 then ((u.dropPrefetch x fun b =>
      decide (((s.pw x).window b.window).bar ≠ 0)).answerBus x .acknowledged).modPw x fun p =>
      { p with bars := setAt p.bars ((reg.toNat - 0x10) / 4) (v &&& p.barMask ((reg.toNat - 0x10) / 4)) } else u.answerBus x .acknowledged)) ∧
  (∀ (s : State) (pin : SidebandPin) (asserted : Bool) (n : BitVec 6), pin = .host n →
    exec (.sidebandInputChange pin asserted) s = .next
      ({ s with sideband := { s.sideband with hostIn := if asserted then s.sideband.hostIn ||| (1 <<< n.toNat) else s.sideband.hostIn &&& ~~~((1 : BitVec 64) <<< n.toNat) } })) ∧
  (∀ (s : State) (pin : SidebandPin) (asserted : Bool) (n : BitVec 6), pin = .heritage n →
    exec (.sidebandInputChange pin asserted) s = .next
      ({ s with sideband := { s.sideband with herIn := if asserted then s.sideband.herIn ||| (1 <<< n.toNat) else s.sideband.herIn &&& ~~~((1 : BitVec 64) <<< n.toNat) } }))

/-- R348, R350, R351, R352, R353, R354, R355: presence and absence change PRESENT and the channel's state; a start runs PRECHARGE, GATE_RISE, STABILISING, ON; a breaker, a
fast trip, a precharge, a stabilise or a gate loss is a trip, which is counted, reported and ends in RETRY_WAIT or, with its retries used up, LATCHED; a gate that does
not rise is LOCKOUT; the off-time ends in READY with a start request; ON for 10 min clears the retry count; the end of PFW_LEAD ends a turn-off. -/
def Obligations.ChannelEventsAct : Prop :=
  (∀ (s : State) (c : ChanNo) (high : Bool), s.boothRuns = true →
    (s.chan c.val).prsntHigh = high →
    exec (.presenceChange c high) s = .next s) ∧
  (∀ (s : State) (c : ChanNo) (high : Bool) (u : State), s.boothRuns = true →
    (s.chan c.val).prsntHigh = false → high = true →
    (u = s.modChan c.val fun x => { x with prsntHigh := true, absent := false, pfwPresence := x.pfwPresence || x.state.powered }) →
    exec (.presenceChange c high) s = .next (if (s.chan c.val).state = .inserting then u.chanTo c.val .empty 0 else u)) ∧
  (∀ (s : State) (c : ChanNo) (high : Bool) (u : State), s.boothRuns = true →
    (s.chan c.val).prsntHigh = true → high = false →
    (u = s.modChan c.val fun x =>
      { x with prsntHigh := false, absent := false, counters := if x.absent then x.counters else { x.counters with shortAbsences := inc48 x.counters.shortAbsences } })
      →
    exec (.presenceChange c high) s = .next (if (s.chan c.val).state = .empty then u.chanTo c.val .inserting 0 else u)) ∧
  (∀ (s : State) (c : ChanNo), s.boothRuns = true →
    (s.chan c.val).state = .inserting →
    exec (.insertionDebounceEnd c) s = .next (if s.now < (s.chan c.val).holdOffEnd then s.modChan c.val (fun x => { x with debounced := true }) else
      ((s.setPresent c.val true).chanTo c.val .ready 0).autoStart c.val)) ∧
  (∀ (s : State) (c : ChanNo) (u : State), s.boothRuns = true →
    (s.chan c.val).prsntHigh = true → (s.chan c.val).absent = false →
    (u = (s.modChan c.val fun y => { y with absent := true }).setPresent c.val false) → (s.chan c.val).state.powered = true →
    exec (.absenceDeclared c) s = .next ((u.modChan c.val fun y => { y with holdOffEnd := 0, retry := 0 }).chanTo c.val .empty 0x07)) ∧
  (∀ (s : State) (c : ChanNo) (u : State), s.boothRuns = true →
    (s.chan c.val).prsntHigh = true → (s.chan c.val).absent = false →
    (u = (s.modChan c.val fun y => { y with absent := true }).setPresent c.val false) →
    ((s.chan c.val).state = .lockout ∨ (s.chan c.val).state = .empty) →
    exec (.absenceDeclared c) s = .next (u)) ∧
  (∀ (s : State) (c : ChanNo) (u : State), s.boothRuns = true →
    (s.chan c.val).prsntHigh = true → (s.chan c.val).absent = false →
    (u = (s.modChan c.val fun y => { y with absent := true }).setPresent c.val false) → (s.chan c.val).state = .retryWait →
    exec (.absenceDeclared c) s = .next ((u.modChan c.val fun y => { y with holdOffEnd := y.offEnd, retry := 0 }).chanTo c.val .empty 0x07)) ∧
  (∀ (s : State) (c : ChanNo), s.boothRuns = true →
    (s.chan c.val).prsntHigh = false →
    exec (.pfwReleaseDelayEnd c) s = .next (s.modChan c.val fun x => { x with pfwPresence := false })) ∧
  (∀ (s : State) (c : ChanNo) (u : State), (u = s.modChan c.val fun x => { x with holdOffEnd := 0 }) →
    exec (.holdOffExpiry c) s = .next (if s.boothRuns && (s.chan c.val).state == .inserting && (s.chan c.val).debounced then ((u.setPresent c.val
      true).chanTo c.val .ready 0).autoStart c.val else u)) ∧
  (∀ (s : State) (c : Nat), s.boothRuns = true →
    s.slots.warning = false →
    (((List.range 48).filter fun c => (s.chan c).state == .precharge || (s.chan c).state == .gateRise).length < s.slots.bus.startLimit) →
    s.nextRequest = some c →
    exec .startGrant s = .next ((s.modSlots fun x => { x with lastGrant := some s.now }).chanTo c .precharge 0)) ∧
  (∀ (s : State), s.boothRuns = true →
    (s.slots.warning = true ∨ s.nextRequest = none) →
    exec .startGrant s = .next s) ∧
  (∀ (s : State) (c : ChanNo), s.boothRuns = true →
    (s.chan c.val).state = .precharge →
    exec (.prechargeComplete c) s = .next (s.chanTo c.val .gateRise 0)) ∧
  (∀ (s : State) (c : ChanNo), s.boothRuns = true →
    (s.chan c.val).state = .gateRise →
    exec (.gateRiseComplete c) s = .next (s.chanTo c.val .stabilising 0)) ∧
  (∀ (s : State) (c : ChanNo), s.boothRuns = true →
    (s.chan c.val).state = .stabilising → (s.chan c.val).breakerOn = false →
    exec (.powerGood c) s = .next (s.chanTo c.val .on 0)) ∧
  (∀ (s : State) (c : ChanNo), s.boothRuns = true →
    (s.chan c.val).state = .precharge →
    exec (.prechargeTimeout c) s = .next (s.trip c.val 0x03)) ∧
  (∀ (s : State) (c : ChanNo), s.boothRuns = true →
    (s.chan c.val).state = .stabilising →
    exec (.stabiliseTimeout c) s = .next (s.trip c.val 0x06)) ∧
  (∀ (s : State) (c : ChanNo), s.boothRuns = true →
    (s.chan c.val).state = .on →
    exec (.gateLoss c) s = .next (s.trip c.val 0x05)) ∧
  (∀ (s : State) (c : ChanNo), s.boothRuns = true →
    (s.chan c.val).state = .gateRise →
    exec (.gateNoRise c) s = .next ((s.chanTo c.val .lockout 0x04).report (slotSource c.val) 0x03 4)) ∧
  (∀ (s : State) (c : ChanNo) (u : State), s.boothRuns = true →
    (s.chan c.val).state.powered = true → (u = s.modChan c.val fun x => { x with breakerOn := true }) →
    exec (.breakerTimerStart c) s = .next (if (s.chan c.val).state = .on then u.chanTo c.val .stabilising 0 else u)) ∧
  (∀ (s : State) (c : ChanNo), s.boothRuns = true →
    exec (.breakerReset c) s = .next (s.modChan c.val fun x => { x with breakerOn := false })) ∧
  (∀ (s : State) (c : ChanNo) (u : State), s.boothRuns = true →
    (s.chan c.val).state.powered = true → (s.chan c.val).breakerOn = true →
    (u = ((s.modChan c.val fun x =>
      { x with tripCause := 1, powerFault := true, counters := { x.counters with tripsBreaker := inc48 x.counters.tripsBreaker } }).report (slotSource
      c.val) 0x01 1).modChan c.val fun y => { y with retry := y.retry + 1 }) →
    exec (.breakerExpiry c) s = .next (if (s.chan c.val).retry + 1 ≤ (s.chan c.val).set.retryMax then (u.modChan c.val fun y =>
      { y with offEnd := s.now + max 1000000000 (100 * min (s.now - (s.chan c.val).onSince) 10000000000) }).chanTo c.val .retryWait 1 else (u.chanTo
      c.val .latched scRetryLimit).report (slotSource c.val) 0x02 (scRetryLimit.setWidth 64))) ∧
  (∀ (s : State) (c : ChanNo), s.slots.restarting = false →
    s.boothRuns = true → ((s.chan c.val).state.powered = true ∨ (s.chan c.val).state = .warnOff) →
    exec (.fastTrip c) s = .next (s.trip c.val 0x02)) ∧
  (∀ (s : State) (c : ChanNo), s.slots.restarting = true →
    ((s.chan c.val).qp = true ∨ (s.chan c.val).qm = true) →
    exec (.fastTrip c) s = .next (s.modChan c.val fun x => { x with qp := false, qm := false, fastLatched := true })) ∧
  (∀ (s : State) (c : ChanNo), s.boothRuns = true →
    (s.chan c.val).state = .warnOff →
    exec (.pfwLeadExpiry c) s = .next (if (s.chan c.val).lockAfter then s.chanTo c.val .lockout scFenced else if (s.chan c.val).disableAfter then s.chanTo
      c.val .disabled (s.chan c.val).offCause else s.chanTo c.val .ready (s.chan c.val).offCause)) ∧
  (∀ (s : State) (c : ChanNo), s.boothRuns = true →
    s.slots.restarting = false → (s.chan c.val).state = .retryWait →
    exec (.retryWaitExpiry c) s = .next ((s.chanTo c.val .ready 0).requestStart c.val)) ∧
  (∀ (s : State) (c : ChanNo), s.slots.restarting = true →
    exec (.retryWaitExpiry c) s = .next (s.modChan c.val fun x => { x with offEnd := min x.offEnd s.now })) ∧
  (∀ (s : State) (c : ChanNo), s.boothRuns = true →
    (s.chan c.val).state = .on →
    exec (.retryCountClear c) s = .next (s.modChan c.val fun x => { x with retry := 0 }))

/-- R356, R357, R359, R363, R466, R480: a warning is asserted and counted once and reported, and released; a cut turns every powered channel to BUS_CUT; recovery returns them
to READY and requests their starts together; a sample is held with the lowest VFEED; the booth controller's restart stops its work, latch release drops the gates, and on
resuming each channel acts on what it finds. -/
def Obligations.SlotBusEventsAct : Prop :=
  (∀ (s : State) (v : BitVec 16) (u : State), s.boothRuns = true →
    s.slots.warning = false →
    (u = s.modSlots fun x => { x.sampled v with busWarnings := inc48 x.busWarnings, warning := true, warnMin := v, warnSince := s.now }) →
    exec (.inputBusWarning v) s = .next ((u.raise 0x0A01 [(0, 1), (0, 1), (v.toNat, 2), (0, 8)] []).report slotBusSource 0x10 0)) ∧
  (∀ (s : State) (v : BitVec 16), s.boothRuns = true →
    s.slots.warning = true →
    exec (.inputBusWarning v) s = .next (s.modSlots fun x => x.sampled v)) ∧
  (∀ (s : State) (v : BitVec 16) (u : State), s.boothRuns = true →
    s.slots.warning = true → (u = s.modSlots fun x => { x.sampled v with warning := false }) →
    exec (.warningRelease v) s = .next (u.raise 0x0A01 [(1, 1), (0, 1), (u.slots.warnMin.toNat, 2), ((s.now - s.slots.warnSince) / 1000000, 8)] [])) ∧
  (∀ (s : State) (v : BitVec 16) (u : State), s.boothRuns = true →
    (u = s.modSlots fun x => { x.sampled v with cut := true, busCuts := inc48 x.busCuts }) →
    exec (.busCut v) s = .next (((u.each (List.range 48) fun t c => if (t.chan c).state.powered then t.chanTo c .busCut scBusCut else if (t.chan c).state
      = .warnOff then t.chanOff c (t.chan c).offCause else t).evSlotBus 2 false v 0).report slotBusSource 0x11 0x0A)) ∧
  (∀ (s : State) (v : BitVec 16) (u : State) (w : State), s.boothRuns = true →
    (u = (s.modSlots fun x => { x.sampled v with cut := false }).evSlotBus 3 false v 0) →
    (w = u.each ((List.range 48).filter fun c => (u.chan c).state == .busCut) fun t c => if ((t.chanTo c .ready 0).chan c).set.autoOn then (t.chanTo c
      .ready 0).requestAt c (t.chanTo c .ready 0).slots.nextReq else t.chanTo c .ready 0) →
    exec (.busRecovery v) s = .next (w.modSlots fun x => { x with nextReq := x.nextReq + 1 })) ∧
  (∀ (s : State) (c : ChanNo) (x : SlotSample) (v : BitVec 16), s.boothRuns = true →
    exec (.slotSample c x v) s = .next ((s.modChan c.val fun y => { y with sample := x }).modSlots fun y =>
      { y with vfeed := v, vfeedMin := lower y.vfeedMin v, warnMin := if y.warning then lower y.warnMin v else y.warnMin })) ∧
  (∀ (s : State), s.slots.restarting = true →
    exec .latchRelease s = .next ((s.each (List.range 48) fun t c => t.modChan c fun x => { x with qp := false, qm := false, pg := false }).modSlots fun x
      => { x with released := true })) ∧
  (∀ (s : State) (u : State), s.boothRuns = true →
    (u = s.modSlots fun x => { x with restarting := true, released := false, restartAt := s.now }) →
    exec .boothWatchdogExpiry s = .next ((u.each (List.range 48) fun t c => t.modChan c fun x =>
      { x with breakerOn := false, debounced := false, fastLatched := false }).report 0xE00 0x01 0)) ∧
  (∀ (s : State) (prsnt : BitVec 48) (v : BitVec 16), s.slots.restarting = true →
    exec (.boothResume prsnt v) s = .next (if s.power.boot = .cold ∧ s.power.plan = .idle ∧ s.power.inter = .no then (s.boothResume prsnt v).boothStart
      else (s.boothResume prsnt v).loadSlotTrims))

/-- R413, R414, R415, R416, R417, R419, R420, R423, R429, R430, R431: a detected error joins its source's reports, and an SRAM error names its memory; the collector notes a
pair change; a report is classified and logged, fences its units if Contained and stops the device if Fatal; a pair change with no report is PAIR_ONLY at the fallback
severity, an invalid pair WIRE_FAULT; a merge interval ends with one record of its count; ALIVE toggles while it runs and stops when liveness lapses. -/
def Obligations.FaultEventsAct : Prop :=
  (∀ (s : State) (src : BitVec 12) (code : BitVec 8) (detail : BitVec 64) (u : State), sourceExists src = true →
    (errorRow src code).isSome = true → (s.collectorOn = true ∨ (selvedgeSource src = false ∧ s.power.coreOn = true)) →
    (u = s.modSource src fun x =>
      { x with reports := addReport x.reports { code := code, detail := detail }, pair := if x.pair = .invalid then .invalid else .pending }) →
    exec (.errorDetect src code detail) s = .next (if src.toNat / 256 % 16 = 5 ∧ code = 2 then (if detail.toNat % 4 = 0 then u.modCar (fun c =>
      { c with badIn := Tab.put false c.badIn (src.toNat % 256) true }) else if detail.toNat % 4 = 2 then u.modMid (src.toNat % 256) (fun b =>
      { b with bad := true }) else u) else u)) ∧
  (∀ (s : State) (src : BitVec 12), sourceExists src = true →
    s.collectorOn = true → (s.source src).pair = .pending → (s.source src).unsupervised = false → (s.source src).seenAt = none →
    exec (.pairChangeSeen src) s = .next (s.modSource src fun y => { y with seenAt := some s.timeNow, noReport := true })) ∧
  (∀ (s : State) (src : BitVec 12), sourceExists src = true →
    s.collectorOn = true → (s.source src).pair = .invalid →
    exec (.pairChangeSeen src) s = .next (s.modSource src fun y => { y with pair := if y.reports = [] then .idle else .pending })) ∧
  (∀ (s : State) (src : BitVec 12) (code : BitVec 8) (r : Report) (x : Source) (u : State), errorGiven src code = true →
    s.nextReport src = some r → s.collectorOn = true → r.code = code → x = s.source src →
    (u = s.modSource src fun y => ({ y with reports := y.reports.filter (fun z => decide (z.code ≠ code)), noReport := false }).settle) →
    exec (.faultReportClassify src code) s = .next (u.classify
      { source := src, error := code, severity := s.severityOf src code, count := r.count, detail := r.detail, injected := r.injected, unsupervised := x.unsupervised, seconds := (if x.unsupervised then s.timeNow else x.seenAt.getD s.timeNow).1, ns := (if x.unsupervised then s.timeNow else x.seenAt.getD s.timeNow).2 }
      none)) ∧
  (∀ (s : State) (r : FaultRec) (named : Option UnitId) (q : FaultRec), r.severity ≠ svContained → q = { r with unit := 0xFFFFF, multi := false } → s.classify r named = if r.severity = svFatal then (s.logError q).fatalStop 1 else s.logError q) ∧
  (∀ (s : State) (r : FaultRec) (named : Option UnitId) (l : List UnitId) (q : FaultRec), r.severity = svContained → l = fencedBy r.source r.error r.detail named → q = { r with unit := (l.head?.map UnitId.bits).getD 0xFFFFF, multi := decide (1 < l.length) } → s.classify r named = l.foldl (fun t u => t.applyFence { unit := u, source := r.source, error := r.error } (decide (r.source = 0xF01))) (s.logError q)) ∧
  (∀ (s : State) (src : BitVec 12) (t : BitVec 32 × BitVec 30) (u : State), sourceExists src = true →
    (s.source src).seenAt = some t → s.collectorOn = true → (s.source src).noReport = true →
    (u = (s.modSource src fun y => ({ y with noReport := false }).settle).modFaults fun f => { f with pairOnly := inc48 f.pairOnly }) →
    exec (.pairOnlyTimeout src) s = .next (u.classify
      { source := src, error := 0xFE, severity := s.fallbackSeverity src, pairOnly := true, injected := (s.source src).pairInjected, seconds := t.1, ns := t.2 }
      none)) ∧
  (∀ (s : State) (src : BitVec 12) (u : State), sourceExists src = true →
    (s.source src).unsupervised = false → s.collectorOn = true →
    (u = s.modSource src fun y => { y with pair := .invalid, unsupervised := true, seenAt := none, noReport := false }) →
    exec (.wireFault src) s = .next (u.classify { source := src, error := 0xFF, severity := svDegraded, seconds := u.timeNow.1, ns := u.timeNow.2 } none)) ∧
  (∀ (s : State) (src : BitVec 12) (code : BitVec 8) (m : Merge), sourceExists src = true →
    s.collectorOn = true → Tab.get none s.faults.merges (256 * src.toNat + code.toNat) = some m → m.total = 0 →
    exec (.mergeIntervalEnd src code) s = .next (s.modFaults fun f => { f with merges := Tab.put none f.merges (256 * src.toNat + code.toNat) none })) ∧
  (∀ (s : State) (src : BitVec 12) (code : BitVec 8) (m : Merge), sourceExists src = true →
    s.collectorOn = true → Tab.get none s.faults.merges (256 * src.toNat + code.toNat) = some m → m.total ≠ 0 →
    exec (.mergeIntervalEnd src code) s = .next ((s.writeRecord
      { source := src, error := code, severity := m.severity, count := BitVec.ofNat 16 m.total, detail := m.detail, injected := m.injected, unsupervised := m.unsupervised, pairOnly := decide (code = 0xFE), seconds := s.timeNow.1, ns := s.timeNow.2 }).modFaults
      fun f => { f with merges := Tab.put none f.merges (256 * src.toNat + code.toNat) (some {}) })) ∧
  (∀ (s : State) (f : Frame) (r : Nat), f.wellFormed = true →
    s.running = true → f.hdr.poison = false → 40 ≤ f.payload.length → r = natOf (f.payload.drop 8) →
    exec (.faultFrameReceive f) s = .next ((s.takeInbox 3 f).raise 0x0B02 [(natOf (f.payload.take 3) % 2 ^ 20, 3), (r % 2 ^ 12, 2), (r / 2 ^ 12 % 2 ^ 8,
      1), (r / 2 ^ 20 % 2 ^ 3, 1), (r / 2 ^ 48 % 2 ^ 16, 2), (r / 2 ^ 128 % 2 ^ 64, 8)] [])) ∧
  (∀ (s : State), s.faults.aliveRunning = true →
    exec .aliveToggle s = .next (s.modFaults fun f => { f with aliveLevel := !f.aliveLevel })) ∧
  (∀ (s : State), s.firmwareRuns = true →
    exec .livenessRefresh s = .next (s.modFaults fun f => { f with refreshed := s.now })) ∧
  (∀ (s : State) (u : State), (s.faults.suspended = false ∨ s.mgmt.weftReset = true ∨ s.power.inter = .waking) →
    u = s.report 0xC04 0x01 0 →
    exec .livenessExpiry s = .next (u.modFaults fun f =>
      { f with aliveRunning := false, stopCause := if f.aliveRunning ∨ f.stopCause = 0 then 2 else f.stopCause }))

/-- R439, R440, R441, R442, R444, R445, R446, R453, R456, R457: an isolated target's test becomes RUNNING with its start time; the engine's end passes it when signature and
compares agree, and otherwise fails it and marks the unit; a unit that was re-initialised returns, with EV_BIST_DONE; a target not isolated in time aborts with NOT_IDLE;
a wrap of a sampling counter appends a sample or counts it lost; a due snapshot is captured and numbered. -/
def Obligations.TestAndMonitorEventsAct : Prop :=
  (∀ (s : State) (u : UnitId) (r : BistRec), testable u = true →
    s.bistRec u = some r → r.active = true → r.result = 1 → s.isolated u = true →
    exec (.bistIsolationComplete u) s = .next (s.setBistRec u { r with result := 2, startSec := s.timeNow.1, startNs := s.timeNow.2 })) ∧
  (∀ (s : State) (u : UnitId) (x : EngineResult) (r : BistRec), testable u = true →
    s.bistRec u = some r → r.active = true → r.result = 2 → x.signature = r.expected → x.comparesOk = true →
    exec (.bistEngineEnd u x) s = .next (s.setBistRec u
      { r with result := 3, sigValid := true, verified := true, signature := x.signature, failPart := 0, failAddr := 0 })) ∧
  (∀ (s : State) (u : UnitId) (x : EngineResult) (r : BistRec), testable u = true →
    s.bistRec u = some r → r.active = true → r.result = 2 → (x.signature ≠ r.expected ∨ x.comparesOk = false) →
    exec (.bistEngineEnd u x) s = .next ((s.setBistRec u
      { r with result := 4, sigValid := true, verified := false, signature := x.signature, failPart := x.failPart, failAddr := x.failAddr }).markUnit
      u)) ∧
  (∀ (s : State) (u : UnitId), testable u = true →
    u ∈ s.testsEnded →
    exec (.bistReinitComplete u) s = .next (s.testDone u)) ∧
  (∀ (s : State) (u : UnitId) (r : BistRec), testable u = true →
    s.bistRec u = some r → r.active = true → r.result = 1 → s.isolated u = false →
    exec (.bistNotIdleTimeout u) s = .next (s.abortTests (fun v => decide (v = u)) 4)) ∧
  (∀ (s : State) (mon : BitVec 9) (k : BitVec 3) (cyc : BitVec 64) (ctx : BitVec 128) (m : Pmon) (c : PmonCounter) (u : State), pmonExists mon.toNat =
      true →
    m = s.pmonOf mon.toNat → c = m.counter k.toNat → c.enabled = true → m.frozen = false → s.pmonClocked mon.toNat = true →
    (eventCounted c.event = false ∨ 0 < c.wraps) → (u = s.modPmon mon.toNat fun m => m.modCounter k.toNat PmonCounter.wrap) →
    c.samples = false →
    exec (.pmonCounterWrap mon k cyc ctx) s = .next (u)) ∧
  (∀ (s : State) (mon : BitVec 9) (k : BitVec 3) (cyc : BitVec 64) (ctx : BitVec 128) (m : Pmon) (c : PmonCounter) (u : State), pmonExists mon.toNat =
      true →
    m = s.pmonOf mon.toNat → c = m.counter k.toNat → c.enabled = true → m.frozen = false → s.pmonClocked mon.toNat = true →
    (eventCounted c.event = false ∨ 0 < c.wraps) → (u = s.modPmon mon.toNat fun m => m.modCounter k.toNat PmonCounter.wrap) → c.samples = true →
    m.samples.length < 64 → m.samples.length ≠ 31 →
    exec (.pmonCounterWrap mon k cyc ctx) s = .next (u.modPmon mon.toNat fun m =>
      { m with samples := m.samples ++ [{ cycles := cyc, k := k.setWidth 8, event := BitVec.ofNat 16 c.event, ctx := ctx }] })) ∧
  (∀ (s : State) (mon : BitVec 9) (k : BitVec 3) (cyc : BitVec 64) (ctx : BitVec 128) (m : Pmon) (c : PmonCounter) (u : State), pmonExists mon.toNat =
      true →
    m = s.pmonOf mon.toNat → c = m.counter k.toNat → c.enabled = true → m.frozen = false → s.pmonClocked mon.toNat = true →
    (eventCounted c.event = false ∨ 0 < c.wraps) → (u = s.modPmon mon.toNat fun m => m.modCounter k.toNat PmonCounter.wrap) → c.samples = true →
    64 ≤ m.samples.length →
    exec (.pmonCounterWrap mon k cyc ctx) s = .next (u.modPmon mon.toNat fun m => { m with samplesLost := inc48 m.samplesLost })) ∧
  (∀ (s : State) (t : Nat) (clear : Bool) (u v w : State), s.bist.pending = some (t, clear) →
    s.running = true → t ≤ s.fabNs → u = s.each pmonMons State.captureMon → (v = u.each u.allPorts fun x p => x.captureMarks p clear) →
    (w = if clear then v.each (List.range 128) State.resetPenaltyHwm else v) →
    exec .snapshotCapture s = .next ((w.modBist fun b => { b with pending := none, snapSeq := b.snapSeq + 1, snapTime := t, skewOk := true }).raise 0x0D01
      [((w.bist.snapSeq + 1).toNat, 2), (t / 1000000000, 6), (t % 1000000000, 4), (1, 1)] []))

/-- R2, R3, R358, R465, R467, R468, R469, R471, R473, R475, R476: POWER_ON starts the booth controller; below 0 °C a part holds, or pre-heats if it is an XM5120-LC-X; each
rail that is good starts the next; a rail not good in time, or a core clock that does not start, fails the sequence, and a rail lost while the core die is on takes it
down; with all rails good the core die is released; an image is selected or the boot fails; BOOT_READY makes the mailboxes available and raises EV_BOOT. -/
def Obligations.BootEventsAct : Prop :=
  (∀ (s : State), s.power.started = false →
    exec .powerOn s = .next ((s.modPower fun x => { x with started := true, boot := .powerOn }).newNonce.boothStart)) ∧
  (∀ (s : State) (temp : Int) (u : State), s.part.lcX = false →
    s.slots.restarting = false → s.power.plan = .check → temp < 0 →
    (u = ((s.modPower fun x => { x with plan := .hold, holdSince := some s.now }).modMgmt fun m => { m with stage := stageHeld }).report 0xE04 0x01 0) →
    exec (.coldHoldCheck temp) s = .next (u.raise 0x0E07 [((BitVec.ofInt 16 temp).toNat, 2), (0, 1), (0, 8)] [])) ∧
  (∀ (s : State) (temp : Int), s.part.lcX = false →
    s.slots.restarting = false → s.power.plan = .check → 0 ≤ temp →
    exec (.coldHoldCheck temp) s = .next (s.railsOn)) ∧
  (∀ (s : State) (temp : Int), s.part.lcX = false →
    s.slots.restarting = false → s.power.plan = .hold → 0 ≤ temp →
    exec (.coldHoldCheck temp) s = .next (((s.evColdHold temp true).modPower fun x => { x with holdSince := none }).railsOn)) ∧
  (∀ (s : State) (temp : Int), s.part.lcX = true →
    s.slots.restarting = false → s.power.plan = .check →
    exec (.preheatCheck temp) s = .next (if temp < 0 then s.preheatStart else s.railsOn)) ∧
  (∀ (s : State) (temp : Int), s.part.lcX = true →
    s.slots.restarting = false → s.power.plan = .preheat →
    exec (.preheatCheck temp) s = .next (if temp < 0 then s else s.railsOff .downPreheat)) ∧
  (∀ (s : State), s.power.plan = .preheat →
    exec .preheatTimeout s = .next (s.railsOff .downPreheatTimeout)) ∧
  (∀ (s : State), s.power.plan = .preheatWait →
    exec .preheatRetry s = .next (s.preheatStart)) ∧
  (∀ (s : State) (r : RailNo) (n : Nat), s.railRising r.val = true →
    ((s.power.plan.order.filter fun n => decide (r.val < n)).head? = some n) →
    exec (.railPowerGood r) s = .next (s.modPower fun x => { x with ok := setAt x.ok r.val true, en := setAt x.en n true })) ∧
  (∀ (s : State) (r : RailNo), s.railRising r.val = true →
    ((s.power.plan.order.filter fun n => decide (r.val < n)).head? = none) → s.power.plan = .up →
    exec (.railPowerGood r) s = .next (s.modPower fun x => { x with ok := setAt x.ok r.val true, plan := .upDone })) ∧
  (∀ (s : State) (r : RailNo), s.railRising r.val = true →
    exec (.railPowerGoodTimeout r) s = .next (((s.evSeqFail r.val).modPower fun x => { x with seqFails := x.seqFails + 1 }).railsOff .downFailed)) ∧
  (∀ (s : State), s.power.plan = .retry →
    exec .railSequenceRetry s = .next (s.railStart)) ∧
  (∀ (s : State) (r : RailNo), s.power.coreOn = true →
    nth false s.power.ok r.val = true →
    exec (.railPowerFail r) s = .next (((s.coreReset.modPower fun x => { x with boot := .warm, ok := setAt x.ok r.val false }).evSeqFail r.val).railsOff
      .downLost)) ∧
  (∀ (s : State) (r : RailNo), s.power.plan.down = true →
    nth false s.power.ok r.val = true → nth false s.power.en r.val = false →
    exec (.railPwrOkFall r) s = .next ((s.modPower fun x => { x with ok := setAt x.ok r.val false }).railsNext 6)) ∧
  (∀ (s : State), s.power.plan = .upDone →
    s.power.coreOn = false →
    exec .refclkCoreStartTimeout s = .next ((((s.modPower fun x => { x with refclkCore := false }).evSeqFail 5).modPower fun x =>
      { x with seqFails := x.seqFails + 1 }).railsOff .downFailed)) ∧
  (∀ (s : State), s.power.plan = .upDone →
    s.power.coreOn = false →
    exec .coreRelease s = .next ((s.modPower fun x => { x with coreOn := true, refclkCore := true, seqFails := 0 }).modMgmt fun m =>
      { m with stage := stageRom, bootStart := s.now })) ∧
  (∀ (s : State) (ok : Bool), s.power.coreOn = true →
    s.mgmt.stage = stageRom →
    exec (.imageSelect ok) s = .next (if ok then (s.modMgmt Mgmt.chooseImage).answerHeld else s.modMgmt fun m =>
      { m with stage := stageFailed, bootErr := 1 })) ∧
  (∀ (s : State) (u v w : State), s.power.coreOn = true →
    s.mgmt.stage = stageLoad → s.power.wakeSrc = none →
    (u = (s.modMgmt fun m =>
      { m with stage := stageReady, bootMs := BitVec.ofNat 16 (min 65535 ((s.now - m.bootStart) / 1000000)), loggedSinceWeft := 0 }).loadDirectory.copyBooth)
      →
    (v = ((if s.power.boot = .wake then u.wakeRestore else u).updateService.serveMailboxes.modFaults fun f => f.ready s.now (decide (s.power.boot =
      .wake))).modPower fun x => { x with inter := .no, retention := none, wakeSrc := none }) →
    (w = if v.mgmt.fallback then v.raise 0x0002 [(v.mgmt.bootErr.toNat, 1)] [] else v) →
    exec .bootReady s = .next ((w.raise 0x0001 [(b2n w.mgmt.image, 1), (w.mgmt.fwVersion.toNat, 3)] []).answerHeld))

/-- R461, R462, R463, R464, R477, R478, R487, R488, R489, R493, R494, R495, R496, R508: a cold reset clears all but what Table 14.1 keeps and restarts the booth controller; a
warm reset resets the core die; a brownout leaves what is not volatile; a weft reset ends with new services; draining ends in Intermission with the retained state; wake
sources wake; power and temperature step the ladder and report; clock losses report, and the core clock's takes the core die down; a valid token unlocks JTAG. -/
def Obligations.ResetAndPowerEventsAct : Prop :=
  (∀ (s : State) (u : State), s.power.started = true →
    u =
      { s.coreReset with mgmt := { s.coreReset.mgmt with serialPtr := 0, serialData := [], serialAck := false }, car := {}, bist := {}, sideband := { hostIn := s.sideband.hostIn, herIn := s.sideband.herIn }, faults := { s.coreReset.faults with ffr := none, firstFatal := none, aliveLevel := false }, power := { started := true, boot := .cold, refclkAo := s.coreReset.power.refclkAo, refclkCore := s.coreReset.power.refclkCore } }
      →
    exec .coldReset s = .next ((u.raise 0x0E01 [(1, 1), (0, 1)] []).newNonce.boothRestart)) ∧
  (∀ (s : State), s.power.coreOn = true →
    exec .warmReset s = .next ((s.coreReset.modPower fun x => { x with boot := .warm }).raise 0x0E01 [(2, 1), (if s.power.warmDue then 2 else 1, 1)] [])) ∧
  (∀ (s : State) (m : Mgmt), m = s.mgmt.coreReset s.now →
    exec .supplyBrownout s = .next
      ({ State.reset with pending := s.pending, now := s.now, free := s.free, part := s.part, mgmt := { dir0 := m.dir0, dir1 := m.dir1, imageA := m.imageA, imageB := m.imageB, fusedSvn := m.fusedSvn, lastChecked := m.lastChecked, cal := m.cal, unavailableAt := s.now }, pwA := s.pwA.coreReset, pwB := s.pwB.coreReset, sideband := { hostIn := s.sideband.hostIn, herIn := s.sideband.herIn }, slots := { profile := s.slots.profile, vfeed := s.slots.vfeed, chans := Tab.mapAll {} s.slots.chans fun x => { prsntHigh := x.prsntHigh, absent := x.prsntHigh, sample := x.sample } } })) ∧
  (∀ (s : State) (b : Bool) (u v : State), s.mgmt.weftReset = true →
    (u = s.finishTests.modMgmt fun m =>
      { m with image := (if m.newImage then !m.image else m.image), fwVersion := (if m.newImage then (m.slot (if m.newImage then !m.image else m.image)).info.version else m.fwVersion), trial := m.trial || m.newImage, fallback := m.fallback && !m.newImage, stage := stageReady, weftReset := false, newImage := false })
      →
    b = s.mgmt.stagedDropped → (v = u.serveMailboxes.modFaults fun f => { f with suspended := false, refreshed := s.now }) →
    exec .weftResetEnd s = .next (((v.raise 0x0003 [(v.mgmt.fwVersion.toNat, 3), (b2n b, 1)] []).modMgmt fun m =>
      { m with stagedDropped := false }).answerHeld)) ∧
  (∀ (s : State) (r : RingNo), exec (.ringResetDiscardEnd r) s = .next (s.modPower fun x =>
      { x with ringDiscard := Tab.put false x.ringDiscard r.val false })) ∧
  (∀ (s : State) (u : State), s.running = true →
    s.power.inter = .entering →
    u =
      { s.coreReset with mgmt := { s.coreReset.mgmt with stage := stageIntermission }, faults := { s.coreReset.faults with severity := s.faults.severity, ffrLevel := s.faults.ffrLevel, aliveRunning := s.faults.aliveRunning }, power := { s.coreReset.power with retention := some s.retain, inter := .railsFalling, interSince := s.now, boot := .wake } }
      →
    exec .intermissionDrainEnd s = .next ((u.modPower fun x => { x with plan := .downIntermission, coreOn := false }).railsNext 6)) ∧
  (∀ (s : State), s.wakeOn 1 = true →
    s.power.plan ≠ .gaveUp → s.power.inter = .asleep →
    exec .wakeNEdge s = .next ((s.modPower fun x => { x with inter := .waking, wakeSrc := some 1 }).railStart)) ∧
  (∀ (s : State), s.power.wakeTimer ≠ 0 →
    s.power.inter = .asleep → s.wakeOn 4 = true → s.power.plan ≠ .gaveUp →
    exec .wakeTimerExpiry s = .next ((s.modPower fun x => { x with inter := .waking, wakeSrc := some 4 }).railStart)) ∧
  (∀ (s : State) (mw : Nat) (u : State), s.govRuns = true →
    (u = s.modGov fun g => g.measure mw) →
    exec (.governorMeasure mw) s = .next (if u.power.gov.step = s.power.gov.step then u else (u.report 0xC05 0x01 0).checkLapses)) ∧
  (∀ (s : State), s.govRuns = true →
    4 ∉ s.mgmt.cal.invalid → 50 ≤ s.power.gov.sinceLadder →
    exec .vidUpdate s = .next (s.modGov fun g => { g with vid := vidStep g.vid (Config.vidTarget (s.mgmt.cal.read 0x8F00 0x400) g.tj) })) ∧
  (∀ (s : State) (tj : Int) (u v : State), s.govRuns = true →
    (u = s.modGov fun g => g.thermal tj) → (v = if 105 ≤ tj ∧ s.power.gov.hot = false then u.report 0xC06 0x01 0 else u) →
    exec (.thermalCheck tj) s = .next ((if 115 ≤ tj then v.report 0xC06 0x02 0 else v).checkLapses)) ∧
  (∀ (s : State) (r : RailNo), s.power.coreOn = true →
    exec (.railFault r) s = .next (s.report 0xC07 0x01 0)) ∧
  (∀ (s : State), s.power.refclkAo = true →
    exec .refclkAoLoss s = .next ((s.modPower fun x => { x with refclkAo := false }).report 0xE03 0x01 0)) ∧
  (∀ (s : State), exec .refclkAoReturn s = .next (s.modPower fun x => { x with refclkAo := true })) ∧
  (∀ (s : State) (r : RingNo), s.power.coreOn = true →
    s.ringIsOff r.val = false →
    exec (.refclkLoss r) s = .next (s.each ((List.range 8).map fun k => 8 * r.val + k) fun t q => t.report (BitVec.ofNat 12 (0x200 + q)) 0x01 0)) ∧
  (∀ (s : State) (u : State), s.power.coreOn = true →
    (u = s.modPower fun x => { x with refclkCore := false }) →
    exec .refclkCoreLoss s = .next (((u.coreReset.modPower fun x => { x with boot := .warm, ok := setAt x.ok 5 false }).evSeqFail 5).railsOff .downLost)) ∧
  (∀ (s : State) (token : BitVec 768), exec (.jtagUnlock token) s = .next (if Config.ecdsaVerify Config.unlockKey (Config.sha384 (bytesOf 8
      s.part.nodeUid.toNat ++ bytesOf 4 s.power.jtagNonce.toNat)) token then s.modPower (fun x => { x with jtagUnlocked := true }) else s))

/-- A step with command c at the front of the queue is exec of c on the state with the rest of the queue. With no command waiting the step answers a next state in which one
ns has passed and the fabric time counter has advanced where the core die is powered, and nothing else is changed; that idling is the model's choice (log entry 1, DESIGN
CHOICE). -/
def Obligations.StepRunsFront : Prop :=
  ((∀ (c : Instr) (rest : List Instr) (s : State), step { s with pending := c :: rest } = exec c { s with pending := rest })) ∧
  ((∀ s : State, s.pending = [] → step s = .next { s with now := s.now + 1, fabric := { s.fabric with time := if s.power.coreOn then s.fabric.time.advance else s.fabric.time } }))

/-- For every command and every state: exec answers a next state when the command is well-formed, and the fault illFormed when it is not. No meaning refuses, and no ordinary
data ends a run. That a command with operands that no bus, link or register can carry is a fault is the model's choice (log entry 3). -/
def Obligations.WellFormedCommandsComplete : Prop :=
  ((∀ (i : Instr) (s : State), i.wellFormed = true → ∃ t : State, exec i s = .next t)) ∧
  ((∀ (i : Instr) (s : State), i.wellFormed = false → exec i s = .fault .illFormed))

/-- For every command and every state that keeps the bounds State.Sound: where exec answers a next state, the queue of waiting commands, the count of ns and what manufacture
fixed of the part are as they were. The queue and the clock are the model's own (log entry 1). -/
def Obligations.CommandsLeaveQueueClockAndPart : Prop :=
  (∀ (i : Instr) (s t : State), s.Sound → exec i s = .next t → t.pending = s.pending ∧ t.now = s.now ∧ t.part = s.part)

/-- The event log of the state after reset holds at most 512 entries, ns of fabric time is below one second, the fault log holds at most 1,024 records and the booth
controller's store at most 64, and ALIVE does not toggle while the XM5120 is stopped. -/
def Obligations.SoundAtReset : Prop :=
  State.reset.Sound

/-- From every state that keeps the bounds, whatever command is at the front of the queue, a step that answers a next state answers one that keeps them: the event log holds
at most 512 entries, ns of fabric time is below one second, the fault log holds at most 1,024 records and the booth controller's store at most 64, and ALIVE does not
toggle while the XM5120 is stopped. -/
def Obligations.SoundKept : Prop :=
  (∀ s t : State, s.Sound → step s = .next t → t.Sound)

/-- Reading the frame header of Table 4.2 from the 32 bytes that carry it gives back every field of every header, and the bytes of a frame begin with them. A frame with
payload length up to 4,096 takes the blocks of R92: the least number of blocks of 240 bytes that hold 32 + L bytes, and at most 18. The command header of Table 11.4 is
read from CMD at the places that table gives. -/
def Obligations.HeaderRoundTrip : Prop :=
  ((∀ h : Hdr, Hdr.ofNat h.toNat = h)) ∧
  ((∀ f : Frame, Hdr.ofNat (natOf (f.bytes.take 32)) = f.hdr)) ∧
  ((∀ len : Nat, len ≤ 4096 → 32 + len ≤ 240 * blocksFor len ∧ 240 * blocksFor len < 32 + len + 240 ∧ blocksFor len ≤ 18)) ∧
  ((∀ (m : Mailbox) (op tag len session : Nat) (dry : Bool), op < 2 ^ 16 → tag < 2 ^ 16 → len < 2 ^ 12 → session < 2 ^ 32 →
      m.cmd = cellsWrite [] 0 (bytesOf 16 (op + tag * 2 ^ 16 + len * 2 ^ 32 + b2n dry * 2 ^ 48 + session * 2 ^ 64)) →
      m.cmdHdr = { opcode := op, tag := BitVec.ofNat 16 tag, length := len, dryRun := dry, reserved := false, session := BitVec.ofNat 32 session }))

/-- R382. Each of the 139 commands other than SYS_QUERY, MB_QUERY and SESSION_OPEN that begins without the token of the mailbox's open session is answered NO_SESSION, and
nothing else comes of it; so is a command whose opcode no table gives, at its doorbell. SYS_QUERY and MB_QUERY whose other checks pass are answered SUCCESS whatever
SESSION holds, and SESSION_OPEN opens a session where none is open. -/
def Obligations.CommandNeedsSession : Prop :=
  ((∀ (i : Instr) (s : State) (mb : Mb) (op : Nat) (priv : Bool), commandOf i = some (mb, op, priv) → sessionless op = false → s.Begins mb op →
      (s.mbox mb).tokenOk (s.mbox mb).cmdHdr.session = false →
      exec i s = .next (s.complete mb (s.mbox mb).cmdHdr stNoSession 0 []))) ∧
  ((∀ (s : State) (mb : Mb), (s.mbox mb).busy = false → opcodeKnown (s.mbox mb).cmdHdr.opcode = false → s.serves mb = true → (s.mbox mb).cmdHdr.length ≤ 4080 →
      (s.mbox mb).tokenOk (s.mbox mb).cmdHdr.session = false →
      exec (.doorbell mb) s = .next ((s.setMbox mb { s.mbox mb with busy := true }).complete mb (s.mbox mb).cmdHdr stNoSession 0 []))) ∧
  ((∀ (s : State) (mb : Mb) (pl : Nat), s.Admits { opcode := 0x0000, priv := false, open_ := true, recovery := true, stopped := true, query := true } mb pl → ∃ resp : List Byte, exec (.sysQuery mb) s = .next (s.ended (s.begun mb) mb resp))) ∧
  ((∀ (s : State) (mb : Mb) (pl : Nat), s.Admits { opcode := 0x0004, priv := false, open_ := true, query := true } mb pl → ∃ resp : List Byte, exec (.mbQuery mb) s = .next (s.ended (s.begun mb) mb resp))) ∧
  ((∀ (s : State) (mb : Mb) (pl lease : Nat), s.Admits { opcode := 0x0100, priv := false, open_ := true, recovery := true, stopped := true, len := fun _ => 4, fields := [(0, 1), (16, 12)], checks := fun pl => [(16, decide (fld pl 16 12 ≤ 3600))] } mb pl → (s.mbox mb).session = none → lease = (if fld pl 16 12 = 0 then 60 else fld pl 16 12) →
      ∃ (t : State) (token : BitVec 32) (resp : List Byte), token ≠ 0 ∧ exec (.sessionOpen mb) s = .next (s.ended t mb resp) ∧
        (t.mbox mb).session = some { token := token, lease := lease, leaseEnd := s.now + lease * 1000000000 }))

/-- R377, R85. Each privileged command that begins in a tenant mailbox, accepted by its session and no repeat, is answered NOT_PERMITTED (or, if the boot ROM serves the
mailbox, INVALID_OPCODE), the lease of the session is renewed, and nothing outside the mailboxes and the frames that notify or answer is changed. -/
def Obligations.PrivilegedCommandsRefused : Prop :=
  ((∀ (i : Instr) (s : State) (mb : Mb) (op : Nat), commandOf i = some (mb, op, true) → privilegedMb mb = false → s.Begins mb op → s.mgmt.stage ≠ stageRecovery →
      (s.mbox mb).tokenOk (s.mbox mb).cmdHdr.session = true → (s.mbox mb).repeated (s.mbox mb).cmdHdr = none →
      exec i s = .next ((s.begun mb).complete mb (s.mbox mb).cmdHdr stNotPermitted 0 []))) ∧
  ((∀ (i : Instr) (s t : State) (mb : Mb) (op : Nat), commandOf i = some (mb, op, true) → privilegedMb mb = false → exec i s = .next t → s.AlikeOutside t))

/-- R378. A command whose opcode, SEQ_TAG and SESSION are those of the mailbox's stored response, and whose session is accepted, is not executed: RESP takes the stored
response with REPEATED (bit 49) set, the lease is renewed, and what is stored stays. What a command that is no dry run stores is its own response. -/
def Obligations.RepeatedCommandNotRun : Prop :=
  ((∀ (i : Instr) (s : State) (mb : Mb) (op : Nat) (priv : Bool) (r : List Host.Cell), commandOf i = some (mb, op, priv) → s.Begins mb op →
      (sessionless op = true ∨ (s.mbox mb).tokenOk (s.mbox mb).cmdHdr.session = true) → (s.mbox mb).repeated (s.mbox mb).cmdHdr = some r →
      exec i s = .next ((s.begun mb).respond mb (cellsRead (Tab.put 0 r 6 (Tab.get 0 r 6 ||| 1)) 0 (16 + fld (cellsNat r 4 2) 0 12)) none))) ∧
  ((∀ (s : State) (n status detail : Nat) (h : CmdHdr) (payload : List Byte) (t : State), t = s.complete n h status detail payload →
      (t.mbox n).stored = if h.dryRun then (s.mbox n).stored else
        some { opcode := BitVec.ofNat 16 h.opcode, tag := h.tag, session := h.session, resp := cellsWrite [] 0 (respBytes h status detail payload) }))

/-- R379. A command with DRY_RUN set that leads to a next state leaves everything outside the mailboxes and the frames that notify or answer as it was, and every other
mailbox; in its own mailbox the response stored for R378, the command, the subscriptions, the notification and the event queue stay. -/
def Obligations.DryRunChangesNothing : Prop :=
  (∀ (i : Instr) (s t : State) (mb : Mb) (op : Nat) (priv : Bool), commandOf i = some (mb, op, priv) → (s.mbox mb).cmdHdr.dryRun = true → exec i s = .next t →
      s.AlikeOutside t ∧ (∀ j : Nat, j ≠ mb.val → t.mbox j = s.mbox j) ∧
      (t.mbox mb).stored = (s.mbox mb).stored ∧ (t.mbox mb).cmd = (s.mbox mb).cmd ∧ (t.mbox mb).subs = (s.mbox mb).subs ∧
      (t.mbox mb).notify = (s.mbox mb).notify ∧ (t.mbox mb).evq = (s.mbox mb).evq ∧ (t.mbox mb).evqHead = (s.mbox mb).evqHead ∧ (t.mbox mb).evqTail = (s.mbox mb).evqTail)

/-- R374, R376, R397. Where the mailbox is not BUSY, or Efnuquin does not serve it, or another command stands in it, the event that this command begins has no effect. -/
def Obligations.CommandWaits : Prop :=
  (∀ (i : Instr) (s : State) (mb : Mb) (op : Nat) (priv : Bool), commandOf i = some (mb, op, priv) →
      ((s.mbox mb).busy = false ∨ s.serves mb = false ∨ (s.mbox mb).cmdHdr.opcode ≠ op) → exec i s = .next s)

/-- R374, Table 11.5. After a command completes, its mailbox is not BUSY, DONE is set, and RESP reads as the response header of Table 11.5 followed by the payload; STATUS and
DETAIL are read at the places of that table; CMD stays, and every other mailbox. -/
def Obligations.ResponseInPlace : Prop :=
  (∀ (s : State) (n status detail : Nat) (h : CmdHdr) (payload : List Byte) (t : State), t = s.complete n h status detail payload →
      (t.mbox n).busy = false ∧ (t.mbox n).done = true ∧ (t.mbox n).cmd = (s.mbox n).cmd ∧
      cellsRead (t.mbox n).resp 0 (16 + payload.length) = respBytes h status detail payload ∧
      cellsRead (t.mbox n).resp 7 1 = [BitVec.ofNat 8 status] ∧ cellsRead (t.mbox n).resp 8 4 = bytesOf 4 detail ∧
      (∀ j : Nat, j ≠ n → t.mbox j = s.mbox j))

/-- R375. EVENT is 0 exactly when EVQ_HEAD equals EVQ_TAIL; a queue that holds fewer than 63 entries takes an event at EVQ_TAIL (an entry of zeros is read there where EVQ is
in canonical form), and one that holds 63 does not; a write of EVQ_HEAD takes effect exactly when going up cyclically from EVQ_HEAD the new value comes no later than
EVQ_TAIL. -/
def Obligations.EventQueueHead : Prop :=
  ((∀ m : Mailbox, (m.event = false ↔ m.evqHead = m.evqTail) ∧ m.queued = (m.evqTail.toNat + 64 - m.evqHead.toNat) % 64)) ∧
  ((∀ (s : State) (n : Nat) (e : EvEntry), (s.mbox n).queued < 63 →
      ((s.deliver e n).mbox n).evqTail = (s.mbox n).evqTail + 1 ∧ ((s.deliver e n).mbox n).queued = (s.mbox n).queued + 1 ∧
      (e ≠ {} ∨ Tab.wf {} (s.mbox n).evq = true → Tab.get {} ((s.deliver e n).mbox n).evq (s.mbox n).evqTail.toNat = e))) ∧
  ((∀ (s : State) (n : Nat) (e : EvEntry), (s.mbox n).queued = 63 →
      ((s.deliver e n).mbox n).evqTail = (s.mbox n).evqTail ∧ ((s.deliver e n).mbox n).evqHead = (s.mbox n).evqHead ∧ ((s.deliver e n).mbox n).evq = (s.mbox n).evq)) ∧
  ((∀ (s : State) (mb : Mb) (v : BitVec 6) (m : Mailbox), m = s.mbox mb →
      exec (.evqHeadWrite mb v) s = .next (if (v.toNat + 64 - m.evqHead.toNat) % 64 ≤ (m.evqTail.toNat + 64 - m.evqHead.toNat) % 64
        then s.setMbox mb { m with evqHead := v } else s.setMbox mb m)))

/-- R384, R383, Table 11.3. An event for a mailbox whose queue holds 63 entries sets EVQ_OVERFLOW and increments EVQ_LOST, and no other mailbox is changed; an event that is
raised is the newest entry of the event log, which holds its code and its data. -/
def Obligations.EventFindsFullQueue : Prop :=
  ((∀ (s : State) (n : Nat) (e : EvEntry), (s.mbox n).queued = 63 →
      ((s.deliver e n).mbox n).evqOverflow = true ∧ ((s.deliver e n).mbox n).evqLost = inc16 (s.mbox n).evqLost ∧
      (∀ j : Nat, j ≠ n → (s.deliver e n).mbox j = s.mbox j))) ∧
  ((∀ (s : State) (code : BitVec 16) (data : List (Nat × Nat)) (owners : List (BitVec 8)), (s.raise code data owners).mgmt.log.getLast? =
      some { entry := s.eventEntry code (packVals data), owners := owners } ∧ (s.eventEntry code (packVals data)).code = code))

/-- The defaults after cold reset that the manual states: MB0 and MB63 are subscribed to every group and the tenant mailboxes to none, no mailbox has a session, every tenant
mailbox is owned by partition 0 and the MB0 lists are empty (R370, R373, R383); ports and Jugglers belong to partition 0 with TRUST AUTO and no partition but 0 is usable
(R236, R283, R511); the defaults of LINK_CONFIG, of FABRIC_CONFIG, of the scheduler and of penalty queues (Table 3.15, Table 4.12, R207, R219); the lane alarm threshold
(R81); both Patchwork ports DISABLED (R306); and the defaults of Table 10.2. -/
def Obligations.ResetValues : Prop :=
  ((∀ n : Nat, (State.reset.mbox n).subs = (if n = 0 ∨ n = 63 then 0xFFFF else 0) ∧ (State.reset.mbox n).session = none ∧ (State.reset.mbox n).owner = 0 ∧ (State.reset.mbox n).evqHead = (State.reset.mbox n).evqTail)) ∧
  ((State.reset.mgmt.portList = [] ∧ State.reset.mgmt.switchList = [] ∧ State.reset.mgmt.log = [] ∧ State.reset.faults.log = [])) ∧
  ((∀ p : Nat, State.reset.portOwner p = 0 ∧ Tab.get 0 State.reset.policy.trust p = 0 ∧ (State.reset.juggler p).owner = 0 ∧ Tab.get false State.reset.parts.usable p = false ∧ Tab.get false State.reset.parts.timing p = false)) ∧
  ((∀ p : Nat, (State.reset.link p).replayTimer = 16 ∧ (State.reset.link p).replayLimit = 4 ∧ (State.reset.link p).leakThresh = 8 ∧ (State.reset.link p).npExpiry = 1000 ∧ (State.reset.lane p).threshold = 212500)) ∧
  ((State.reset.fabric.lifetimeMs = 50 ∧ State.reset.fabric.cplTimeoutMs = 500 ∧ State.reset.fabric.managed = false)) ∧
  ((∀ p k : Nat, ((State.reset.schedOf p).queue k).weight = 1 ∧ ((State.reset.schedOf p).queue k).band = (if k = 8 then 0 else 1) ∧ (State.reset.schedOf p).gate = none ∧ (State.reset.penalty k).limit = 64)) ∧
  ((State.reset.pwA.personality = .disabled ∧ State.reset.pwB.personality = .disabled)) ∧
  ((∀ c : Nat, (State.reset.chan c).set = { enable := false, autoOn := false, hostPower := false, vLim := 100, breaker := 10, prechargeMax := 200, pgDelay := 50, pfwLead := 5, retryMax := 7 } ∧ State.reset.slots.bus = { warnLevel := 176, resetLevel := 152, startLimit := 4, staggerGap := 10 }))
end

