-- ==== Sys2Proof/Laws/Tab.lean ====
section
/-!
SUPPORT. Laws of the sparse tables: reading after writing, and the canonical form kept.
-/

namespace Sys2Proof

@[simp] theorem Tab.get_nil {α : Type} (d : α) (k : Nat) : Tab.get d [] k = d := rfl

/-- What is written and differs from the default is read back, in any table. -/
theorem Tab.get_put_self_of_ne {α : Type} [DecidableEq α] {d v : α} (h : v ≠ d) (t : Tab α) (k : Nat) : Tab.get d (Tab.put d t k v) k = v := by
  induction t with
  | nil => simp [Tab.put, Tab.get, h]
  | cons e r ih =>
    simp only [Tab.put, if_neg h]
    split
    · simp [Tab.get]
    · split
      · simp [Tab.get]
      · simp [Tab.get, *]

/-- A write leaves every other unit alone, in any table, whatever the default of that unit. -/
theorem Tab.get_put_other {α : Type} [DecidableEq α] (d d' v : α) (t : Tab α) {j k : Nat} (h : j ≠ k) :
    Tab.get d' (Tab.put d t k v) j = Tab.get d' t j := by
  induction t with
  | nil =>
    simp only [Tab.put]
    split <;> simp [Tab.get, h]
  | cons e r ih =>
    simp only [Tab.put]
    split
    · split <;> simp [Tab.get, h]
    · split
      · rename_i hk
        subst hk
        split <;> simp [Tab.get, h]
      · simp [Tab.get, ih]

/-- A unit below every listed one holds the default. -/
theorem Tab.get_of_above {α : Type} (d : α) {t : Tab α} {k : Nat} (h : Tab.above k t = true) : Tab.get d t k = d := by
  induction t with
  | nil => rfl
  | cons e r ih =>
    simp only [Tab.above, List.all_cons, Bool.and_eq_true, decide_eq_true_eq] at h
    simp only [Tab.get, if_neg (Nat.ne_of_lt h.1)]
    exact ih (by simpa [Tab.above] using h.2)

theorem Tab.above_mono {α : Type} {t : Tab α} {j k : Nat} (hjk : j ≤ k) (h : Tab.above k t = true) : Tab.above j t = true := by
  simp only [Tab.above, List.all_eq_true, decide_eq_true_eq] at h ⊢
  intro e he
  have := h e he
  omega

/-- What is written is read back from a table in canonical form. -/
theorem Tab.get_put_self {α : Type} [DecidableEq α] (d v : α) {t : Tab α} (k : Nat) (h : Tab.wf d t = true) : Tab.get d (Tab.put d t k v) k = v := by
  by_cases hv : v = d
  · subst hv
    induction t with
    | nil => simp [Tab.put]
    | cons e r ih =>
      simp only [Tab.wf, Bool.and_eq_true] at h
      simp only [Tab.put, if_pos]
      split
      · rename_i hk
        refine Tab.get_of_above v ?_
        simp only [Tab.above, List.all_cons, Bool.and_eq_true, decide_eq_true_eq]
        exact ⟨hk, Tab.above_mono (Nat.le_of_lt hk) h.1.1⟩
      · split
        · rename_i hk
          subst hk
          exact Tab.get_of_above v h.1.1
        · rename_i hk
          simp only [Tab.get, if_neg hk]
          exact ih h.2
  · exact Tab.get_put_self_of_ne hv t k

theorem Tab.above_put {α : Type} [DecidableEq α] (d v : α) {t : Tab α} {j k : Nat} (hjk : j < k) (h : Tab.above j t = true) :
    Tab.above j (Tab.put d t k v) = true := by
  induction t with
  | nil =>
    simp only [Tab.put]
    split <;> simp [Tab.above, hjk]
  | cons e r ih =>
    have h' := h
    simp only [Tab.above, List.all_cons, Bool.and_eq_true, decide_eq_true_eq] at h
    have hr : Tab.above j r = true := by simpa [Tab.above] using h.2
    simp only [Tab.put]
    split
    · split
      · exact h'
      · simp only [Tab.above, List.all_cons, Bool.and_eq_true, decide_eq_true_eq]
        exact ⟨hjk, h.1, by simpa [Tab.above] using h.2⟩
    · split
      · split
        · exact hr
        · simp only [Tab.above, List.all_cons, Bool.and_eq_true, decide_eq_true_eq]
          exact ⟨hjk, by simpa [Tab.above] using h.2⟩
      · simp only [Tab.above, List.all_cons, Bool.and_eq_true, decide_eq_true_eq]
        exact ⟨h.1, by simpa [Tab.above] using ih hr⟩

/-- Writing keeps the canonical form. -/
theorem Tab.wf_put {α : Type} [DecidableEq α] (d v : α) {t : Tab α} (k : Nat) (h : Tab.wf d t = true) : Tab.wf d (Tab.put d t k v) = true := by
  induction t with
  | nil =>
    simp only [Tab.put]
    split <;> simp [Tab.wf, Tab.above, *]
  | cons e r ih =>
    have h' := h
    simp only [Tab.wf, Bool.and_eq_true, decide_eq_true_eq] at h
    simp only [Tab.put]
    split
    · rename_i hk
      split
      · exact h'
      · rename_i hv
        have hu : Tab.above k (e :: r) = true := by
          simp only [Tab.above, List.all_cons, Bool.and_eq_true, decide_eq_true_eq]
          exact ⟨hk, Tab.above_mono (Nat.le_of_lt hk) h.1.1⟩
        simp only [Tab.wf, Bool.and_eq_true, decide_eq_true_eq]
        exact ⟨⟨hu, hv⟩, h⟩
    · split
      · rename_i hk
        subst hk
        split
        · exact h.2
        · rename_i hv
          simp only [Tab.wf, Bool.and_eq_true, decide_eq_true_eq]
          exact ⟨⟨h.1.1, hv⟩, h.2⟩
      · rename_i h1 h2
        simp only [Tab.wf, Bool.and_eq_true, decide_eq_true_eq]
        exact ⟨⟨Tab.above_put d v (by omega) h.1.1, h.1.2⟩, ih h.2⟩

/-- Changing one unit keeps the canonical form. -/
theorem Tab.wf_mod {α : Type} [DecidableEq α] (d : α) {t : Tab α} (k : Nat) (f : α → α) (h : Tab.wf d t = true) : Tab.wf d (Tab.mod d t k f) = true :=
  Tab.wf_put d _ k h

/-- Changing every listed unit keeps the canonical form. -/
theorem Tab.wf_mapAll {α : Type} [DecidableEq α] (d : α) {t : Tab α} (f : α → α) (h : Tab.wf d t = true) : Tab.wf d (Tab.mapAll d t f) = true := by
  induction t with
  | nil => rfl
  | cons e r ih =>
    simp only [Tab.wf, Bool.and_eq_true, decide_eq_true_eq] at h
    have hr := ih h.2
    simp only [Tab.mapAll, List.map_cons] at hr ⊢
    rw [List.filter_cons]
    split
    · rename_i hv
      simp only [decide_eq_true_eq] at hv
      simp only [Tab.wf, Bool.and_eq_true, decide_eq_true_eq]
      refine ⟨⟨?_, hv⟩, hr⟩
      have ha := h.1.1
      simp only [Tab.above, List.all_eq_true, decide_eq_true_eq] at ha ⊢
      intro x hx
      obtain ⟨y, hy, rfl⟩ := List.mem_map.1 (List.mem_filter.1 hx).1
      exact ha y hy
    · exact hr

end Sys2Proof
end

