-- ==== Sys2Proof/Laws/Command.lean ====
section
/-!
SUPPORT. What a mailbox command comes to: `runCmd` said once for a command that passes the checks of R377.
-/

namespace Sys2Proof.Machine

/-- A mailbox that is BUSY differs from one after cold reset. -/
theorem mailbox_ne_default {n : Nat} {m : Mailbox} (h : m.busy = true) : m ≠ mbDefault n := by
  intro he
  subst he
  simp only [mbDefault] at h
  split at h <;> simp at h

/-- A mailbox that is written BUSY is read back. -/
theorem State.mbox_setMbox_busy (s : State) (n : Nat) {m : Mailbox} (h : m.busy = true) : (s.setMbox n m).mbox n = m :=
  Tab.get_put_self_of_ne (mailbox_ne_default h) _ _

/-- Writing one mailbox leaves every other one. -/
theorem State.mbox_setMbox_other (s : State) {j n : Nat} (m : Mailbox) (h : j ≠ n) : (s.setMbox n m).mbox j = s.mbox j :=
  Tab.get_put_other _ _ _ _ h

/-- Renewing a lease leaves the command that stands in the mailbox. -/
theorem State.begun_mbox (s : State) (n : Nat) (h : (s.mbox n).busy = true) :
    (s.begun n).mbox n = { s.mbox n with session := (s.mbox n).session.map fun x =>
      if x.token = (s.mbox n).cmdHdr.session then { x with leaseEnd := s.now + x.lease * 1000000000 } else x } :=
  State.mbox_setMbox_busy _ _ h

/-- A change never breaks the isolation that it leaves as it was. -/
@[simp] theorem breaksTiming_self (s : State) : breaksTiming s s = false := by
  simp only [breaksTiming, List.any_eq_false]
  intro n _
  cases s.timingOk (BitVec.ofNat 8 n) <;> simp

/-- A command that passes the checks of R377 is judged by its own body. -/
theorem State.judge_admits {c : CmdSpec} {body : State → Nat → Nat → CmdResult} {n pl : Nat} {s : State} (h : s.Admits c n pl) :
    (s.begun n).judge c body n (s.mbox n).cmdHdr = (body (s.begun n) pl (s.mbox n).cmdHdr.length).isolate (s.begun n) := by
  obtain ⟨h1, -, -, -, -, -, -, h8, h9, h10, h11, h12, h13, h14⟩ := h
  have hcmd : cellsNat ((s.begun n).mbox n).cmd 16 (s.mbox n).cmdHdr.length = pl := by
    rw [State.begun_mbox s n h1, h14]
    rfl
  have hg : (s.begun n).gated c = false := h13
  have hs : ¬((s.begun n).mgmt.stage = stageRecovery ∧ c.recovery = false) := fun hr => by simp [h8 hr.1] at hr
  have hp : (c.priv && !privilegedMb n) = false := by
    cases hc : c.priv
    · rfl
    · simp [h9 hc]
  simp only [State.judge, hcmd, if_neg hs, hp, Bool.false_eq_true, if_false, if_neg (Nat.not_lt.2 h10), h11, h12, hg]

/-- A command that passes the checks of R377, and whose body ends with an effect that R272 lets stand, is answered SUCCESS. -/
theorem runCmd_admits {c : CmdSpec} {body : State → Nat → Nat → CmdResult} {n pl : Nat} {s t : State} {resp : List Byte}
    (h : s.Admits c n pl) (hb : body (s.begun n) pl (s.mbox n).cmdHdr.length = .done t resp) (ht : breaksTiming (s.begun n) t = false) :
    runCmd c body n s = s.ended t n resp := by
  have hj := State.judge_admits (body := body) h
  obtain ⟨h1, h2, h3, h4, h5, h6, h7, -⟩ := h
  have hnot : ¬((s.mbox n).busy = false ∨ s.serves n = false ∨ (s.mbox n).cmdHdr.opcode ≠ c.opcode) := by simp [h1, h2, h3]
  rw [hb] at hj
  simp only [CmdResult.isolate, ht, Bool.false_eq_true, if_false] at hj
  simp only [State.begun] at hj
  simp only [runCmd, if_neg hnot, if_neg (Nat.not_lt.2 h4), h5, h6, h7, hj, Bool.true_eq_false, Bool.false_eq_true, if_false, State.ended]

/-- A command that passes those checks and whose body fails is answered with the body's status and DETAIL, and the effect that the body leaves stands. -/
theorem runCmd_admits_fails {c : CmdSpec} {body : State → Nat → Nat → CmdResult} {n pl st d : Nat} {s t : State}
    (h : s.Admits c n pl) (hb : body (s.begun n) pl (s.mbox n).cmdHdr.length = .failWith t st d) :
    runCmd c body n s = t.complete n (s.mbox n).cmdHdr st d [] := by
  have hj := State.judge_admits (body := body) h
  obtain ⟨h1, h2, h3, h4, h5, h6, h7, -⟩ := h
  have hnot : ¬((s.mbox n).busy = false ∨ s.serves n = false ∨ (s.mbox n).cmdHdr.opcode ≠ c.opcode) := by simp [h1, h2, h3]
  rw [hb] at hj
  simp only [CmdResult.isolate] at hj
  simp only [State.begun] at hj
  simp only [runCmd, if_neg hnot, if_neg (Nat.not_lt.2 h4), h5, h6, h7, hj, Bool.true_eq_false, Bool.false_eq_true, if_false]

/-- What has to be shown of a command that is in order: what its own body comes to. -/
theorem obeys_of {c : CmdSpec} {body : State → Nat → Nat → CmdResult} {i : Instr} {n pl : Nat} {s t : State} {resp : List Byte}
    (h : s.Admits c n pl) (hi : exec i s = .next (runCmd c body n s))
    (hb : body (s.begun n) pl (s.mbox n).cmdHdr.length = .done t resp) : Obeys i s n t resp := by
  intro ht
  rw [hi, runCmd_admits h hb ht]

/-! ### Targets -/

/-- A privileged mailbox may name any owner's resource (R85). -/
theorem State.mayName_privileged {s : State} {n : Nat} (h : privilegedMb n = true) (o : BitVec 8) : s.mayName n o = true := by
  simp [State.mayName, h]

/-- Renewing a lease changes no ownership. -/
theorem State.mayName_begun {s : State} {n : Nat} (h : (s.mbox n).busy = true) (o : BitVec 8) : (s.begun n).mayName n o = s.mayName n o := by
  simp only [State.mayName, State.begun_mbox s n h]

/-- A command whose fields name a port that the mailbox may name acts on that port (R85, R513). -/
theorem State.onPort_named {s : State} {n q sub at_ p : Nat} {k : Nat → CmdResult} (hp : s.portNamed q sub = some p)
    (hm : s.mayName n (s.portOwner p) = true) : s.onPort n q sub at_ k = k p := by
  simp [State.onPort, hp, hm]

/-- The same for a native port. -/
theorem State.onNative_named {s : State} {n q at_ p : Nat} {k : Nat → CmdResult} (hp : s.portNamed q 0 = some p)
    (hm : s.mayName n (s.portOwner p) = true) (hn : (s.port p).pcie = false) : s.onNative n q at_ k = k p := by
  simp [State.onNative, State.onPort_named hp hm, hn]

/-- A command that names an instance acts on it. -/
theorem State.onInst_named {s : State} {n pl p id : Nat} {r : InstRec} {k : Nat → InstRec → CmdResult} (h : s.NamesInst n pl p id r) :
    s.onInst n (fld pl 0 8) (fld pl 8 8) k = k p r := by
  obtain ⟨h1, rfl, h3, h4, h5, h6⟩ := h
  simp only [State.onInst, h1]
  cases hs : Tab.get none s.policy.shared p with
  | none => simp [hs] at h3
  | some x =>
    simp only [hs, Option.any_some, decide_eq_true_eq] at h3
    simp only [if_neg (Nat.not_le.2 h3), h4, h5, h6, Bool.true_eq_false, Bool.false_eq_true, if_false]

/-- Every command that a mailbox holds is run by `runCmd`, those of group 0x0A by `runSlot`, under its own opcode and privilege. -/
theorem commandOf_exec {i : Instr} {mb : Mb} {op : Nat} {priv : Bool} (h : commandOf i = some (mb, op, priv)) :
    ∃ (c : CmdSpec) (body : State → Nat → Nat → CmdResult), c.opcode = op ∧ c.priv = priv ∧ c.open_ = sessionless op ∧
      ((∀ s, exec i s = .next (runCmd c body mb s)) ∨ (op / 256 = 0x0A ∧ ∀ s, exec i s = .next (runSlot c body mb s))) := by
  cases i <;> first
    | (cases h; done)
    | (obtain ⟨rfl, rfl, rfl⟩ : _ ∧ _ ∧ _ := by simpa [commandOf] using h
       first
       | exact ⟨_, _, rfl, rfl, rfl, .inl fun _ => rfl⟩
       | exact ⟨_, _, rfl, rfl, rfl, .inr ⟨rfl, fun _ => rfl⟩⟩)

end Sys2Proof.Machine
end

