-- ==== Sys2Proof/Laws/Keeps.lean ====
section
/-!
SUPPORT. What the named operations over the registers, frames, link pools, fault reports and Jugglers leave alone: the queue, the part and the clock, and the bounds `State.Sound`. One lemma per operation.
-/

namespace Sys2Proof.Machine

set_option linter.unusedTactic false
set_option linter.unreachableTactic false
set_option linter.unnecessarySeqFocus false
set_option linter.unusedSimpArgs false

/-- What a command leaves alone (the queue, the part, the clock), and the bounds that it keeps. -/
def State.Keeps (K : List Instr × Part × Nat) (s : State) : Prop := (s.pending, s.part, s.now) = K ∧ s.Sound
def Mgmt.Keeps (_ : List Instr × Part × Nat) (m : Mgmt) : Prop := m.Sound
def FabricTime.Keeps (_ : List Instr × Part × Nat) (t : FabricTime) : Prop := t.Sound
def Faults.Keeps (_ : List Instr × Part × Nat) (f : Faults) : Prop := f.Sound
/-- The fields that a command leaves alone, of a state. -/
def State.Fixed (K : List Instr × Part × Nat) (x : List Instr × Part × Nat) : Prop := x = K
variable {K : List Instr × Part × Nat}
@[simp] theorem Mgmt.keeps_mk (x : Mgmt) (y0 y1 y2 y3 y4 y5 y6 y7 y8 y9 y10 y12 y13 y14 y15 y16 y17 y18 y19 y20 y21 y22 y23 y24 y25 y26 y27 y28 y29 y30 y31 y32 y33 y34) : (Mgmt.mk y0 y1 y2 y3 y4 y5 y6 y7 y8 y9 y10 x.log y12 y13 y14 y15 y16 y17 y18 y19 y20 y21 y22 y23 y24 y25 y26 y27 y28 y29 y30 y31 y32 y33 y34).Keeps K ↔ x.Keeps K := Iff.rfl
@[simp] theorem FabricTime.keeps_mk (x : FabricTime) (y0 y2 y3 y4 y5 y6 y7 y8 y9 y10 y11 y12 y13) : (FabricTime.mk y0 x.ns y2 y3 y4 y5 y6 y7 y8 y9 y10 y11 y12 y13).Keeps K ↔ x.Keeps K := Iff.rfl
@[simp] theorem Faults.keeps_mk (x : Faults) (y0 y1 y3 y4 y5 y6 y7 y9 y10 y11 y12 y13 y14 y15 y16 y17 y18 y19 y22 y23 y24 y25 y26) : (Faults.mk y0 y1 x.log y3 y4 y5 y6 y7 x.booth y9 y10 y11 y12 y13 y14 y15 y16 y17 y18 y19 x.stopped x.aliveRunning y22 y23 y24 y25 y26).Keeps K ↔ x.Keeps K := Iff.rfl
@[simp] theorem State.keeps_mk (y0 y1 y2 y3 y4 y5 y6 y7 y8 y9 y10 y11 y12 y13 y14 y15 y16 y17 y18 y19) : (State.mk y0 y1 y2 y3 y4 y5 y6 y7 y8 y9 y10 y11 y12 y13 y14 y15 y16 y17 y18 y19).Keeps K ↔ State.Fixed K (y0, y3, y1) ∧ (y4 : Mgmt).Keeps K ∧ (y8 : Fabric).time.Keeps K ∧ (y17 : Faults).Keeps K := Iff.rfl
@[simp] theorem State.Keeps.mgmt {s : State} (h : s.Keeps K) : s.mgmt.Keeps K := h.2.1
@[simp] theorem State.Keeps.fixed {s : State} (h : s.Keeps K) : State.Fixed K (s.pending, s.part, s.now) := h.1
@[simp] theorem State.Keeps.time {s : State} (h : s.Keeps K) : s.fabric.time.Keeps K := h.2.2.1
@[simp] theorem State.Keeps.faults {s : State} (h : s.Keeps K) : s.faults.Keeps K := h.2.2.2
theorem foldl_keeps {α : Type} (l : List α) (f : State → α → State) (s : State) (h : s.Keeps K)
    (hf : ∀ t x, t.Keeps K → (f t x).Keeps K) : (l.foldl f s).Keeps K := by
  induction l generalizing s with
  | nil => exact h
  | cons x r ih => exact ih _ (hf _ _ h)
@[simp] theorem State.each_keeps (s : State) (l : List Nat) (f : State → Nat → State) (h : s.Keeps K)
    (hf : ∀ t x, t.Keeps K → (f t x).Keeps K) : (s.each l f).Keeps K := foldl_keeps l f s h hf
@[simp] theorem forAll_keeps {α : Type} (l : List α) (s : State) (f : α → State → State) (h : s.Keeps K)
    (hf : ∀ x t, t.Keeps K → (f x t).Keeps K) : (forAll l s f).Keeps K := foldl_keeps l _ s h (fun t x ht => hf x t ht)
@[simp] theorem State.modMgmt_keeps (s : State) (f : Mgmt → Mgmt) (h : s.Keeps K) (hf : (f s.mgmt).Keeps K) :
    (s.modMgmt f).Keeps K := ⟨h.1, hf, h.2.2⟩
@[simp] theorem State.modFab_keeps (s : State) (f : Fabric → Fabric) (h : s.Keeps K) (hf : (f s.fabric).time.Keeps K) :
    (s.modFab f).Keeps K := ⟨h.1, h.2.1, hf, h.2.2.2⟩
@[simp] theorem State.modFaults_keeps (s : State) (f : Faults → Faults) (h : s.Keeps K) (hf : (f s.faults).Keeps K) :
    (s.modFaults f).Keeps K := ⟨h.1, h.2.1, h.2.2.1, hf⟩
@[simp] theorem State.keeps_ite (c : Prop) [Decidable c] (a b : State) (ha : c → a.Keeps K) (hb : ¬c → b.Keeps K) : (if c then a else b).Keeps K := by
  split
  · exact ha ‹_›
  · exact hb ‹_›
@[simp] theorem FabricTime.setNs_keeps (t : FabricTime) (n : Nat) : (t.setNs n).Keeps K := by
  have h := Nat.mod_lt n (show 0 < 1000000000 by omega)
  simp only [FabricTime.Keeps, FabricTime.Sound, FabricTime.setNs, BitVec.toNat_ofNat]
  omega
@[simp] theorem FabricTime.advance_keeps (t : FabricTime) : t.advance.Keeps K := by
  simp only [FabricTime.advance, FabricTime.keeps_mk]
  exact FabricTime.setNs_keeps _ _
theorem keepLast_length {α : Type} (n : Nat) (l : List α) : (keepLast n l).length ≤ n := by
  simp only [keepLast, List.length_drop]
  omega
theorem State.logEvent_mgmt (m : Mgmt) (x : LogEntry) (a : BitVec 16) (b : Nat) :
    ({ m with log := keepLast 512 (m.log ++ [x]), eseq := a, loggedSinceWeft := b } : Mgmt).Keeps K := by
  simp only [Mgmt.Keeps, Mgmt.Sound]
  exact keepLast_length 512 (m.log ++ [x])
@[simp] theorem State.logEvent_keeps (s : State) (e : EvEntry) (owners : List (BitVec 8)) (h : s.Keeps K) : (s.logEvent e owners).Keeps K :=
  State.modMgmt_keeps _ _ h (State.logEvent_mgmt _ _ _ _)
@[simp] theorem Mgmt.writeDir_keeps (m : Mgmt) (f : DirCopy → DirCopy) (h : m.Keeps K) : (m.writeDir f).Keeps K := by
  simp only [Mgmt.writeDir]
  split <;> exact h
@[simp] theorem Faults.coreReset_keeps (f : Faults) (h : f.Keeps K) : f.coreReset.Keeps K := ⟨by simp [Faults.coreReset], h.2.1, fun _ => rfl⟩
@[simp] theorem Mgmt.coreReset_keeps (m : Mgmt) (t : Nat) (h : m.Keeps K) : (m.coreReset t).Keeps K := h
@[simp] theorem Mgmt.chooseImage_keeps (m : Mgmt) (h : m.Keeps K) : m.chooseImage.Keeps K := by
  have hw (x : Mgmt) (hx : x.Keeps K) : (x.writeDir fun d => { d with trialImage := none }).Keeps K := Mgmt.writeDir_keeps _ _ hx
  simp only [Mgmt.chooseImage]
  repeat' split
  all_goals simp [Mgmt.bootImage, h]

@[simp] theorem State.pmon_keeps (s : State) (mon ev qual n : Nat) (h0 : s.Keeps K) : (State.pmon s mon ev qual n).Keeps K := by
  unfold State.pmon
  simp [h0]

@[simp] theorem State.jmon_keeps (s : State) (j ev n : Nat) (h0 : s.Keeps K) : (State.jmon s j ev n).Keeps K := by
  unfold State.jmon
  simp [h0]

@[simp] theorem State.draw_keeps (s : State) (h0 : s.Keeps K) : (State.draw s).2.Keeps K := by
  unfold State.draw
  exact h0

@[simp] theorem State.modPort_keeps (s : State) (p : Nat) (f : Port → Port) (h0 : s.Keeps K) : (State.modPort s p f).Keeps K := by
  unfold State.modPort
  exact h0

@[simp] theorem State.modLane_keeps (s : State) (n : Nat) (f : Lane → Lane) (h0 : s.Keeps K) : (State.modLane s n f).Keeps K := by
  unfold State.modLane
  exact h0

@[simp] theorem State.modLink_keeps (s : State) (p : Nat) (f : Link → Link) (h0 : s.Keeps K) : (State.modLink s p f).Keeps K := by
  unfold State.modLink
  exact h0

@[simp] theorem State.countLink_keeps (s : State) (p : Nat) (f : LinkCounters → LinkCounters) (h0 : s.Keeps K) : (State.countLink s p f).Keeps K := by
  unfold State.countLink
  exact h0

@[simp] theorem State.setMbox_keeps (s : State) (n : Nat) (m : Mailbox) (h0 : s.Keeps K) : (State.setMbox s n m).Keeps K := by
  unfold State.setMbox
  exact h0

@[simp] theorem State.modMbox_keeps (s : State) (n : Nat) (f : Mailbox → Mailbox) (h0 : s.Keeps K) : (State.modMbox s n f).Keeps K := by
  unfold State.modMbox
  exact h0

@[simp] theorem State.modCar_keeps (s : State) (f : Carousel → Carousel) (h0 : s.Keeps K) : (State.modCar s f).Keeps K := by
  unfold State.modCar
  exact h0

@[simp] theorem State.modPower_keeps (s : State) (f : Power → Power) (h0 : s.Keeps K) : (State.modPower s f).Keeps K := by
  unfold State.modPower
  exact h0

@[simp] theorem State.modSlots_keeps (s : State) (f : Slots → Slots) (h0 : s.Keeps K) : (State.modSlots s f).Keeps K := by
  unfold State.modSlots
  exact h0

@[simp] theorem State.modBist_keeps (s : State) (f : Bist → Bist) (h0 : s.Keeps K) : (State.modBist s f).Keeps K := by
  unfold State.modBist
  exact h0

@[simp] theorem State.modParts_keeps (s : State) (f : Partitions → Partitions) (h0 : s.Keeps K) : (State.modParts s f).Keeps K := by
  unfold State.modParts
  exact h0

@[simp] theorem State.modJug_keeps (s : State) (f : Jugglers → Jugglers) (h0 : s.Keeps K) : (State.modJug s f).Keeps K := by
  unfold State.modJug
  exact h0

@[simp] theorem State.modSched_keeps (s : State) (p : Nat) (f : Sched → Sched) (h0 : s.Keeps K) : (State.modSched s p f).Keeps K := by
  unfold State.modSched
  exact h0

@[simp] theorem State.modJuggler_keeps (s : State) (j : Nat) (f : Juggler → Juggler) (h0 : s.Keeps K) : (State.modJuggler s j f).Keeps K := by
  unfold State.modJuggler
  exact h0

@[simp] theorem State.modChan_keeps (s : State) (c : Nat) (f : Chan → Chan) (h0 : s.Keeps K) : (State.modChan s c f).Keeps K := by
  unfold State.modChan
  exact h0

@[simp] theorem State.modPw_keeps (s : State) (x : PwPort) (f : Patchwork → Patchwork) (h0 : s.Keeps K) : (State.modPw s x f).Keeps K := by
  unfold State.modPw
  (repeat' split) <;> simp (maxDischargeDepth := 30) [*]

@[simp] theorem State.modMid_keeps (s : State) (m : Nat) (f : MidBuf → MidBuf) (h0 : s.Keeps K) : (State.modMid s m f).Keeps K := by
  unfold State.modMid
  exact h0

@[simp] theorem State.setFrame_keeps (s : State) (uid : Nat) (r : Option FrameRec) (h0 : s.Keeps K) : (State.setFrame s uid r).Keeps K := by
  unfold State.setFrame
  exact h0

@[simp] theorem State.modFrame_keeps (s : State) (uid : Nat) (f : FrameRec → FrameRec) (h0 : s.Keeps K) : (State.modFrame s uid f).Keeps K := by
  unfold State.modFrame
  (repeat' split) <;> simp (maxDischargeDepth := 30) [*]

@[simp] theorem State.countFab_keeps (s : State) (pu : Nat) (f : FabricCounters → FabricCounters) (h0 : s.Keeps K) : (State.countFab s pu f).Keeps K := by
  unfold State.countFab
  exact h0

@[simp] theorem State.countCar_keeps (s : State) (pu : Nat) (f : CarouselCounters → CarouselCounters) (h0 : s.Keeps K) : (State.countCar s pu f).Keeps K := by
  unfold State.countCar
  exact h0

@[simp] theorem State.countPart_keeps (s : State) (pu : Nat) (f : PartCounters → PartCounters) (h0 : s.Keeps K) : (State.countPart s pu f).Keeps K := by
  unfold State.countPart
  exact h0

@[simp] theorem State.modWaiting_keeps (s : State) (src vc : Nat) (f : List Nat → List Nat) (h0 : s.Keeps K) : (State.modWaiting s src vc f).Keeps K := by
  unfold State.modWaiting
  exact h0

@[simp] theorem State.arrive_keeps (s : State) (src vc : Nat) (f : Frame) (blocks : Nat) (h0 : s.Keeps K) : (State.arrive s src vc f blocks).Keeps K := by
  unfold State.arrive
  exact h0

@[simp] theorem State.inject_keeps (s : State) (pu : Nat) (f : Frame) (h0 : s.Keeps K) : (State.inject s pu f).Keeps K := by
  unfold State.inject
  exact h0

@[simp] theorem State.notify_keeps (s : State) (n : Nat) (h0 : s.Keeps K) : (State.notify s n).Keeps K := by
  unfold State.notify
  exact h0

@[simp] theorem State.remoteFrame_keeps (s : State) (dst : Geid) (part : BitVec 8) (payload : List Byte) (h0 : s.Keeps K) : (State.remoteFrame s dst part payload).Keeps K := by
  unfold State.remoteFrame
  exact h0

@[simp] theorem State.deliver_keeps (s : State) (e : EvEntry) (n : Nat) (h0 : s.Keeps K) : (State.deliver s e n).Keeps K := by
  unfold State.deliver
  simp (maxDischargeDepth := 30) [h0]

@[simp] theorem State.raiseTo_keeps (s : State) (code : BitVec 16) (data : List Byte) (owners : List (BitVec 8)) (pick : Nat → Bool) (h0 : s.Keeps K) : (State.raiseTo s code data owners pick).Keeps K := by
  unfold State.raiseTo
  (repeat' split) <;> simp +contextual (maxDischargeDepth := 30) [*]

@[simp] theorem State.raise_keeps (s : State) (code : BitVec 16) (data : List (Nat × Nat)) (owners : List (BitVec 8)) (h0 : s.Keeps K) : (State.raise s code data owners).Keeps K := by
  unfold State.raise
  simp [h0]

@[simp] theorem State.serveMailboxes_keeps (s : State) (h0 : s.Keeps K) : (State.serveMailboxes s).Keeps K := by
  unfold State.serveMailboxes
  (repeat' split) <;> simp +contextual (maxDischargeDepth := 30) [*, foldl_keeps]

@[simp] theorem State.unserve_keeps (s : State) (h0 : s.Keeps K) : (State.unserve s).Keeps K := by
  unfold State.unserve
  simp (maxDischargeDepth := 30) [h0]

@[simp] theorem State.modSource_keeps (s : State) (src : BitVec 12) (f : Source → Source) (h0 : s.Keeps K) : (State.modSource s src f).Keeps K := by
  unfold State.modSource
  exact h0

@[simp] theorem State.queueReport_keeps (s : State) (src : BitVec 12) (r : Report) (h0 : s.Keeps K) : (State.queueReport s src r).Keeps K := by
  unfold State.queueReport
  exact h0

@[simp] theorem State.evFault_keeps (s : State) (r : FaultRec) (owners : List (BitVec 8)) (h0 : s.Keeps K) : (State.evFault s r owners).Keeps K := by
  unfold State.evFault
  simp [h0]

@[simp] theorem State.pushWork_keeps (s : State) (j prio : Nat) (w : Work) (h0 : s.Keeps K) : (State.pushWork s j prio w).Keeps K := by
  unfold State.pushWork
  exact h0

@[simp] theorem State.puWork_keeps (s : State) (pu prio : Nat) (w : Work) (h0 : s.Keeps K) : (State.puWork s pu prio w).Keeps K := by
  unfold State.puWork
  (repeat' split) <;> simp (maxDischargeDepth := 30) [*]

@[simp] theorem State.countEnd_keeps (s : State) (pu : Nat) (port : Option Nat) (c : EndCause) (k : FrameKind) (h0 : s.Keeps K) : (State.countEnd s pu port c k).Keeps K := by
  unfold State.countEnd
  (repeat' split) <;> simp (maxDischargeDepth := 30) [*]

@[simp] theorem State.returnCredits_keeps (s : State) (p v n : Nat) (h0 : s.Keeps K) : (State.returnCredits s p v n).Keeps K := by
  unfold State.returnCredits
  simp [h0]

@[simp] theorem State.unlist_keeps (s : State) (uid : Nat) (r : FrameRec) (h0 : s.Keeps K) : (State.unlist s uid r).Keeps K := by
  unfold State.unlist
  (repeat' split) <;> simp (maxDischargeDepth := 30) [*]

@[simp] theorem State.detach_keeps (s : State) (uid : Nat) (r : FrameRec) (h0 : s.Keeps K) : (State.detach s uid r).Keeps K := by
  unfold State.detach
  simp (maxDischargeDepth := 30) [h0]

@[simp] theorem State.finish_keeps (s : State) (r : FrameRec) (pu : Nat) (c : EndCause) (h0 : s.Keeps K) : (State.finish s r pu c).Keeps K := by
  unfold State.finish
  simp (maxDischargeDepth := 30) [h0]

@[simp] theorem State.endFrame_keeps (s : State) (uid pu : Nat) (c : EndCause) (h0 : s.Keeps K) : (State.endFrame s uid pu c).Keeps K := by
  unfold State.endFrame
  (repeat' split) <;> simp (maxDischargeDepth := 30) [*]

@[simp] theorem State.endHere_keeps (s : State) (f : Frame) (pu : Nat) (c : EndCause) (h0 : s.Keeps K) : (State.endHere s f pu c).Keeps K := by
  unfold State.endHere
  simp [h0]

@[simp] theorem State.retryEnds_keeps (s : State) (pu : Nat) (h0 : s.Keeps K) : (State.retryEnds s pu).Keeps K := by
  unfold State.retryEnds
  try dsimp only
  repeat' (first | (simp +contextual (maxDischargeDepth := 30) [*]; done) | intro _ | split | refine State.each_keeps _ _ _ ?_ ?_)

@[simp] theorem State.discard_keeps (s : State) (uid : Nat) (h0 : s.Keeps K) : (State.discard s uid).Keeps K := by
  unfold State.discard
  (repeat' split) <;> simp (maxDischargeDepth := 30) [*]

@[simp] theorem State.takeInbox_keeps (s : State) (code : Nat) (f : Frame) (h0 : s.Keeps K) : (State.takeInbox s code f).Keeps K := by
  unfold State.takeInbox
  (repeat' split) <;> simp (maxDischargeDepth := 30) [*]

@[simp] theorem State.drainJuggler_keeps (s : State) (j : Nat) (h0 : s.Keeps K) : (State.drainJuggler s j).Keeps K := by
  unfold State.drainJuggler
  (repeat' split) <;> simp +contextual (maxDischargeDepth := 30) [*, foldl_keeps]

@[simp] theorem State.updateMoves_keeps (s : State) (h0 : s.Keeps K) : (State.updateMoves s).Keeps K := by
  unfold State.updateMoves
  (repeat' split) <;> simp +contextual (maxDischargeDepth := 30) [*]

@[simp] theorem State.endInjection_keeps (s : State) (pu : Nat) (h0 : s.Keeps K) : (State.endInjection s pu).Keeps K := by
  unfold State.endInjection
  (repeat' split) <;> simp +contextual (maxDischargeDepth := 30) [*]

@[simp] theorem State.updateHomes_keeps (s : State) (h0 : s.Keeps K) : (State.updateHomes s).Keeps K := by
  unfold State.updateHomes
  (repeat' split) <;> simp (maxDischargeDepth := 30) [*]

@[simp] theorem State.linkError_keeps (s : State) (p : Nat) (code : BitVec 8) (seq : BitVec 16) (vc : Nat) (h0 : s.Keeps K) : (State.linkError s p code seq vc).Keeps K := by
  unfold State.linkError
  exact h0

@[simp] theorem State.modPartner_keeps (s : State) (p : Nat) (f : Partner → Partner) (h0 : s.Keeps K) : (State.modPartner s p f).Keeps K := by
  unfold State.modPartner
  exact h0

@[simp] theorem State.topologyChange_keeps (s : State) (h0 : s.Keeps K) : (State.topologyChange s).Keeps K := by
  unfold State.topologyChange
  simp (maxDischargeDepth := 30) [h0]

@[simp] theorem State.partnerEvent_keeps (s t : State) (p : Nat) (h0 : t.Keeps K) : (State.partnerEvent s t p).Keeps K := by
  unfold State.partnerEvent
  simp (maxDischargeDepth := 30) [h0]

theorem State.partnerEvent_keeps' (s t : State) (p : Nat) (h0 : t.Keeps K) : (s.partnerEvent t p).Keeps K := State.partnerEvent_keeps s t p h0
@[simp] theorem State.partnerChange_keeps (s : State) (p : Nat) (f : State → State) (h : (f s).Keeps K) : (s.partnerChange p f).Keeps K :=
  State.partnerEvent_keeps _ _ _ h

@[simp] theorem State.modLanes_keeps (s : State) (p : Nat) (f : Lane → Lane) (h0 : s.Keeps K) : (State.modLanes s p f).Keeps K := by
  unfold State.modLanes
  (repeat' split) <;> simp +contextual (maxDischargeDepth := 30) [*]

@[simp] theorem State.setStage_keeps (s : State) (p : Nat) (g : Stage) (h0 : s.Keeps K) : (State.setStage s p g).Keeps K := by
  unfold State.setStage
  exact h0

@[simp] theorem State.retrain_keeps (s : State) (p : Nat) (reason : BitVec 8) (h0 : s.Keeps K) : (State.retrain s p reason).Keeps K := by
  unfold State.retrain
  simp (maxDischargeDepth := 30) [h0]

@[simp] theorem State.failBuckets_keeps (s : State) (q : Nat) (h0 : s.Keeps K) : (State.failBuckets s q).Keeps K := by
  unfold State.failBuckets
  exact h0

@[simp] theorem State.linkDown_keeps (s : State) (p : Nat) (reason fail : BitVec 8) (h0 : s.Keeps K) : (State.linkDown s p reason fail).Keeps K := by
  unfold State.linkDown
  (repeat' split) <;> simp +contextual (maxDischargeDepth := 30) [*, foldl_keeps]

@[simp] theorem State.leaveTo_keeps (s : State) (p : Nat) (g : Stage) (reason fail : BitVec 8) (h0 : s.Keeps K) : (State.leaveTo s p g reason fail).Keeps K := by
  unfold State.leaveTo
  simp (maxDischargeDepth := 30) [h0]

@[simp] theorem State.trainFail_keeps (s : State) (p : Nat) (fail : BitVec 8) (h0 : s.Keeps K) : (State.trainFail s p fail).Keeps K := by
  unfold State.trainFail
  simp [h0]

@[simp] theorem State.attemptFail_keeps (s : State) (p : Nat) (fail : BitVec 8) (h0 : s.Keeps K) : (State.attemptFail s p fail).Keeps K := by
  unfold State.attemptFail
  simp (maxDischargeDepth := 30) [h0]

@[simp] theorem State.forwardFault_keeps (s : State) (r : FaultRec) (h0 : s.Keeps K) : (State.forwardFault s r).Keeps K := by
  unfold State.forwardFault
  (repeat' split) <;> simp +contextual (maxDischargeDepth := 30) [*, foldl_keeps]

@[simp] theorem State.writeRecord_keeps (s : State) (r0 : FaultRec) (h0 : s.Keeps K) : (s.writeRecord r0).Keeps K := by
  have h (x : FaultRec) (l : List FaultRec) : (keepLast 1024 (l ++ [x])).length ≤ 1024 := keepLast_length _ _
  have hf := h0.faults
  simp only [Faults.Keeps, Faults.Sound] at hf
  have h1 (r : FaultRec) (a : Faults → Nat) (b : Faults → BitVec 16) (c d : Faults → Option FaultRec) : (s.modFaults fun f => { f with log := keepLast 1024 (f.log ++ [r]), logOverwritten := a f, frseq := b f, ffr := c f, firstFatal := d f }).Keeps K :=
    State.modFaults_keeps _ _ h0 (by simp only [Faults.Keeps, Faults.Sound]; exact ⟨h r s.faults.log, hf.2⟩)
  simp only [State.writeRecord]
  split
  · refine State.forwardFault_keeps _ _ (State.evFault_keeps _ _ _ (h1 _ _ _ _ _))
  · exact h1 _ _ _ _ _

@[simp] theorem State.logError_keeps (s : State) (r : FaultRec) (h0 : s.Keeps K) : (State.logError s r).Keeps K := by
  unfold State.logError
  try dsimp only
  repeat' (first | (simp +contextual (maxDischargeDepth := 30) [*]; done) | intro _ | split)

@[simp] theorem State.boothRecord_keeps (s : State) (r : FaultRec) (h0 : s.Keeps K) : (s.boothRecord r).Keeps K := by
  have h (x : FaultRec) (l : List FaultRec) : (keepLast 64 (l ++ [x])).length ≤ 64 := keepLast_length _ _
  have hf := h0.faults
  simp only [Faults.Keeps, Faults.Sound] at hf
  have h1 (a : Faults → Nat) (b : Faults → Tab (Option Merge)) : (s.modFaults fun f => { f with booth := keepLast 64 (f.booth ++ [r]), boothLost := a f, boothMerges := b f }).Keeps K :=
    State.modFaults_keeps _ _ h0 (by simp only [Faults.Keeps, Faults.Sound]; exact ⟨hf.1, h r s.faults.booth, hf.2.2⟩)
  simp only [State.boothRecord]
  split
  · exact State.evFault_keeps _ _ _ (h1 _ _)
  · exact h1 _ _

@[simp] theorem State.boothClassify_keeps (s : State) (src : BitVec 12) (code : BitVec 8) (detail : BitVec 64) (h0 : s.Keeps K) : (State.boothClassify s src code detail).Keeps K := by
  unfold State.boothClassify
  (repeat' split) <;> simp (maxDischargeDepth := 30) [*]

@[simp] theorem State.report_keeps (s : State) (src : BitVec 12) (code : BitVec 8) (detail : BitVec 64) (h0 : s.Keeps K) : (State.report s src code detail).Keeps K := by
  unfold State.report
  simp (maxDischargeDepth := 30) [h0]

theorem copyBooth_step (t : State) (r : FaultRec) (a : Faults → Nat) (b : Faults → BitVec 16) (c : Faults → Option FaultRec) (h0 : t.Keeps K) :
    (t.modFaults fun f => { f with log := keepLast 1024 (f.log ++ [r]), frseq := b f, logOverwritten := a f, ffr := c f }).Keeps K := by
  refine State.modFaults_keeps _ _ h0 ?_
  have hf := h0.faults
  simp only [Faults.Keeps, Faults.Sound] at hf ⊢
  exact ⟨keepLast_length 1024 _, hf.2⟩
theorem copyBooth_end (t : State) (a : Faults → Nat) (h0 : t.Keeps K) :
    (t.modFaults fun f => { f with booth := [], boothMerges := [], logOverwritten := a f, boothLost := 0 }).Keeps K := by
  refine State.modFaults_keeps _ _ h0 ?_
  have hf := h0.faults
  simp only [Faults.Keeps, Faults.Sound] at hf ⊢
  exact ⟨hf.1, by simp, hf.2.2⟩
@[simp] theorem State.copyBooth_keeps (s : State) (h0 : s.Keeps K) : s.copyBooth.Keeps K := by
  refine copyBooth_end _ _ (foldl_keeps _ _ _ h0 fun t r ht => ?_)
  extract_lets f takes r1 t1
  split
  · exact State.forwardFault_keeps _ _ (copyBooth_step _ _ _ _ _ ht)
  · exact copyBooth_step _ _ _ _ _ ht

@[simp] theorem State.evFence_keeps (s : State) (f : Fence) (released : Bool) (owners : List (BitVec 8)) (h0 : s.Keeps K) : (State.evFence s f released owners).Keeps K := by
  unfold State.evFence
  simp [h0]

@[simp] theorem State.stopAlive_keeps (s : State) (cause : BitVec 2) (h0 : s.Keeps K) : (s.stopAlive cause).Keeps K := by
  have hf := h0.faults
  exact State.modFaults_keeps _ _ h0 ⟨hf.1, hf.2.1, fun _ => rfl⟩

@[simp] theorem State.abortTests_keeps (s : State) (t : UnitId → Bool) (cause : BitVec 4) (h0 : s.Keeps K) : (State.abortTests s t cause).Keeps K := by
  unfold State.abortTests
  exact h0

@[simp] theorem State.fatalStop_keeps (s : State) (cause : BitVec 2) (h0 : s.Keeps K) : (s.fatalStop cause).Keeps K := by
  have h1 := (State.stopAlive_keeps s cause h0)
  have hf := h1.faults
  have h2 : ((s.stopAlive cause).modFaults fun f => { f with stopped := true }).Keeps K :=
    State.modFaults_keeps _ _ h1 ⟨hf.1, hf.2.1, fun _ => rfl⟩
  simp only [State.fatalStop]
  simp (maxDischargeDepth := 30) [h2]

@[simp] theorem State.bringUp_keeps (s : State) (p : Nat) (h0 : s.Keeps K) : (State.bringUp s p).Keeps K := by
  unfold State.bringUp
  exact h0

@[simp] theorem State.autoUp_keeps (s : State) (l : List Nat) (h0 : s.Keeps K) : (State.autoUp s l).Keeps K := by
  unfold State.autoUp
  (repeat' split) <;> simp +contextual (maxDischargeDepth := 30) [*]

@[simp] theorem State.railsOn_keeps (s : State) (h0 : s.Keeps K) : (State.railsOn s).Keeps K := by
  unfold State.railsOn
  exact h0

@[simp] theorem State.railStart_keeps (s : State) (h0 : s.Keeps K) : (State.railStart s).Keeps K := by
  unfold State.railStart
  simp (maxDischargeDepth := 30) [h0]

@[simp] theorem State.evPreheat_keeps (s : State) (cause : Nat) (h0 : s.Keeps K) : (State.evPreheat s cause).Keeps K := by
  unfold State.evPreheat
  simp [h0]

@[simp] theorem State.railsAreOff_keeps (s : State) (h0 : s.Keeps K) : (State.railsAreOff s).Keeps K := by
  unfold State.railsAreOff
  try dsimp only
  repeat' (first | (simp +contextual (maxDischargeDepth := 30) [*]; done) | intro _ | split)

@[simp] theorem State.railsNext_keeps (s : State) (n : Nat) (h0 : s.Keeps K) : (s.railsNext n).Keeps K := by
  induction n generalizing s with
  | zero => simpa [State.railsNext] using State.railsAreOff_keeps s h0
  | succ n ih =>
    simp only [State.railsNext]
    repeat' split
    all_goals simp [h0, ih]

@[simp] theorem State.railsOff_keeps (s : State) (p : RailPlan) (h0 : s.Keeps K) : (State.railsOff s p).Keeps K := by
  unfold State.railsOff
  simp [h0]

@[simp] theorem State.wake_keeps (s : State) (src : Nat) (h0 : s.Keeps K) : (State.wake s src).Keeps K := by
  unfold State.wake
  (repeat' split) <;> simp (maxDischargeDepth := 30) [*]

@[simp] theorem State.form_keeps (s : State) (j : Nat) (ring : Option Nat) (f : Frame) (h0 : s.Keeps K) : (State.form s j ring f).Keeps K := by
  unfold State.form
  simp [h0]

@[simp] theorem State.setTag_keeps (s : State) (g : Geid) (t : BitVec 12) (u : Option TagUse) (h0 : s.Keeps K) : (State.setTag s g t u).Keeps K := by
  unfold State.setTag
  exact h0

@[simp] theorem State.takeTag_keeps (s : State) (h : Hdr) (n : Nat) (f : Option Frame) (h0 : s.Keeps K) : (State.takeTag s h n f).Keeps K := by
  unfold State.takeTag
  exact h0

@[simp] theorem State.setMover_keeps (s : State) (id : Nat) (r : Option MoverRing) (h0 : s.Keeps K) : (State.setMover s id r).Keeps K := by
  unfold State.setMover
  exact h0

@[simp] theorem State.modMover_keeps (s : State) (id : Nat) (f : MoverRing → MoverRing) (h0 : s.Keeps K) : (State.modMover s id f).Keeps K := by
  unfold State.modMover
  (repeat' split) <;> simp (maxDischargeDepth := 30) [*]

@[simp] theorem State.setRingState_keeps (s : State) (id : Nat) (g : RingState) (cause : MoverCause) (h0 : s.Keeps K) : (State.setRingState s id g cause).Keeps K := by
  unfold State.setRingState
  (repeat' split) <;> simp (maxDischargeDepth := 30) [*]

@[simp] theorem State.killTags_keeps (s : State) (id : Nat) (h0 : s.Keeps K) : (State.killTags s id).Keeps K := by
  unfold State.killTags
  (repeat' split) <;> simp (maxDischargeDepth := 30) [*]

@[simp] theorem State.ringIrq_keeps (s : State) (id : Nat) (r : MoverRing) (h0 : s.Keeps K) : (State.ringIrq s id r).Keeps K := by
  unfold State.ringIrq
  simp [h0]

@[simp] theorem State.writeRingRecord_keeps (s : State) (id : Nat) (h0 : s.Keeps K) : (State.writeRingRecord s id).Keeps K := by
  unfold State.writeRingRecord
  (repeat' split) <;> simp (maxDischargeDepth := 30) [*]

@[simp] theorem State.writeRingRecords_keeps (s : State) (id : Nat) (h0 : s.Keeps K) : (State.writeRingRecords s id).Keeps K := by
  unfold State.writeRingRecords
  (repeat' split) <;> simp +contextual (maxDischargeDepth := 30) [*, foldl_keeps]

@[simp] theorem State.settleRing_keeps (s : State) (id : Nat) (h0 : s.Keeps K) : (State.settleRing s id).Keeps K := by
  unfold State.settleRing
  (repeat' split) <;> simp (maxDischargeDepth := 30) [*]

@[simp] theorem State.stopRing_keeps (s : State) (id : Nat) (cause : MoverCause) (h0 : s.Keeps K) : (State.stopRing s id cause).Keeps K := by
  unfold State.stopRing
  (repeat' split) <;> simp (maxDischargeDepth := 30) [*]

@[simp] theorem State.endDescs_keeps (s : State) (id : Nat) (status : BitVec 8) (all : Bool) (h0 : s.Keeps K) : (State.endDescs s id status all).Keeps K := by
  unfold State.endDescs
  simp (maxDischargeDepth := 30) [h0]

@[simp] theorem State.dropStaged_keeps (s : State) (id : Nat) (h0 : s.Keeps K) : (State.dropStaged s id).Keeps K := by
  unfold State.dropStaged
  (repeat' split) <;> simp +contextual (maxDischargeDepth := 30) [*]

@[simp] theorem State.resetRing_keeps (s : State) (id : Nat) (h0 : s.Keeps K) : (State.resetRing s id).Keeps K := by
  unfold State.resetRing
  (repeat' split) <;> simp (maxDischargeDepth := 30) [*]

@[simp] theorem State.evictRing_keeps (s : State) (id : Nat) (h0 : s.Keeps K) : (State.evictRing s id).Keeps K := by
  unfold State.evictRing
  (repeat' split) <;> simp (maxDischargeDepth := 30) [*]

@[simp] theorem State.moveRing_keeps (s : State) (id : Nat) (h0 : s.Keeps K) : (State.moveRing s id).Keeps K := by
  unfold State.moveRing
  (repeat' split) <;> simp (maxDischargeDepth := 30) [*]

@[simp] theorem State.updateRings_keeps (s : State) (h0 : s.Keeps K) : (s.updateRings).Keeps K := by
  refine State.each_keeps _ _ _ h0 fun t id ht => ?_
  split
  · exact ht
  · split <;> simp (maxDischargeDepth := 30) [ht]

@[simp] theorem State.updateService_keeps (s : State) (h0 : s.Keeps K) : (State.updateService s).Keeps K := by
  unfold State.updateService
  simp (maxDischargeDepth := 30) [h0]

@[simp] theorem State.checkLapses_keeps (s : State) (h0 : s.Keeps K) : (State.checkLapses s).Keeps K := by
  unfold State.checkLapses
  (repeat' split) <;> simp +contextual (maxDischargeDepth := 30) [*]

end Sys2Proof.Machine
end

