-- ==== Sys2Proof/Laws/KeepsUnits.lean ====
section
/-!
SUPPORT. What the mailbox protocol and the operations of partitions, Patchwork ports, slots, fences and training leave alone: the queue, the part and the clock, and the bounds `State.Sound`. One lemma per operation.
-/

namespace Sys2Proof.Machine

set_option linter.unusedTactic false
set_option linter.unreachableTactic false
set_option linter.unnecessarySeqFocus false
set_option linter.unusedSimpArgs false

variable {K : List Instr × Part × Nat}

@[simp] theorem State.respond_keeps (s : State) (n : Nat) (resp : List Byte) (store : Option StoredResp) (h0 : s.Keeps K) : (State.respond s n resp store).Keeps K := by
  unfold State.respond
  try dsimp only
  repeat' (first | (simp +contextual (maxDischargeDepth := 30) [*]; done) | intro _ | split)

@[simp] theorem State.complete_keeps (s : State) (n : Nat) (h : CmdHdr) (status detail : Nat) (payload : List Byte) (h0 : s.Keeps K) : (State.complete s n h status detail payload).Keeps K := by
  unfold State.complete
  simp [h0]

@[simp] theorem State.renewLease_keeps (s : State) (n : Nat) (t : BitVec 32) (h0 : s.Keeps K) : (State.renewLease s n t).Keeps K := by
  unfold State.renewLease
  exact h0

/-- The state that a result leads to keeps the bounds. -/
def CmdResult.Keeps (K : List Instr × Part × Nat) : CmdResult → Prop
  | .done s _ => s.Keeps K
  | .fail _ _ => True
  | .failWith s _ _ => s.Keeps K
@[simp] theorem CmdResult.keeps_done (s : State) (l : List Byte) : (CmdResult.done s l).Keeps K ↔ s.Keeps K := Iff.rfl
@[simp] theorem CmdResult.keeps_fail (a b : Nat) : (CmdResult.fail a b).Keeps K := trivial
@[simp] theorem CmdResult.keeps_failWith (s : State) (a b : Nat) : (CmdResult.failWith s a b).Keeps K ↔ s.Keeps K := Iff.rfl
/-- A next state keeps the bounds. -/
def Kept (K : List Instr × Part × Nat) : Out → Prop
  | .next s => s.Keeps K
  | _ => True
@[simp] theorem kept_next (s : State) : Kept K (.next s) ↔ s.Keeps K := Iff.rfl
@[simp] theorem kept_fault (r : Fault) : Kept K (.fault r) := trivial
@[simp] theorem kept_refused (r : Refusal) : Kept K (.refused r) := trivial
@[simp] theorem require_keeps (b : Bool) (o : Out) (h : Kept K o) : Kept K (require b o) := by
  unfold require
  split
  · exact h
  · trivial
theorem CmdResult.gate_keeps (r : CmdResult) : r.gate.Keeps K := by
  cases r <;> simp only [CmdResult.gate] <;> try trivial
  split <;> trivial
theorem CmdResult.isolate_keeps (r : CmdResult) (s : State) (h : r.Keeps K) : (r.isolate s).Keeps K := by
  cases r <;> simp only [CmdResult.isolate]
  · split
    · trivial
    · exact h
  · trivial
  · exact h
theorem State.judge_keeps (s : State) (c : CmdSpec) (body : State → Nat → Nat → CmdResult) (n : Nat) (h : CmdHdr) (h0 : s.Keeps K)
    (hb : ∀ t pl len, t.Keeps K → (body t pl len).Keeps K) : (s.judge c body n h).Keeps K := by
  simp only [State.judge]
  repeat' split
  all_goals first
    | trivial
    | exact CmdResult.gate_keeps _
    | exact CmdResult.isolate_keeps _ _ (hb _ _ _ h0)
theorem runCmd_keeps (c : CmdSpec) (body : State → Nat → Nat → CmdResult) (n : Nat) (s : State) (h0 : s.Keeps K)
    (hb : ∀ t pl len, t.Keeps K → (body t pl len).Keeps K) : (runCmd c body n s).Keeps K := by
  have hj := State.judge_keeps (s.renewLease n (s.mbox n).cmdHdr.session) c body n (s.mbox n).cmdHdr (by simp [h0]) hb
  simp only [runCmd]
  repeat' split
  all_goals simp_all
theorem State.onPort_keeps (s : State) (n quad sub at_ : Nat) (k : Nat → CmdResult) (hk : ∀ p, (k p).Keeps K) : (s.onPort n quad sub at_ k).Keeps K := by
  simp only [State.onPort]
  repeat' split
  all_goals simp [hk]
theorem State.onNative_keeps (s : State) (n quad at_ : Nat) (k : Nat → CmdResult) (hk : ∀ p, (k p).Keeps K) : (s.onNative n quad at_ k).Keeps K := by
  refine State.onPort_keeps _ _ _ _ _ _ fun p => ?_
  split <;> simp [hk]
theorem State.onPu_keeps (s : State) (n pu : Nat) (k : CmdResult) (hk : k.Keeps K) : (s.onPu n pu k).Keeps K := by
  simp only [State.onPu]
  split <;> simp [hk]

@[simp] theorem State.unknownCmd_keeps (s : State) (n : Nat) (h0 : s.Keeps K) : (State.unknownCmd s n).Keeps K := by
  unfold State.unknownCmd
  try dsimp only
  repeat' (first | (simp +contextual (maxDischargeDepth := 30) [*]; done) | intro _ | split)

@[simp] theorem State.request_keeps (s : State) (pu i bytes : Nat) (f : Frame) (h0 : s.Keeps K) : (State.request s pu i bytes f).Keeps K := by
  unfold State.request
  (repeat' split) <;> simp (maxDischargeDepth := 30) [*]

@[simp] theorem State.modInst_keeps (s : State) (p id : Nat) (f : InstRun → InstRun) (h0 : s.Keeps K) : (State.modInst s p id f).Keeps K := by
  unfold State.modInst
  exact h0

@[simp] theorem State.evInst_keeps (s : State) (p id cause : Nat) (h0 : s.Keeps K) : (State.evInst s p id cause).Keeps K := by
  unfold State.evInst
  simp [h0]

@[simp] theorem State.setInst_keeps (s : State) (p id : Nat) (g : InstState) (cause : Nat) (h0 : s.Keeps K) : (State.setInst s p id g cause).Keeps K := by
  unfold State.setInst
  simp [h0]

@[simp] theorem State.sendIcb_keeps (s : State) (p id k : Nat) (h0 : s.Keeps K) : (State.sendIcb s p id k).Keeps K := by
  unfold State.sendIcb
  simp [h0]

@[simp] theorem State.writeIcb_keeps (s : State) (p id : Nat) (f : Icb → Icb) (words : List Nat) (h0 : s.Keeps K) : (State.writeIcb s p id f words).Keeps K := by
  unfold State.writeIcb
  (repeat' split) <;> simp +contextual (maxDischargeDepth := 30) [*]

@[simp] theorem State.forceReset_keeps (s : State) (p id : Nat) (h0 : s.Keeps K) : (State.forceReset s p id).Keeps K := by
  unfold State.forceReset
  (repeat' split) <;> simp +contextual (maxDischargeDepth := 30) [*, foldl_keeps]

@[simp] theorem State.forceIfLive_keeps (s : State) (p id : Nat) (h0 : s.Keeps K) : (State.forceIfLive s p id).Keeps K := by
  unfold State.forceIfLive
  simp [h0]

@[simp] theorem State.failInst_keeps (s : State) (p id cause : Nat) (h0 : s.Keeps K) : (State.failInst s p id cause).Keeps K := by
  unfold State.failInst
  (repeat' split) <;> simp +contextual (maxDischargeDepth := 30) [*]

@[simp] theorem State.resetFn_keeps (s : State) (v n : Nat) (h0 : s.Keeps K) : (State.resetFn s v n).Keeps K := by
  unfold State.resetFn
  exact h0

@[simp] theorem State.resetTarget_keeps (s : State) (v k : Nat) (h0 : s.Keeps K) : (State.resetTarget s v k).1.Keeps K := by
  unfold State.resetTarget
  (repeat' split) <;> simp (maxDischargeDepth := 30) [*]

@[simp] theorem State.evVhReset_keeps (s : State) (v : Nat) (l : List Geid) (h0 : s.Keeps K) : (State.evVhReset s v l).Keeps K := by
  unfold State.evVhReset
  (repeat' split) <;> simp +contextual (maxDischargeDepth := 30) [*, foldl_keeps]

theorem resetTargets_keeps (l : List Nat) (v : Nat) (a : State × List Geid) (h : a.1.Keeps K) :
    (l.foldl (fun (a : State × List Geid) k => ((a.1.resetTarget v k).1, a.2 ++ (a.1.resetTarget v k).2)) a).1.Keeps K := by
  induction l generalizing a with
  | nil => exact h
  | cons x r ih => exact ih _ (State.resetTarget_keeps _ _ _ h)
@[simp] theorem State.vhReset_keeps (s : State) (v : Nat) (h0 : s.Keeps K) : (s.vhReset v).Keeps K := by
  unfold State.vhReset
  split
  · exact h0
  · refine State.evVhReset_keeps _ _ _ (resetTargets_keeps _ _ _ ?_)
    exact State.each_keeps _ _ _ h0 fun t n ht => by simp [ht]

@[simp] theorem State.resetWoken_keeps (s : State) (p : Nat) (h0 : s.Keeps K) : (State.resetWoken s p).Keeps K := by
  unfold State.resetWoken
  (repeat' split) <;> simp +contextual (maxDischargeDepth := 30) [*]

@[simp] theorem State.modTime_keeps (s : State) (f : FabricTime → FabricTime) (h0 : s.Keeps K) (hf : (f s.fabric.time).Keeps K) : (s.modTime f).Keeps K :=
  State.modFab_keeps _ _ h0 hf

@[simp] theorem State.setTimeState_keeps (s : State) (g : TimeState) (h0 : s.Keeps K) : (State.setTimeState s g).Keeps K := by
  unfold State.setTimeState
  simp (maxDischargeDepth := 30) [h0]

@[simp] theorem State.loseTime_keeps (s : State) (p : Nat) (h0 : s.Keeps K) : (State.loseTime s p).Keeps K := by
  unfold State.loseTime
  simp (maxDischargeDepth := 30) [h0]

@[simp] theorem State.markPortEvent_keeps (s : State) (p : Nat) (h0 : s.Keeps K) : (State.markPortEvent s p).Keeps K := by
  unfold State.markPortEvent
  (repeat' split) <;> simp +contextual (maxDischargeDepth := 30) [*]

@[simp] theorem State.goDown_keeps (s : State) (p : Nat) (g : Stage) (reason fail : BitVec 8) (h0 : s.Keeps K) : (State.goDown s p g reason fail).Keeps K := by
  unfold State.goDown
  try dsimp only
  repeat' (first | (simp +contextual (maxDischargeDepth := 30) [*]; done) | intro _ | split | refine State.each_keeps _ _ _ ?_ ?_)

@[simp] theorem State.attemptDown_keeps (s : State) (p : Nat) (fail : BitVec 8) (h0 : s.Keeps K) : (State.attemptDown s p fail).Keeps K := by
  unfold State.attemptDown
  simp (maxDischargeDepth := 30) [h0]

@[simp] theorem State.disable_keeps (s : State) (p : Nat) (reason : BitVec 8) (h0 : s.Keeps K) : (State.disable s p reason).Keeps K := by
  unfold State.disable
  simp (maxDischargeDepth := 30) [h0]

@[simp] theorem State.countPw_keeps (s : State) (x : PwPort) (f : PwCounters → PwCounters) (h0 : s.Keeps K) : (State.countPw s x f).Keeps K := by
  unfold State.countPw
  simp [h0]

@[simp] theorem State.pwInject_keeps (s : State) (x : PwPort) (f : Frame) (h0 : s.Keeps K) : (State.pwInject s x f).Keeps K := by
  unfold State.pwInject
  exact h0

@[simp] theorem State.pwAnswer_keeps (s : State) (x : PwPort) (r : PwRecord) (st bs : BitVec 4) (data : List Byte) (h0 : s.Keeps K) : (State.pwAnswer s x r st bs data).Keeps K := by
  unfold State.pwAnswer
  simp [h0]

@[simp] theorem State.writeLost_keeps (s : State) (x : PwPort) (w : Nat) (h0 : s.Keeps K) : (State.writeLost s x w).Keeps K := by
  unfold State.writeLost
  simp [h0]

@[simp] theorem State.freeEntry_keeps (s : State) (x : PwPort) (r : PwRecord) (h0 : s.Keeps K) : (State.freeEntry s x r).Keeps K := by
  unfold State.freeEntry
  (repeat' split) <;> simp (maxDischargeDepth := 30) [*]

@[simp] theorem State.failRecord_keeps (s : State) (x : PwPort) (r : PwRecord) (st bs : BitVec 4) (h0 : s.Keeps K) : (State.failRecord s x r st bs).Keeps K := by
  unfold State.failRecord
  simp (maxDischargeDepth := 30) [h0]

@[simp] theorem State.dropPrefetch_keeps (s : State) (x : PwPort) (t : PwPrefetch → Bool) (h0 : s.Keeps K) : (State.dropPrefetch s x t).Keeps K := by
  unfold State.dropPrefetch
  simp [h0]

@[simp] theorem State.addPrefetch_keeps (s : State) (x : PwPort) (b : PwPrefetch) (h0 : s.Keeps K) : (State.addPrefetch s x b).Keeps K := by
  unfold State.addPrefetch
  try dsimp only
  repeat' (first | (simp +contextual (maxDischargeDepth := 30) [*]; done) | intro _ | split)

@[simp] theorem State.usePrefetch_keeps (s : State) (x : PwPort) (b : PwPrefetch) (a n : Nat) (h0 : s.Keeps K) : (State.usePrefetch s x b a n).Keeps K := by
  unfold State.usePrefetch
  simp [h0]

@[simp] theorem State.busWrite_keeps (s : State) (x : PwPort) (space : BitVec 2) (a n : Nat) (h0 : s.Keeps K) : (State.busWrite s x space a n).Keeps K := by
  unfold State.busWrite
  simp [h0]

@[simp] theorem State.startRecord_keeps (s : State) (x : PwPort) (r : PwRecord) (w : PwWindow) (h0 : s.Keeps K) : (State.startRecord s x r w).Keeps K := by
  unfold State.startRecord
  simp [h0]

@[simp] theorem State.runHead_keeps (s : State) (x : PwPort) (h0 : s.Keeps K) : (State.runHead s x).Keeps K := by
  unfold State.runHead
  try dsimp only
  repeat' (first | (simp +contextual (maxDischargeDepth := 30) [*]; done) | intro _ | split)

@[simp] theorem State.finishSeq_keeps (s : State) (x : PwPort) (q : PwSeq) (h0 : s.Keeps K) : (State.finishSeq s x q).Keeps K := by
  unfold State.finishSeq
  try dsimp only
  repeat' (first | (simp +contextual (maxDischargeDepth := 30) [*]; done) | intro _ | split)

@[simp] theorem State.endCycle_keeps (s : State) (x : PwPort) (st : BusStatus) (data : List Byte) (h0 : s.Keeps K) : (State.endCycle s x st data).Keeps K := by
  unfold State.endCycle
  (repeat' split) <;> simp (maxDischargeDepth := 30) [*]

@[simp] theorem State.closeWrite_keeps (s : State) (x : PwPort) (h0 : s.Keeps K) : (State.closeWrite s x).Keeps K := by
  unfold State.closeWrite
  (repeat' split) <;> simp +contextual (maxDischargeDepth := 30) [*, foldl_keeps]

@[simp] theorem State.answerBus_keeps (s : State) (x : PwPort) (a : BusAnswer) (h0 : s.Keeps K) : (State.answerBus s x a).Keeps K := by
  unfold State.answerBus
  simp [h0]

@[simp] theorem State.claimWrite_keeps (s : State) (x : PwPort) (n : Nat) (w : PwWindow) (c : BusCycle) (h0 : s.Keeps K) : (State.claimWrite s x n w c).Keeps K := by
  unfold State.claimWrite
  try dsimp only
  repeat' (first | (simp +contextual (maxDischargeDepth := 30) [*]; done) | intro _ | split)

@[simp] theorem State.issueRead_keeps (s : State) (x : PwPort) (n : Nat) (w : PwWindow) (c : BusCycle) (h0 : s.Keeps K) : (State.issueRead s x n w c).Keeps K := by
  unfold State.issueRead
  try dsimp only
  repeat' (first | (simp +contextual (maxDischargeDepth := 30) [*]; done) | intro _ | split)

@[simp] theorem State.dropEntry_keeps (s : State) (x : PwPort) (e : Nat) (h0 : s.Keeps K) : (State.dropEntry s x e).Keeps K := by
  unfold State.dropEntry
  simp [h0]

@[simp] theorem State.claimRead_keeps (s : State) (x : PwPort) (n : Nat) (w : PwWindow) (c : BusCycle) (h0 : s.Keeps K) : (State.claimRead s x n w c).Keeps K := by
  unfold State.claimRead
  try dsimp only
  repeat' (first | (simp +contextual (maxDischargeDepth := 30) [*]; done) | intro _ | split)

@[simp] theorem State.claimRmw_keeps (s : State) (x : PwPort) (n : Nat) (w : PwWindow) (c : BusCycle) (h0 : s.Keeps K) : (State.claimRmw s x n w c).Keeps K := by
  unfold State.claimRmw
  (repeat' split) <;> simp +contextual (maxDischargeDepth := 30) [*, foldl_keeps]

@[simp] theorem State.claimCycle_keeps (s : State) (x : PwPort) (c : BusCycle) (act : State → Nat → PwWindow → State) (h0 : s.Keeps K)
    (ha : ∀ t n w, t.Keeps K → (act t n w).Keeps K) : (s.claimCycle x c act).Keeps K := by
  simp only [State.claimCycle]
  repeat' split
  all_goals simp (maxDischargeDepth := 30) [h0, ha]

@[simp] theorem State.endInbound_keeps (s : State) (x : PwPort) (e : Nat) (y : PwEntry) (ok : Bool) (h0 : s.Keeps K) : (State.endInbound s x e y ok).Keeps K := by
  unfold State.endInbound
  (repeat' split) <;> simp (maxDischargeDepth := 30) [*]

@[simp] theorem State.pwCompletion_keeps (s : State) (x : PwPort) (f : Frame) (h0 : s.Keeps K) : (State.pwCompletion s x f).Keeps K := by
  unfold State.pwCompletion
  try dsimp only
  repeat' (first | (simp +contextual (maxDischargeDepth := 30) [*]; done) | intro _ | split)

@[simp] theorem State.unsupportedAt_keeps (s : State) (x : PwPort) (f : Frame) (h0 : s.Keeps K) : (State.unsupportedAt s x f).Keeps K := by
  unfold State.unsupportedAt
  simp [h0]

@[simp] theorem State.pwCompletionAt_keeps (s : State) (x : PwPort) (f : Frame) (h0 : s.Keeps K) : (State.pwCompletionAt s x f).Keeps K := by
  unfold State.pwCompletionAt
  simp (maxDischargeDepth := 30) [h0]

@[simp] theorem State.pwEndWork_keeps (s : State) (x : PwPort) (fenced : Bool) (h0 : s.Keeps K) : (State.pwEndWork s x fenced).Keeps K := by
  unfold State.pwEndWork
  (repeat' split) <;> simp +contextual (maxDischargeDepth := 30) [*, foldl_keeps]

@[simp] theorem State.chanTo_keeps (s : State) (c : Nat) (g : ChanState) (cause : BitVec 8) (h0 : s.Keeps K) : (State.chanTo s c g cause).Keeps K := by
  unfold State.chanTo
  simp [h0]

@[simp] theorem State.requestAt_keeps (s : State) (c n : Nat) (h0 : s.Keeps K) : (State.requestAt s c n).Keeps K := by
  unfold State.requestAt
  exact h0

@[simp] theorem State.requestStart_keeps (s : State) (c : Nat) (h0 : s.Keeps K) : (State.requestStart s c).Keeps K := by
  unfold State.requestStart
  exact h0

@[simp] theorem State.autoStart_keeps (s : State) (c : Nat) (h0 : s.Keeps K) : (State.autoStart s c).Keeps K := by
  unfold State.autoStart
  simp [h0]

@[simp] theorem State.chanEmpty_keeps (s : State) (c : Nat) (cause : BitVec 8) (h0 : s.Keeps K) : (State.chanEmpty s c cause).Keeps K := by
  unfold State.chanEmpty
  simp (maxDischargeDepth := 30) [h0]

@[simp] theorem State.chanOff_keeps (s : State) (c : Nat) (cause : BitVec 8) (h0 : s.Keeps K) : (State.chanOff s c cause).Keeps K := by
  unfold State.chanOff
  simp (maxDischargeDepth := 30) [h0]

@[simp] theorem State.warnOff_keeps (s : State) (c : Nat) (cause : BitVec 8) (h0 : s.Keeps K) : (State.warnOff s c cause).Keeps K := by
  unfold State.warnOff
  simp [h0]

@[simp] theorem State.countTrip_keeps (s : State) (c : Nat) (cause : BitVec 8) (h0 : s.Keeps K) : (State.countTrip s c cause).Keeps K := by
  unfold State.countTrip
  simp [h0]

@[simp] theorem State.trip_keeps (s : State) (c : Nat) (cause : BitVec 8) (h0 : s.Keeps K) : (State.trip s c cause).Keeps K := by
  unfold State.trip
  simp (maxDischargeDepth := 30) [h0]

@[simp] theorem State.lockoutChan_keeps (s : State) (c : Nat) (cause : BitVec 8) (h0 : s.Keeps K) : (State.lockoutChan s c cause).Keeps K := by
  unfold State.lockoutChan
  simp [h0]

@[simp] theorem State.fenceChan_keeps (s : State) (c : Nat) (manager : Bool) (h0 : s.Keeps K) : (State.fenceChan s c manager).Keeps K := by
  unfold State.fenceChan
  simp (maxDischargeDepth := 30) [h0]

@[simp] theorem State.setPresent_keeps (s : State) (c : Nat) (v : Bool) (h0 : s.Keeps K) : (State.setPresent s c v).Keeps K := by
  unfold State.setPresent
  (repeat' split) <;> simp +contextual (maxDischargeDepth := 30) [*, foldl_keeps]

@[simp] theorem State.presenceLevel_keeps (s : State) (c : Nat) (high : Bool) (h0 : s.Keeps K) : (State.presenceLevel s c high).Keeps K := by
  unfold State.presenceLevel
  simp (maxDischargeDepth := 30) [h0]

@[simp] theorem State.absence_keeps (s : State) (c : Nat) (h0 : s.Keeps K) : (State.absence s c).Keeps K := by
  unfold State.absence
  try dsimp only
  repeat' (first | (simp +contextual (maxDischargeDepth := 30) [*]; done) | intro _ | split)

@[simp] theorem State.inserted_keeps (s : State) (c : Nat) (h0 : s.Keeps K) : (State.inserted s c).Keeps K := by
  unfold State.inserted
  simp (maxDischargeDepth := 30) [h0]

@[simp] theorem State.retryReady_keeps (s : State) (c : Nat) (cause : BitVec 8) (h0 : s.Keeps K) : (State.retryReady s c cause).Keeps K := by
  unfold State.retryReady
  simp [h0]

@[simp] theorem State.slotControl_keeps (s : State) (v k : Nat) (w : BitVec 16) (h0 : s.Keeps K) : (s.slotControl v k w).Keeps K := by
  unfold State.slotControl
  split
  · exact h0
  · extract_lets off s1 x
    have h1 : s1.Keeps K := by simp [s1, h0]
    clear_value s1
    repeat' split
    all_goals simp [h1]

@[simp] theorem State.setChan_keeps (s : State) (c : Nat) (n : ChanSettings) (h0 : s.Keeps K) : (State.setChan s c n).Keeps K := by
  unfold State.setChan
  try dsimp only
  repeat' (first | (simp +contextual (maxDischargeDepth := 30) [*]; done) | intro _ | split)

@[simp] theorem State.evSlotBus_keeps (s : State) (kind : Nat) (powerOn : Bool) (vfeed : BitVec 16) (dur : Nat) (h0 : s.Keeps K) : (State.evSlotBus s kind powerOn vfeed dur).Keeps K := by
  unfold State.evSlotBus
  simp [h0]

@[simp] theorem State.assertWarning_keeps (s : State) (v : BitVec 16) (powerOn : Bool) (h0 : s.Keeps K) : (State.assertWarning s v powerOn).Keeps K := by
  unfold State.assertWarning
  simp [h0]

@[simp] theorem State.boothRestart_keeps (s : State) (h0 : s.Keeps K) : (State.boothRestart s).Keeps K := by
  unfold State.boothRestart
  (repeat' split) <;> simp +contextual (maxDischargeDepth := 30) [*]

@[simp] theorem State.resumeChan_keeps (s : State) (c : Nat) (released : Bool) (h0 : s.Keeps K) : (State.resumeChan s c released).Keeps K := by
  unfold State.resumeChan
  simp (maxDischargeDepth := 30) [h0]

@[simp] theorem State.boothResume_keeps (s : State) (prsnt : BitVec 48) (vfeed : BitVec 16) (h0 : s.Keeps K) : (State.boothResume s prsnt vfeed).Keeps K := by
  unfold State.boothResume
  (repeat' split) <;> simp +contextual (maxDischargeDepth := 30) [*]

@[simp] theorem State.powerQuad_keeps (s : State) (q : Nat) (h0 : s.Keeps K) : (State.powerQuad s q).Keeps K := by
  unfold State.powerQuad
  simp (maxDischargeDepth := 30) [h0]

@[simp] theorem State.quadOff_keeps (s : State) (q : Nat) (h0 : s.Keeps K) : (State.quadOff s q).Keeps K := by
  unfold State.quadOff
  (repeat' split) <;> simp +contextual (maxDischargeDepth := 30) [*]

@[simp] theorem State.fencePort_keeps (s : State) (p : Nat) (h0 : s.Keeps K) : (State.fencePort s p).Keeps K := by
  unfold State.fencePort
  simp [h0]

@[simp] theorem State.laneOut_keeps (s : State) (ln : Nat) (h0 : s.Keeps K) : (State.laneOut s ln).Keeps K := by
  unfold State.laneOut
  (repeat' split) <;> simp (maxDischargeDepth := 30) [*]

@[simp] theorem State.quadOut_keeps (s : State) (q : Nat) (h0 : s.Keeps K) : (State.quadOut s q).Keeps K := by
  unfold State.quadOut
  (repeat' split) <;> simp +contextual (maxDischargeDepth := 30) [*]

@[simp] theorem State.puOut_keeps (s : State) (q : Nat) (h0 : s.Keeps K) : (s.puOut q).Keeps K := by
  unfold State.puOut
  extract_lets ports mine s1 s2 s3
  have h1 : s1.Keeps K := by simp [s1, h0]
  have h2 : s2.Keeps K := State.each_keeps _ _ _ h1 fun t u ht => by simp [ht]
  have h3 : s3.Keeps K := State.each_keeps _ _ _ h2 fun t u ht => by split <;> simp (maxDischargeDepth := 30) [ht]
  clear_value s3
  simp [h3]

@[simp] theorem State.midOut_keeps (s : State) (m : Nat) (h0 : s.Keeps K) : (State.midOut s m).Keeps K := by
  unfold State.midOut
  exact h0

@[simp] theorem State.takeOut_keeps (s : State) (u : UnitId) (manager : Bool) (h0 : s.Keeps K) : (State.takeOut s u manager).Keeps K := by
  unfold State.takeOut
  (repeat' split) <;> simp (maxDischargeDepth := 30) [*]

@[simp] theorem State.applyFence_keeps (s : State) (f : Fence) (manager : Bool) (h0 : s.Keeps K) : (State.applyFence s f manager).Keeps K := by
  unfold State.applyFence
  simp (maxDischargeDepth := 30) [h0]

@[simp] theorem State.markUnit_keeps (s : State) (u : UnitId) (h0 : s.Keeps K) : (State.markUnit s u).Keeps K := by
  unfold State.markUnit
  simp (maxDischargeDepth := 30) [h0]

@[simp] theorem State.clearFlows_keeps (s : State) (q : Nat) (h0 : s.Keeps K) : (State.clearFlows s q).Keeps K := by
  unfold State.clearFlows
  exact h0

@[simp] theorem State.clearPu_keeps (s : State) (q : Nat) (h0 : s.Keeps K) : (State.clearPu s q).Keeps K := by
  unfold State.clearPu
  (repeat' split) <;> simp +contextual (maxDischargeDepth := 30) [*, foldl_keeps]

@[simp] theorem State.reinitUnit_keeps (s : State) (u : UnitId) (h0 : s.Keeps K) : (State.reinitUnit s u).Keeps K := by
  unfold State.reinitUnit
  (repeat' split) <;> simp (maxDischargeDepth := 30) [*]

@[simp] theorem State.returnUnit_keeps (s : State) (u : UnitId) (power : Bool) (h0 : s.Keeps K) : (State.returnUnit s u power).Keeps K := by
  unfold State.returnUnit
  (repeat' split) <;> simp (maxDischargeDepth := 30) [*]

@[simp] theorem State.releaseFence_keeps (s : State) (u : UnitId) (h0 : s.Keeps K) : (State.releaseFence s u).Keeps K := by
  unfold State.releaseFence
  (repeat' split) <;> simp (maxDischargeDepth := 30) [*]

@[simp] theorem State.detect_keeps (s : State) (p : Nat) (found : Detection) (h0 : s.Keeps K) : (State.detect s p found).Keeps K := by
  unfold State.detect
  (repeat' split) <;> simp (maxDischargeDepth := 30) [*]

@[simp] theorem State.trainDone_keeps (s : State) (p : Nat) (h0 : s.Keeps K) : (State.trainDone s p).Keeps K := by
  unfold State.trainDone
  simp (maxDischargeDepth := 30) [h0]

@[simp] theorem State.deskew_keeps (s : State) (p : Nat) (h0 : s.Keeps K) : (State.deskew s p).Keeps K := by
  unfold State.deskew
  simp [h0]

@[simp] theorem State.enterExchange_keeps (s : State) (p : Nat) (h0 : s.Keeps K) : (State.enterExchange s p).Keeps K := by
  unfold State.enterExchange
  exact h0

@[simp] theorem State.returnActive_keeps (s : State) (p : Nat) (h0 : s.Keeps K) : (State.returnActive s p).Keeps K := by
  unfold State.returnActive
  exact h0

@[simp] theorem State.linkUp_keeps (s : State) (p : Nat) (r : ExchangeRec) (h0 : s.Keeps K) : (State.linkUp s p r).Keeps K := by
  unfold State.linkUp
  simp (maxDischargeDepth := 30) [h0]

@[simp] theorem State.tryActive_keeps (s : State) (p : Nat) (h0 : s.Keeps K) : (State.tryActive s p).Keeps K := by
  unfold State.tryActive
  (repeat' split) <;> simp (maxDischargeDepth := 30) [*]

@[simp] theorem State.recordReceived_keeps (s : State) (p : Nat) (r : ExchangeRec) (h0 : s.Keeps K) : (State.recordReceived s p r).Keeps K := by
  unfold State.recordReceived
  simp (maxDischargeDepth := 30) [h0]

@[simp] theorem State.diagStage_keeps (s : State) (p : Nat) (h0 : s.Keeps K) : (State.diagStage s p).Keeps K := by
  unfold State.diagStage
  try dsimp only
  repeat' (first | (simp +contextual (maxDischargeDepth := 30) [*]; done) | intro _ | split)

end Sys2Proof.Machine
end

