-- ==== Sys2Proof/Laws/KeepsFabric.lean ====
section
/-!
SUPPORT. What the link blocks, the pages, the lookup, the Carousel, the movers and the Scheduler leave alone: the queue, the part and the clock, and the bounds `State.Sound`. One lemma per operation.
-/

namespace Sys2Proof.Machine

set_option linter.unusedTactic false
set_option linter.unreachableTactic false
set_option linter.unnecessarySeqFocus false
set_option linter.unusedSimpArgs false

variable {K : List Instr × Part × Nat}

@[simp] theorem State.expireQueued_keeps (s : State) (p : Nat) (h0 : s.Keeps K) : (State.expireQueued s p).Keeps K := by
  unfold State.expireQueued
  (repeat' split) <;> simp +contextual (maxDischargeDepth := 30) [*]

@[simp] theorem State.instFall_keeps (s : State) (p : Nat) (g : Geid) (t : BitVec 12) (h0 : s.Keeps K) : (State.instFall s p g t).Keeps K := by
  unfold State.instFall
  exact h0

@[simp] theorem State.startFrame_keeps (s : State) (p uid : Nat) (h0 : s.Keeps K) : (State.startFrame s p uid).Keeps K := by
  unfold State.startFrame
  (repeat' split) <;> simp (maxDischargeDepth := 30) [*]

@[simp] theorem State.startMq_keeps (s : State) (p : Nat) (h0 : s.Keeps K) : (State.startMq s p).Keeps K := by
  unfold State.startMq
  (repeat' split) <;> simp (maxDischargeDepth := 30) [*]

@[simp] theorem State.powerOp_keeps (s : State) (p op : Nat) (h0 : s.Keeps K) : (State.powerOp s p op).Keeps K := by
  unfold State.powerOp
  exact h0

@[simp] theorem State.enterSleep_keeps (s : State) (p : Nat) (h0 : s.Keeps K) : (State.enterSleep s p).Keeps K := by
  unfold State.enterSleep
  exact h0

@[simp] theorem State.protocol_keeps (s : State) (p : Nat) (seq : BitVec 16) (vc n : Nat) (f : LinkCounters → LinkCounters) (h0 : s.Keeps K) : (State.protocol s p seq vc n f).Keeps K := by
  unfold State.protocol
  simp (maxDischargeDepth := 30) [h0]

@[simp] theorem State.ackInvalid_keeps (s : State) (p : Nat) (seq : BitVec 16) (h0 : s.Keeps K) : (State.ackInvalid s p seq).Keeps K := by
  unfold State.ackInvalid
  exact h0

@[simp] theorem State.ackIn_keeps (s : State) (p : Nat) (a : BitVec 16) (h0 : s.Keeps K) : (State.ackIn s p a).Keeps K := by
  unfold State.ackIn
  try dsimp only
  repeat' (first | (simp +contextual (maxDischargeDepth := 30) [*]; done) | intro _ | split)

@[simp] theorem State.requeue_keeps (s : State) (p : Nat) (seq : BitVec 16) (by_ : ReplayBy) (h0 : s.Keeps K) : (State.requeue s p seq by_).Keeps K := by
  unfold State.requeue
  try dsimp only
  repeat' (first | (simp +contextual (maxDischargeDepth := 30) [*]; done) | intro _ | split)

@[simp] theorem State.nakSeq_keeps (s : State) (p : Nat) (seq : BitVec 16) (h0 : s.Keeps K) : (State.nakSeq s p seq).Keeps K := by
  unfold State.nakSeq
  simp (maxDischargeDepth := 30) [h0]

@[simp] theorem State.nakIn_keeps (s : State) (p : Nat) (pl : BlockPayload) (h0 : s.Keeps K) : (State.nakIn s p pl).Keeps K := by
  unfold State.nakIn
  (repeat' split) <;> simp +contextual (maxDischargeDepth := 30) [*, foldl_keeps]

@[simp] theorem State.creditIn_keeps (s : State) (p v n : Nat) (h0 : s.Keeps K) : (State.creditIn s p v n).Keeps K := by
  unfold State.creditIn
  simp (maxDischargeDepth := 30) [h0]

@[simp] theorem State.creditBlockIn_keeps (s : State) (p : Nat) (pl : BlockPayload) (h0 : s.Keeps K) : (State.creditBlockIn s p pl).Keeps K := by
  unfold State.creditBlockIn
  (repeat' split) <;> simp +contextual (maxDischargeDepth := 30) [*, foldl_keeps]

@[simp] theorem State.idlePoint_keeps (s : State) (p v : Nat) (h0 : s.Keeps K) : (State.idlePoint s p v).Keeps K := by
  unfold State.idlePoint
  simp (maxDischargeDepth := 30) [h0]

@[simp] theorem State.idlePoints_keeps (s : State) (p : Nat) (e : BitVec 8) (h0 : s.Keeps K) : (State.idlePoints s p e).Keeps K := by
  unfold State.idlePoints
  (repeat' split) <;> simp +contextual (maxDischargeDepth := 30) [*, foldl_keeps]

@[simp] theorem State.framingError_keeps (s : State) (p : Nat) (b : RxData) (h0 : s.Keeps K) : (State.framingError s p b).Keeps K := by
  unfold State.framingError
  exact h0

@[simp] theorem State.setOpenRx_keeps (s : State) (p v : Nat) (o : Option RxOpen) (h0 : s.Keeps K) : (State.setOpenRx s p v o).Keeps K := by
  unfold State.setOpenRx
  exact h0

@[simp] theorem State.markStore_keeps (s : State) (p : Nat) (h0 : s.Keeps K) : (State.markStore s p).Keeps K := by
  unfold State.markStore
  exact h0

@[simp] theorem State.answered_keeps (s : State) (p : Nat) (f : Frame) (h0 : s.Keeps K) : (State.answered s p f).Keeps K := by
  unfold State.answered
  simp [h0]

@[simp] theorem State.received_keeps (s : State) (uid : Nat) (h0 : s.Keeps K) : (State.received s uid).Keeps K := by
  unfold State.received
  (repeat' split) <;> simp (maxDischargeDepth := 30) [*]

@[simp] theorem State.extendRx_keeps (s : State) (p : Nat) (b : RxData) (o : RxOpen) (h0 : s.Keeps K) : (State.extendRx s p b o).Keeps K := by
  unfold State.extendRx
  simp (maxDischargeDepth := 30) [h0]

@[simp] theorem State.vcBlock_keeps (s : State) (p : Nat) (b : RxData) (h0 : s.Keeps K) : (State.vcBlock s p b).Keeps K := by
  unfold State.vcBlock
  try dsimp only
  repeat' (first | (simp +contextual (maxDischargeDepth := 30) [*]; done) | intro _ | split)

@[simp] theorem State.drainWindow_keeps (s : State) (p n : Nat) (h0 : s.Keeps K) : (s.drainWindow p n).Keeps K := by
  induction n generalizing s with
  | zero => exact h0
  | succ n ih =>
    simp only [State.drainWindow]
    split
    · exact h0
    · simp (maxDischargeDepth := 30) [h0, ih]

@[simp] theorem State.dataIn_keeps (s0 : State) (p : Nat) (b : RxData) (h0 : s0.Keeps K) : (State.dataIn s0 p b).Keeps K := by
  unfold State.dataIn
  simp (maxDischargeDepth := 30) [h0]

@[simp] theorem State.goodBlock_keeps (s : State) (p : Nat) (h : BitVec 64) (isData : Bool) (payload : State → State) (h0 : s.Keeps K)
    (hp : ∀ t, t.Keeps K → (payload t).Keeps K) : (s.goodBlock p h isData payload).Keeps K := by
  simp only [State.goodBlock]
  repeat' split
  all_goals simp (maxDischargeDepth := 30) [h0, hp]

@[simp] theorem State.sendBlock_keeps (s : State) (p ty vc : Nat) (first last : Bool) (seq : BitVec 16) (pl : BlockPayload) (h0 : s.Keeps K) : (State.sendBlock s p ty vc first last seq pl).Keeps K := by
  unfold State.sendBlock
  simp (maxDischargeDepth := 30) [h0]

@[simp] theorem State.sendRecord_keeps (s : State) (p : Nat) (h0 : s.Keeps K) : (State.sendRecord s p).Keeps K := by
  unfold State.sendRecord
  exact h0

@[simp] theorem State.sendCredit_keeps (s : State) (p : Nat) (sync : Bool) (h0 : s.Keeps K) : (State.sendCredit s p sync).Keeps K := by
  unfold State.sendCredit
  simp (maxDischargeDepth := 30) [h0]

@[simp] theorem State.sendNak_keeps (s : State) (p : Nat) (h0 : s.Keeps K) : (State.sendNak s p).Keeps K := by
  unfold State.sendNak
  simp (maxDischargeDepth := 30) [h0, foldl_keeps]

@[simp] theorem State.sendData_keeps (s : State) (p v : Nat) (f : Frame) (uid k : Nat) (h0 : s.Keeps K) : (State.sendData s p v f uid k).Keeps K := by
  unfold State.sendData
  simp (maxDischargeDepth := 30) [h0]

@[simp] theorem State.sendReplay_keeps (s : State) (p : Nat) (b : TxData) (h0 : s.Keeps K) : (State.sendReplay s p b).Keeps K := by
  unfold State.sendReplay
  simp (maxDischargeDepth := 30) [h0]

@[simp] theorem State.sendPower_keeps (s : State) (p : Nat) (op reason : BitVec 8) (h0 : s.Keeps K) : (State.sendPower s p op reason).Keeps K := by
  unfold State.sendPower
  simp (maxDischargeDepth := 30) [h0]

@[simp] theorem State.sendIdle_keeps (s : State) (p : Nat) (h0 : s.Keeps K) : (State.sendIdle s p).Keeps K := by
  unfold State.sendIdle
  simp (maxDischargeDepth := 30) [h0]

@[simp] theorem State.slotBlock_keeps (s0 : State) (p : Nat) (h0 : s0.Keeps K) : (State.slotBlock s0 p).Keeps K := by
  unfold State.slotBlock
  try dsimp only
  repeat' (first | (simp +contextual (maxDischargeDepth := 30) [*]; done) | intro _ | split)

@[simp] theorem State.slot_keeps (s : State) (p : Nat) (h0 : s.Keeps K) : (State.slot s p).Keeps K := by
  unfold State.slot
  simp (maxDischargeDepth := 30) [h0]

@[simp] theorem State.install_keeps (s : State) (t : Tables) (group : Bool) (h0 : s.Keeps K) : (State.install s t group).Keeps K := by
  unfold State.install
  exact h0

@[simp] theorem State.endPartition_keeps (s : State) (o : BitVec 8) (h0 : s.Keeps K) : (State.endPartition s o).Keeps K := by
  unfold State.endPartition
  exact h0

@[simp] theorem State.policyEffects_keeps (s : State) (old new : Policy) (writes : List PolicyWrite) (h0 : s.Keeps K) : (State.policyEffects s old new writes).Keeps K := by
  unfold State.policyEffects
  (repeat' split) <;> simp +contextual (maxDischargeDepth := 30) [*, foldl_keeps]

@[simp] theorem State.commit_keeps (s : State) (l : List TableKind) (h0 : s.Keeps K) : (State.commit s l).Keeps K := by
  unfold State.commit
  simp (maxDischargeDepth := 30) [h0]

@[simp] theorem State.commitRoutes_keeps (s : State) (h0 : s.Keeps K) : (State.commitRoutes s).Keeps K := by
  unfold State.commitRoutes
  (repeat' split) <;> simp (maxDischargeDepth := 30) [*]

@[simp] theorem State.sendLocal_keeps (s : State) (p : Nat) (subtype : BitVec 8) (payload : List Byte) (h0 : s.Keeps K) : (State.sendLocal s p subtype payload).Keeps K := by
  unfold State.sendLocal
  simp [h0]

@[simp] theorem State.takeLocal_keeps (s : State) (p : Nat) (subtype : BitVec 8) (h0 : s.Keeps K) : (State.takeLocal s p subtype).Keeps K := by
  unfold State.takeLocal
  (repeat' split) <;> simp (maxDischargeDepth := 30) [*]

@[simp] theorem State.gatesFollow_keeps (s : State) (h0 : s.Keeps K) : (State.gatesFollow s).Keeps K := by
  unfold State.gatesFollow
  try dsimp only
  repeat' (first | (simp +contextual (maxDischargeDepth := 30) [*]; done) | intro _ | split | refine State.each_keeps _ _ _ ?_ ?_)

@[simp] theorem State.steer_keeps (s : State) (ps : ℤ) (h0 : s.Keeps K) : (State.steer s ps).Keeps K := by
  unfold State.steer
  simp (maxDischargeDepth := 30) [h0]

@[simp] theorem State.modMeter_keeps (s : State) (m : Nat) (f : Meter → Meter) (h0 : s.Keeps K) : (State.modMeter s m f).Keeps K := by
  unfold State.modMeter
  exact h0

@[simp] theorem State.modPenalty_keeps (s : State) (k : Nat) (f : PenaltyQueue → PenaltyQueue) (h0 : s.Keeps K) : (State.modPenalty s k f).Keeps K := by
  unfold State.modPenalty
  exact h0

@[simp] theorem State.checkFull_keeps (s : State) (k : Nat) (h0 : s.Keeps K) : (State.checkFull s k).Keeps K := by
  unfold State.checkFull
  simp (maxDischargeDepth := 30) [h0]

@[simp] theorem State.joinPenalty_keeps (s : State) (uid k : Nat) (h0 : s.Keeps K) : (State.joinPenalty s uid k).Keeps K := by
  unfold State.joinPenalty
  (repeat' split) <;> simp (maxDischargeDepth := 30) [*]

@[simp] theorem State.holdFrame_keeps (s : State) (uid k : Nat) (h0 : s.Keeps K) : (State.holdFrame s uid k).Keeps K := by
  unfold State.holdFrame
  simp (maxDischargeDepth := 30) [h0]

@[simp] theorem State.meterFrame_keeps (s : State) (t : Policy) (uid : Nat) (h0 : s.Keeps K) : (State.meterFrame s t uid).Keeps K := by
  unfold State.meterFrame
  try dsimp only
  repeat' (first | (simp +contextual (maxDischargeDepth := 30) [*]; done) | intro _ | split)

@[simp] theorem State.releasePenalty_keeps (s : State) (k uid : Nat) (c : BitVec 2) (h0 : s.Keeps K) : (State.releasePenalty s k uid c).Keeps K := by
  unfold State.releasePenalty
  (repeat' split) <;> simp (maxDischargeDepth := 30) [*]

@[simp] theorem State.expirePenalty_keeps (s : State) (k : Nat) (h0 : s.Keeps K) : (s.expirePenalty k).Keeps K := by
  refine State.each_keeps _ _ _ h0 fun t id ht => ?_
  repeat' split
  all_goals simp (maxDischargeDepth := 30) [ht]

@[simp] theorem State.servePenalty_keeps (s : State) (k n : Nat) (h0 : s.Keeps K) : (s.servePenalty k n).Keeps K := by
  induction n generalizing s with
  | zero => exact h0
  | succ n ih =>
    simp only [State.servePenalty]
    repeat' split
    all_goals simp (maxDischargeDepth := 30) [h0, ih]

@[simp] theorem State.refill_keeps (s : State) (h0 : s.Keeps K) : (State.refill s).Keeps K := by
  unfold State.refill
  (repeat' split) <;> simp +contextual (maxDischargeDepth := 30) [*]

@[simp] theorem State.ring_keeps (s : State) (n : Nat) (h0 : s.Keeps K) : (State.ring s n).Keeps K := by
  unfold State.ring
  simp (maxDischargeDepth := 30) [h0]

@[simp] theorem State.answerHeld_keeps (s : State) (h0 : s.Keeps K) : (State.answerHeld s).Keeps K := by
  unfold State.answerHeld
  (repeat' split) <;> simp +contextual (maxDischargeDepth := 30) [*]

@[simp] theorem State.writePageByte_keeps (s : State) (n a : Nat) (v : Byte) (h0 : s.Keeps K) : (State.writePageByte s n a v).Keeps K := by
  unfold State.writePageByte
  simp (maxDischargeDepth := 30) [h0]

@[simp] theorem State.writeMbReg_keeps (s : State) (n off v : Nat) (h0 : s.Keeps K) : (State.writeMbReg s n off v).Keeps K := by
  unfold State.writeMbReg
  simp (maxDischargeDepth := 30) [h0]

@[simp] theorem State.forceStop_keeps (s : State) (h0 : s.Keeps K) : (State.forceStop s).Keeps K := by
  unfold State.forceStop
  simp (maxDischargeDepth := 30) [h0]

@[simp] theorem State.writeGlobal_keeps (s : State) (off v : Nat) (h0 : s.Keeps K) : (State.writeGlobal s off v).Keeps K := by
  unfold State.writeGlobal
  simp [h0]

@[simp] theorem State.writePage_keeps (s : State) (n off : Nat) (data : List Byte) (h0 : s.Keeps K) : (State.writePage s n off data).Keeps K := by
  unfold State.writePage
  simp [h0]

@[simp] theorem State.denyAccess_keeps (s : State) (h0 : s.Keeps K) : (State.denyAccess s).Keeps K := by
  unfold State.denyAccess
  exact h0

@[simp] theorem State.setCfg_keeps (s : State) (v n reg val : Nat) (h0 : s.Keeps K) : (State.setCfg s v n reg val).Keeps K := by
  unfold State.setCfg
  exact h0

@[simp] theorem State.copyMsi_keeps (s : State) (v k : Nat) (h0 : s.Keeps K) : (State.copyMsi s v k).Keeps K := by
  unfold State.copyMsi
  (repeat' split) <;> simp (maxDischargeDepth := 30) [*]

@[simp] theorem State.writeSlot_keeps (s : State) (v k val : Nat) (h0 : s.Keeps K) : (State.writeSlot s v k val).Keeps K := by
  unfold State.writeSlot
  (repeat' split) <;> simp (maxDischargeDepth := 30) [*]

@[simp] theorem State.busReset_keeps (s : State) (v k : Nat) (h0 : s.Keeps K) : (State.busReset s v k).Keeps K := by
  unfold State.busReset
  simp (maxDischargeDepth := 30) [h0]

@[simp] theorem State.cfgWrite_keeps (s : State) (v n reg val : Nat) (h0 : s.Keeps K) : (State.cfgWrite s v n reg val).Keeps K := by
  unfold State.cfgWrite
  simp (maxDischargeDepth := 30) [h0]

@[simp] theorem State.nextPseq_keeps (s : State) (pu : Nat) (dst : Geid) (t : Tlp) (h0 : s.Keeps K) : (State.nextPseq s pu dst t).2.Keeps K := by
  unfold State.nextPseq
  (repeat' split) <;> simp (maxDischargeDepth := 30) [*]

@[simp] theorem State.countPoison_keeps (s : State) (pu : Nat) (b : Bool) (h0 : s.Keeps K) : (State.countPoison s pu b).Keeps K := by
  unfold State.countPoison
  simp (maxDischargeDepth := 30) [h0]

@[simp] theorem State.wrapTlp_keeps (s : State) (p : Nat) (dst : Geid) (inst : BitVec 12) (t : Tlp) (h0 : s.Keeps K) : (State.wrapTlp s p dst inst t).Keeps K := by
  unfold State.wrapTlp
  try dsimp only
  repeat' (first | (simp +contextual (maxDischargeDepth := 30) [*]; done) | intro _ | split)

@[simp] theorem State.tlpToPort_keeps (s : State) (p : Nat) (t : Tlp) (h0 : s.Keeps K) : (State.tlpToPort s p t).Keeps K := by
  unfold State.tlpToPort
  simp [h0]

@[simp] theorem State.answerTlp_keeps (s : State) (p : Nat) (t : Tlp) (completer : BitVec 16) (st : BitVec 3) (data : List Byte) (h0 : s.Keeps K) : (State.answerTlp s p t completer st data).Keeps K := by
  unfold State.answerTlp
  simp [h0]

@[simp] theorem State.unclaimed_keeps (s : State) (p v : Nat) (t : Tlp) (h0 : s.Keeps K) : (State.unclaimed s p v t).Keeps K := by
  unfold State.unclaimed
  simp [h0]

@[simp] theorem State.barAccess_keeps (s : State) (p v : Nat) (t : Tlp) (h0 : s.Keeps K) : (State.barAccess s p v t).Keeps K := by
  unfold State.barAccess
  try dsimp only
  repeat' (first | (simp +contextual (maxDischargeDepth := 30) [*]; done) | intro _ | split)

@[simp] theorem State.queueCfg_keeps (s : State) (p v n : Nat) (t : Tlp) (h0 : s.Keeps K) : (State.queueCfg s p v n t).Keeps K := by
  unfold State.queueCfg
  exact h0

@[simp] theorem State.hostTlp_keeps (s : State) (p v : Nat) (t : Tlp) (h0 : s.Keeps K) : (State.hostTlp s p v t).Keeps K := by
  unfold State.hostTlp
  try dsimp only
  repeat' (first | (simp +contextual (maxDischargeDepth := 30) [*]; done) | intro _ | split | refine State.each_keeps _ _ _ ?_ ?_)

@[simp] theorem State.targetTlp_keeps (s : State) (p : Nat) (t : Tlp) (h0 : s.Keeps K) : (State.targetTlp s p t).Keeps K := by
  unfold State.targetTlp
  (repeat' split) <;> simp (maxDischargeDepth := 30) [*]

@[simp] theorem State.cfgAccess_keeps (s : State) (v n reg : Nat) (wr : Option (BitVec 32)) (poison : Bool) (h0 : s.Keeps K) : (State.cfgAccess s v n reg wr poison).1.Keeps K := by
  unfold State.cfgAccess
  (repeat' split) <;> simp (maxDischargeDepth := 30) [*]

@[simp] theorem State.runCfg_keeps (s : State) (p v n : Nat) (t : Tlp) (h0 : s.Keeps K) : (State.runCfg s p v n t).Keeps K := by
  unfold State.runCfg
  simp (maxDischargeDepth := 30) [h0]

@[simp] theorem State.logAer_keeps (s : State) (fn bit : Nat) (h0 : s.Keeps K) : (State.logAer s fn bit).Keeps K := by
  unfold State.logAer
  exact h0

@[simp] theorem State.sendTlp_keeps (s : State) (p : Nat) (t : Tlp) (h0 : s.Keeps K) : (State.sendTlp s p t).Keeps K := by
  unfold State.sendTlp
  simp [h0]

@[simp] theorem State.unwrapStatus_keeps (s : State) (p : Nat) (f : Frame) (h0 : s.Keeps K) : (State.unwrapStatus s p f).Keeps K := by
  unfold State.unwrapStatus
  (repeat' split) <;> simp (maxDischargeDepth := 30) [*]

@[simp] theorem State.cplToPort_keeps (s : State) (p : Nat) (f : Frame) (h0 : s.Keeps K) : (State.cplToPort s p f).Keeps K := by
  unfold State.cplToPort
  try dsimp only
  repeat' (first | (simp +contextual (maxDischargeDepth := 30) [*]; done) | intro _ | split)

@[simp] theorem State.tlpOut_keeps (s : State) (p : Nat) (r : FrameRec) (h0 : s.Keeps K) : (State.tlpOut s p r).Keeps K := by
  unfold State.tlpOut
  try dsimp only
  repeat' (first | (simp +contextual (maxDischargeDepth := 30) [*]; done) | intro _ | split)

@[simp] theorem State.atPu_keeps (s : State) (pu : Nat) (h0 : s.Keeps K) : (State.atPu s pu).Keeps K := by
  unfold State.atPu
  exact h0

@[simp] theorem State.denied_keeps (s : State) (pu src : Nat) (h : Hdr) (h0 : s.Keeps K) : (State.denied s pu src h).Keeps K := by
  unfold State.denied
  simp (maxDischargeDepth := 30) [h0]

@[simp] theorem State.notePort_keeps (s : State) (r : FrameRec) (e : Egress) (h0 : s.Keeps K) : (State.notePort s r e).Keeps K := by
  unfold State.notePort
  (repeat' split) <;> simp (maxDischargeDepth := 30) [*]

@[simp] theorem State.noteDst_keeps (s : State) (r : FrameRec) (h : Hdr) (h0 : s.Keeps K) : (State.noteDst s r h).Keeps K := by
  unfold State.noteDst
  (repeat' split) <;> simp (maxDischargeDepth := 30) [*]

@[simp] theorem State.instRise_keeps (s : State) (l : Lookup) (h0 : s.Keeps K) : (State.instRise s l).Keeps K := by
  unfold State.instRise
  (repeat' split) <;> simp (maxDischargeDepth := 30) [*]

@[simp] theorem State.orderInst_keeps (s : State) (pu : Nat) (l : Lookup) (h0 : s.Keeps K) : (State.orderInst s pu l).1.Keeps K := by
  unfold State.orderInst
  try dsimp only
  repeat' (first | (simp +contextual (maxDischargeDepth := 30) [*]; done) | intro _ | split)

@[simp] theorem State.endLookup_keeps (s : State) (uid pu : Nat) (r : FrameRec) (l : Lookup) (h0 : s.Keeps K) : (State.endLookup s uid pu r l).Keeps K := by
  unfold State.endLookup
  (repeat' split) <;> simp (maxDischargeDepth := 30) [*]

@[simp] theorem State.lookupNext_keeps (s : State) (src vc : Nat) (h0 : s.Keeps K) : (State.lookupNext s src vc).Keeps K := by
  unfold State.lookupNext
  (repeat' split) <;> simp (maxDischargeDepth := 30) [*]

@[simp] theorem State.endStale_keeps (s : State) (uid pu : Nat) (h0 : s.Keeps K) : (State.endStale s uid pu).Keeps K := by
  unfold State.endStale
  (repeat' split) <;> simp (maxDischargeDepth := 30) [*]

@[simp] theorem State.endAt_keeps (s : State) (uid pu : Nat) (c : EndCause) (h0 : s.Keeps K) : (State.endAt s uid pu c).Keeps K := by
  unfold State.endAt
  (repeat' split) <;> simp (maxDischargeDepth := 30) [*]

@[simp] theorem State.modVoq_keeps (s : State) (k : Nat) (f : Voq → Voq) (h0 : s.Keeps K) : (State.modVoq s k f).Keeps K := by
  unfold State.modVoq
  exact h0

@[simp] theorem State.tryVoq_keeps (s : State) (src vc : Nat) (h0 : s.Keeps K) : (State.tryVoq s src vc).Keeps K := by
  unfold State.tryVoq
  (repeat' split) <;> simp (maxDischargeDepth := 30) [*]

@[simp] theorem State.checkHead_keeps (s : State) (i k n : Nat) (h0 : s.Keeps K) : (s.checkHead i k n).Keeps K := by
  induction n generalizing s with
  | zero => exact h0
  | succ n ih =>
    simp only [State.checkHead]
    repeat' split
    all_goals simp (maxDischargeDepth := 30) [h0, ih]

@[simp] theorem State.sendCell_keeps (s : State) (i m : Nat) (c : NextCell) (h0 : s.Keeps K) : (State.sendCell s i m c).Keeps K := by
  unfold State.sendCell
  simp (maxDischargeDepth := 30) [h0]

@[simp] theorem State.inputSlot_keeps (s0 : State) (i : Nat) (h0 : s0.Keeps K) : (s0.inputSlot i).Keeps K := by
  unfold State.inputSlot
  split
  · exact h0
  · extract_lets m keys s all ok link inj a side s1
    have hs : s.Keeps K := State.each_keeps _ _ _ h0 fun t u ht => by simp [ht]
    have h1 : s1.Keeps K := by simp only [s1]; clear_value s; simp [hs]
    clear_value s1 s
    repeat' split
    all_goals simp (maxDischargeDepth := 30) [h0, h1, hs]

@[simp] theorem State.pmonSlot_keeps (s : State) (h0 : s.Keeps K) : (State.pmonSlot s).Keeps K := by
  unfold State.pmonSlot
  simp (maxDischargeDepth := 30) [h0]

@[simp] theorem State.firstStage_keeps (s : State) (h0 : s.Keeps K) : (State.firstStage s).Keeps K := by
  unfold State.firstStage
  (repeat' split) <;> simp +contextual (maxDischargeDepth := 30) [*]

@[simp] theorem State.midSlot_keeps (s : State) (m : Nat) (h0 : s.Keeps K) : (State.midSlot s m).Keeps K := by
  unfold State.midSlot
  try dsimp only
  repeat' (first | (simp +contextual (maxDischargeDepth := 30) [*]; done) | intro _ | split)

@[simp] theorem State.secondStage_keeps (s : State) (h0 : s.Keeps K) : (State.secondStage s).Keeps K := by
  unfold State.secondStage
  (repeat' split) <;> simp +contextual (maxDischargeDepth := 30) [*]

@[simp] theorem State.markPool_keeps (s : State) (p : Nat) (h0 : s.Keeps K) : (State.markPool s p).Keeps K := by
  unfold State.markPool
  exact h0

@[simp] theorem State.openOutputs_keeps (s : State) (h0 : s.Keeps K) : (State.openOutputs s).Keeps K := by
  unfold State.openOutputs
  (repeat' split) <;> simp +contextual (maxDischargeDepth := 30) [*]

@[simp] theorem State.periodStart_keeps (s : State) (h0 : s.Keeps K) : (State.periodStart s).Keeps K := by
  unfold State.periodStart
  simp (maxDischargeDepth := 30) [h0]

@[simp] theorem State.enqueue_keeps (s : State) (p uid : Nat) (h0 : s.Keeps K) : (State.enqueue s p uid).Keeps K := by
  unfold State.enqueue
  (repeat' split) <;> simp (maxDischargeDepth := 30) [*]

@[simp] theorem State.unhold_keeps (s : State) (p uid : Nat) (h0 : s.Keeps K) : (State.unhold s p uid).Keeps K := by
  unfold State.unhold
  simp [h0]

@[simp] theorem State.releaseHeld_keeps (s : State) (p : Nat) (src : Geid) (cls : BitVec 3) (newer : Option (BitVec 16)) (h0 : s.Keeps K) : (State.releaseHeld s p src cls newer).Keeps K := by
  unfold State.releaseHeld
  try dsimp only
  repeat' (first | (simp +contextual (maxDischargeDepth := 30) [*]; done) | intro _ | split | refine State.each_keeps _ _ _ ?_ ?_)

@[simp] theorem State.toEgress_keeps (s : State) (p uid : Nat) (h0 : s.Keeps K) : (State.toEgress s p uid).Keeps K := by
  unfold State.toEgress
  (repeat' split) <;> simp (maxDischargeDepth := 30) [*]

@[simp] theorem State.noteLastp_keeps (s : State) (p : Nat) (r : FrameRec) (h0 : s.Keeps K) : (State.noteLastp s p r).Keeps K := by
  unfold State.noteLastp
  simp (maxDischargeDepth := 30) [h0]

@[simp] theorem State.modReseq_keeps (s : State) (k : Nat) (f : Reseq → Reseq) (h0 : s.Keeps K) : (State.modReseq s k f).Keeps K := by
  unfold State.modReseq
  exact h0

@[simp] theorem State.loseFrame_keeps (s : State) (uid pu : Nat) (h0 : s.Keeps K) : (State.loseFrame s uid pu).Keeps K := by
  unfold State.loseFrame
  (repeat' split) <;> simp (maxDischargeDepth := 30) [*]

@[simp] theorem State.handOver_keeps (s : State) (uid : Nat) (r : FrameRec) (h0 : s.Keeps K) : (State.handOver s uid r).Keeps K := by
  unfold State.handOver
  (repeat' split) <;> simp (maxDischargeDepth := 30) [*]

@[simp] theorem State.deliverRec_keeps (s : State) (uid pu : Nat) (r : FrameRec) (c : Option EndCause) (h0 : s.Keeps K) : (State.deliverRec s uid pu r c).Keeps K := by
  unfold State.deliverRec
  (repeat' split) <;> simp (maxDischargeDepth := 30) [*]

@[simp] theorem State.deliverFrame_keeps (s : State) (uid pu : Nat) (h0 : s.Keeps K) : (State.deliverFrame s uid pu).Keeps K := by
  unfold State.deliverFrame
  (repeat' split) <;> simp (maxDischargeDepth := 30) [*]

@[simp] theorem State.releaseCell_keeps (s0 : State) (k pu : Nat) (c : Cell) (h0 : s0.Keeps K) : (State.releaseCell s0 k pu c).Keeps K := by
  unfold State.releaseCell
  try dsimp only
  repeat' (first | (simp +contextual (maxDischargeDepth := 30) [*]; done) | intro _ | split)

@[simp] theorem State.releaseRun_keeps (s : State) (k pu n : Nat) (h0 : s.Keeps K) : (s.releaseRun k pu n).Keeps K := by
  induction n generalizing s with
  | zero => exact h0
  | succ n ih =>
    simp only [State.releaseRun]
    split <;> simp (maxDischargeDepth := 30) [h0, ih]

@[simp] theorem State.reseqCell_keeps (s : State) (k pu lead : Nat) (port : Option Nat) (c : Cell) (h0 : s.Keeps K) : (State.reseqCell s k pu lead port c).Keeps K := by
  unfold State.reseqCell
  (repeat' split) <;> simp (maxDischargeDepth := 30) [*]

@[simp] theorem State.dropCell_keeps (s : State) (c : Cell) (pu : Nat) (cause : EndCause) (h0 : s.Keeps K) : (State.dropCell s c pu cause).Keeps K := by
  unfold State.dropCell
  (repeat' split) <;> simp (maxDischargeDepth := 30) [*]

@[simp] theorem State.takeCell_keeps (s0 : State) (o : Nat) (h0 : s0.Keeps K) : (State.takeCell s0 o).Keeps K := by
  unfold State.takeCell
  try dsimp only
  repeat' (first | (simp +contextual (maxDischargeDepth := 30) [*]; done) | intro _ | split)

@[simp] theorem State.skipGap_keeps (s : State) (k pu lead : Nat) (h0 : s.Keeps K) : (State.skipGap s k pu lead).Keeps K := by
  unfold State.skipGap
  try dsimp only
  repeat' (first | (simp +contextual (maxDischargeDepth := 30) [*]; done) | intro _ | split | refine State.each_keeps _ _ _ ?_ ?_)

theorem execCarouselQuery_keeps (mb : Mb) (s : State) (h0 : s.Keeps K) : Kept K (execCarouselQuery mb s) := by
  unfold execCarouselQuery
  try dsimp only
  repeat' (first | (simp +contextual (maxDischargeDepth := 30) [*]; done) | intro _ | split
                 | refine runCmd_keeps _ _ _ _ ?_ ?_ | refine (CmdResult.keeps_done _ _).2 ?_ | refine (kept_next _).2 ?_)

theorem execVoqLimitSet_keeps (mb : Mb) (s : State) (h0 : s.Keeps K) : Kept K (execVoqLimitSet mb s) := by
  unfold execVoqLimitSet
  try dsimp only
  repeat' (first | (simp +contextual (maxDischargeDepth := 30) [*, foldl_keeps]; done) | intro _ | split
                 | refine foldl_keeps _ _ _ ?_ ?_ | refine runCmd_keeps _ _ _ _ ?_ ?_ | refine (CmdResult.keeps_done _ _).2 ?_ | refine (kept_next _).2 ?_
                 | refine State.onPort_keeps _ _ _ _ _ _ ?_)

theorem execMiddleShareSet_keeps (mb : Mb) (s : State) (h0 : s.Keeps K) : Kept K (execMiddleShareSet mb s) := by
  unfold execMiddleShareSet
  try dsimp only
  repeat' (first | (simp +contextual (maxDischargeDepth := 30) [*]; done) | intro _ | split
                 | refine runCmd_keeps _ _ _ _ ?_ ?_ | refine (CmdResult.keeps_done _ _).2 ?_ | refine (kept_next _).2 ?_)

theorem execPcieStoreSet_keeps (mb : Mb) (s : State) (h0 : s.Keeps K) : Kept K (execPcieStoreSet mb s) := by
  unfold execPcieStoreSet
  try dsimp only
  repeat' (first | (simp +contextual (maxDischargeDepth := 30) [*]; done) | intro _ | split
                 | refine runCmd_keeps _ _ _ _ ?_ ?_ | refine (CmdResult.keeps_done _ _).2 ?_ | refine (kept_next _).2 ?_ | refine State.onPort_keeps _ _ _ _ _ _ ?_)

theorem execCarouselCountersRead_keeps (mb : Mb) (s : State) (h0 : s.Keeps K) : Kept K (execCarouselCountersRead mb s) := by
  unfold execCarouselCountersRead
  try dsimp only
  repeat' (first | (simp +contextual (maxDischargeDepth := 30) [*]; done) | intro _ | split
                 | refine runCmd_keeps _ _ _ _ ?_ ?_ | refine (CmdResult.keeps_done _ _).2 ?_ | refine (kept_next _).2 ?_ | refine State.onPu_keeps _ _ _ _ ?_)

@[simp] theorem State.resetHwm_keeps (s : State) (p : Nat) (h0 : s.Keeps K) : (State.resetHwm s p).Keeps K := by
  unfold State.resetHwm
  (repeat' split) <;> simp +contextual (maxDischargeDepth := 30) [*]

theorem execBufferHwmRead_keeps (mb : Mb) (s : State) (h0 : s.Keeps K) : Kept K (execBufferHwmRead mb s) := by
  unfold execBufferHwmRead
  try dsimp only
  repeat' (first | (simp +contextual (maxDischargeDepth := 30) [*]; done) | intro _ | split
                 | refine runCmd_keeps _ _ _ _ ?_ ?_ | refine (CmdResult.keeps_done _ _).2 ?_ | refine (kept_next _).2 ?_ | refine State.onPort_keeps _ _ _ _ _ _ ?_)

theorem execVoqAdmit_keeps (src : SrcNo) (vc : VcNo) (s : State) (h0 : s.Keeps K) : Kept K (execVoqAdmit src vc s) := by
  unfold execVoqAdmit
  simp [h0]

theorem execFirstStageSlot_keeps (s : State) (h0 : s.Keeps K) : Kept K (execFirstStageSlot s) := by
  unfold execFirstStageSlot
  simp [h0]

theorem execSecondStageSlot_keeps (s : State) (h0 : s.Keeps K) : Kept K (execSecondStageSlot s) := by
  unfold execSecondStageSlot
  simp [h0]

theorem execPeriodStart_keeps (s : State) (h0 : s.Keeps K) : Kept K (execPeriodStart s) := by
  unfold execPeriodStart
  simp [h0]

theorem execOutputCellArrival_keeps (o : PuNo) (s : State) (h0 : s.Keeps K) : Kept K (execOutputCellArrival o s) := by
  unfold execOutputCellArrival
  simp [h0]

theorem execReseqGapSkip_keeps (p : PortNo) (src : SrcNo) (vc : VcNo) (s : State) (h0 : s.Keeps K) : Kept K (execReseqGapSkip p src vc s) := by
  unfold execReseqGapSkip
  try dsimp only
  repeat' (first | (simp +contextual (maxDischargeDepth := 30) [*, foldl_keeps]; done) | intro _ | split
                 | refine foldl_keeps _ _ _ ?_ ?_ | refine (kept_next _).2 ?_)

theorem execMiddleBufferDrainEnd_keeps (m : MidNo) (s : State) (h0 : s.Keeps K) : Kept K (execMiddleBufferDrainEnd m s) := by
  unfold execMiddleBufferDrainEnd
  simp [h0]

theorem execMiddleBufferReturn_keeps (m : MidNo) (s : State) (h0 : s.Keeps K) : Kept K (execMiddleBufferReturn m s) := by
  unfold execMiddleBufferReturn
  simp [h0]

@[simp] theorem State.moverRead_keeps (s : State) (id : Nat) (r : MoverRing) (k : Nat) (rd : MoverRead) (desc : Option Nat) (g : Geid) (inst : BitVec 12) (a : BitVec 64) (n : Nat) (cls : BitVec 3) (h0 : s.Keeps K) : (State.moverRead s id r k rd desc g inst a n cls).Keeps K := by
  unfold State.moverRead
  simp (maxDischargeDepth := 30) [h0]

@[simp] theorem State.moverWrite_keeps (s : State) (id : Nat) (r : MoverRing) (d : DescRun) (off : Nat) (data : List Byte) (poison : Bool) (h0 : s.Keeps K) : (State.moverWrite s id r d off data poison).Keeps K := by
  unfold State.moverWrite
  simp (maxDischargeDepth := 30) [h0]

@[simp] theorem State.killDesc_keeps (s : State) (id k : Nat) (h0 : s.Keeps K) : (State.killDesc s id k).Keeps K := by
  unfold State.killDesc
  (repeat' split) <;> simp (maxDischargeDepth := 30) [*]

@[simp] theorem State.ringFailed_keeps (s : State) (id : Nat) (h0 : s.Keeps K) : (State.ringFailed s id).Keeps K := by
  unfold State.ringFailed
  (repeat' split) <;> simp (maxDischargeDepth := 30) [*]

@[simp] theorem State.failDesc_keeps (s : State) (id k : Nat) (st : BitVec 8) (h0 : s.Keeps K) : (State.failDesc s id k st).Keeps K := by
  unfold State.failDesc
  simp (maxDischargeDepth := 30) [h0]

theorem State.stepRecord_keeps (s : State) (id : Nat) (r : MoverRing) (h0 : s.Keeps K) {x : State} (h : State.stepRecord s id r = some x) : x.Keeps K := by
  unfold State.stepRecord at h; (repeat' split at h) <;> first | (cases h; done) | (cases h; simp (maxDischargeDepth := 30) [*]; done)

theorem State.stepWrite_keeps (s : State) (id : Nat) (r : MoverRing) (h0 : s.Keeps K) {x : State} (h : s.stepWrite id r = some x) : x.Keeps K := by
  unfold State.stepWrite at h
  dsimp only at h
  repeat' split at h
  all_goals cases h
  all_goals simp (maxDischargeDepth := 30) [h0]

theorem State.stepRead_keeps (s : State) (id : Nat) (r : MoverRing) (h0 : s.Keeps K) {x : State} (h : State.stepRead s id r = some x) : x.Keeps K := by
  unfold State.stepRead at h; (repeat' split at h) <;> first | (cases h; done) | (cases h; simp (maxDischargeDepth := 30) [*]; done)

theorem State.stepFlush_keeps (s : State) (id : Nat) (r : MoverRing) (h0 : s.Keeps K) {x : State} (h : State.stepFlush s id r = some x) : x.Keeps K := by
  unfold State.stepFlush at h; (repeat' split at h) <;> first | (cases h; done) | (cases h; simp (maxDischargeDepth := 30) [*]; done)

theorem State.stepStart_keeps (s : State) (id : Nat) (r : MoverRing) (h0 : s.Keeps K) {x : State} (h : State.stepStart s id r = some x) : x.Keeps K := by
  unfold State.stepStart at h; (repeat' split at h) <;> first | (cases h; done) | (cases h; simp (maxDischargeDepth := 30) [*]; done)

theorem State.stepFetch_keeps (s : State) (id : Nat) (r : MoverRing) (h0 : s.Keeps K) {x : State} (h : s.stepFetch id r = some x) : x.Keeps K := by
  unfold State.stepFetch at h
  dsimp only at h
  repeat' split at h
  all_goals cases h
  all_goals simp (maxDischargeDepth := 30) [h0]

theorem State.stepRing_keeps (s : State) (id : Nat) (h0 : s.Keeps K) {x : State} (h : s.stepRing id = some x) : x.Keeps K := by
  have h1 := State.moveRing_keeps s id h0
  simp only [State.stepRing] at h
  split at h
  · cases h
  · split at h
    · cases h; exact State.stepRecord_keeps _ _ _ h1 ‹_›
    · split at h
      · cases h; exact State.stepWrite_keeps _ _ _ h1 ‹_›
      · split at h
        · cases h; exact State.stepRead_keeps _ _ _ h1 ‹_›
        · split at h
          · cases h; exact State.stepFlush_keeps _ _ _ h1 ‹_›
          · split at h
            · cases h; exact State.stepStart_keeps _ _ _ h1 ‹_›
            · exact State.stepFetch_keeps _ _ _ h1 h

theorem State.stepMover_keeps (s : State) (j : Nat) (h0 : s.Keeps K) {x : State} (h : s.stepMover j = some x) : x.Keeps K := by
  obtain ⟨id, -, h⟩ := List.exists_of_findSome?_eq_some h
  obtain ⟨t, ht, rfl⟩ := Option.map_eq_some_iff.1 h
  simp [State.stepRing_keeps _ _ h0 ht]

@[simp] theorem State.doorbell_keeps (s : State) (f : Frame) (order : Nat) (h0 : s.Keeps K) : (State.doorbell s f order).Keeps K := by
  unfold State.doorbell
  try dsimp only
  repeat' (first | (simp +contextual (maxDischargeDepth := 30) [*]; done) | intro _ | split)

@[simp] theorem State.fetched_keeps (s : State) (id first n : Nat) (data : List Byte) (st : BitVec 8) (h0 : s.Keeps K) : (State.fetched s id first n data st).Keeps K := by
  unfold State.fetched
  (repeat' split) <;> simp (maxDischargeDepth := 30) [*]

@[simp] theorem State.readEnded_keeps (s : State) (t : MoverTag) (st : BitVec 8) (poison : Bool) (h0 : s.Keeps K) : (State.readEnded s t st poison).Keeps K := by
  unfold State.readEnded
  (repeat' split) <;> simp (maxDischargeDepth := 30) [*]

@[simp] theorem State.moverCpl_keeps (s : State) (f : Frame) (h0 : s.Keeps K) : (State.moverCpl s f).Keeps K := by
  unfold State.moverCpl
  try dsimp only
  repeat' (first | (simp +contextual (maxDischargeDepth := 30) [*]; done) | intro _ | split)

@[simp] theorem State.moverTimeout_keeps (s : State) (tag : BitVec 12) (h0 : s.Keeps K) : (State.moverTimeout s tag).Keeps K := by
  unfold State.moverTimeout
  try dsimp only
  repeat' (first | (simp +contextual (maxDischargeDepth := 30) [*]; done) | intro _ | split)

theorem State.stepSynth_keeps (s : State) (j : Nat) (h0 : s.Keeps K) {x : State} (h : State.stepSynth s j = some x) : x.Keeps K := by
  unfold State.stepSynth at h; (repeat' split at h) <;> first | (cases h; done) | (cases h; simp (maxDischargeDepth := 30) [*]; done)

theorem State.stepAer_keeps (s : State) (j : Nat) (h0 : s.Keeps K) {x : State} (h : State.stepAer s j = some x) : x.Keeps K := by
  unfold State.stepAer at h; (repeat' split at h) <;> first | (cases h; done) | (cases h; simp (maxDischargeDepth := 30) [*]; done)

theorem State.stepBridge_keeps (s : State) (j : Nat) (h0 : s.Keeps K) {x : State} (h : s.stepBridge j = some x) : x.Keeps K := by
  obtain ⟨t, -, rfl⟩ := Option.map_eq_some_iff.1 h
  simp [h0]

theorem State.stepConfig_keeps (s : State) (j : Nat) (h0 : s.Keeps K) {x : State} (h : State.stepConfig s j = some x) : x.Keeps K := by
  unfold State.stepConfig at h; (repeat' split at h) <;> first | (cases h; done) | (cases h; simp (maxDischargeDepth := 30) [*]; done)

@[simp] theorem State.countStep_keeps (s : State) (j prio : Nat) (h0 : s.Keeps K) : (State.countStep s j prio).Keeps K := by
  unfold State.countStep
  simp [h0]

@[simp] theorem State.jugglerStep_keeps (s : State) (j : Nat) (h0 : s.Keeps K) : (s.jugglerStep j).Keeps K := by
  unfold State.jugglerStep
  repeat' split
  · exact State.countStep_keeps _ _ _ (State.stepSynth_keeps _ _ h0 ‹_›)
  · exact State.countStep_keeps _ _ _ (State.stepAer_keeps _ _ h0 ‹_›)
  · exact State.countStep_keeps _ _ _ (State.stepBridge_keeps _ _ h0 ‹_›)
  · exact State.countStep_keeps _ _ _ (State.stepConfig_keeps _ _ h0 ‹_›)
  · exact State.countStep_keeps _ _ _ (State.stepMover_keeps _ _ h0 ‹_›)
  · exact h0

@[simp] theorem State.sweepQueues_keeps (s : State) (p : Nat) (h0 : s.Keeps K) : (s.sweepQueues p).Keeps K := by
  refine State.each_keeps _ _ _ h0 fun t id ht => ?_
  split <;> simp (maxDischargeDepth := 30) [ht]

@[simp] theorem State.modQueue_keeps (s : State) (p k : Nat) (f : EgressQueue → EgressQueue) (h0 : s.Keeps K) : (State.modQueue s p k f).Keeps K := by
  unfold State.modQueue
  exact h0

@[simp] theorem State.countShaperWaits_keeps (s : State) (p : Nat) (h0 : s.Keeps K) : (State.countShaperWaits s p).Keeps K := by
  unfold State.countShaperWaits
  (repeat' split) <;> simp +contextual (maxDischargeDepth := 30) [*]

@[simp] theorem State.countGateWait_keeps (s : State) (p k uid : Nat) (f : Frame) (h0 : s.Keeps K) : (State.countGateWait s p k uid f).Keeps K := by
  unfold State.countGateWait
  simp [h0]

@[simp] theorem State.eligibleQueues_keeps (s : State) (p : Nat) (fc : BitVec 3) (l : List Nat) (a : List (Nat × Nat)) (h0 : s.Keeps K) :
    (s.eligibleQueues p fc l a).1.Keeps K := by
  induction l generalizing s a with
  | nil => exact h0
  | cons k r ih =>
    unfold State.eligibleQueues
    repeat' split
    all_goals exact ih _ _ (by simp (maxDischargeDepth := 30) [h0])

@[simp] theorem State.send_keeps (s : State) (p uid : Nat) (r : FrameRec) (h0 : s.Keeps K) : (State.send s p uid r).Keeps K := by
  unfold State.send
  simp (maxDischargeDepth := 30) [h0]

@[simp] theorem State.boundaryChoice_keeps (s : State) (p : Nat) (fc : BitVec 3) (h0 : s.Keeps K) : (State.boundaryChoice s p fc).Keeps K := by
  unfold State.boundaryChoice
  try dsimp only
  repeat' (first | (simp +contextual (maxDischargeDepth := 30) [*]; done) | intro _ | split)

@[simp] theorem State.frameBoundary_keeps (s0 : State) (p : Nat) (fc : BitVec 3) (h0 : s0.Keeps K) : (State.frameBoundary s0 p fc).Keeps K := by
  unfold State.frameBoundary
  try dsimp only
  repeat' (first | (simp +contextual (maxDischargeDepth := 30) [*]; done) | intro _ | split)

@[simp] theorem State.scheduleGate_keeps (s : State) (p : Nat) (list : Option GateList) (base cycle : Nat) (h0 : s.Keeps K) : (State.scheduleGate s p list base cycle).Keeps K := by
  unfold State.scheduleGate
  exact h0

@[simp] theorem State.startGate_keeps (s : State) (p : Nat) (h0 : s.Keeps K) : (State.startGate s p).Keeps K := by
  unfold State.startGate
  (repeat' split) <;> simp (maxDischargeDepth := 30) [*]

theorem execSchedConfig_keeps (mb : Mb) (s : State) (h0 : s.Keeps K) : Kept K (execSchedConfig mb s) := by
  unfold execSchedConfig
  try dsimp only
  repeat' (first | (simp +contextual (maxDischargeDepth := 30) [*, foldl_keeps]; done) | intro _ | split
                 | refine foldl_keeps _ _ _ ?_ ?_ | refine runCmd_keeps _ _ _ _ ?_ ?_ | refine (CmdResult.keeps_done _ _).2 ?_ | refine (kept_next _).2 ?_
                 | refine State.onPort_keeps _ _ _ _ _ _ ?_)

theorem execShaperSet_keeps (mb : Mb) (s : State) (h0 : s.Keeps K) : Kept K (execShaperSet mb s) := by
  unfold execShaperSet
  try dsimp only
  repeat' (first | (simp +contextual (maxDischargeDepth := 30) [*]; done) | intro _ | split
                 | refine runCmd_keeps _ _ _ _ ?_ ?_ | refine (CmdResult.keeps_done _ _).2 ?_ | refine (kept_next _).2 ?_ | refine State.onPort_keeps _ _ _ _ _ _ ?_)

theorem execMeterSet_keeps (mb : Mb) (s : State) (h0 : s.Keeps K) : Kept K (execMeterSet mb s) := by
  unfold execMeterSet
  try dsimp only
  repeat' (first | (simp +contextual (maxDischargeDepth := 30) [*]; done) | intro _ | split
                 | refine runCmd_keeps _ _ _ _ ?_ ?_ | refine (CmdResult.keeps_done _ _).2 ?_ | refine (kept_next _).2 ?_)

theorem execMeterMapSet_keeps (mb : Mb) (s : State) (h0 : s.Keeps K) : Kept K (execMeterMapSet mb s) := by
  unfold execMeterMapSet
  try dsimp only
  repeat' (first | (simp +contextual (maxDischargeDepth := 30) [*, foldl_keeps]; done) | intro _ | split
                 | refine foldl_keeps _ _ _ ?_ ?_ | refine runCmd_keeps _ _ _ _ ?_ ?_ | refine (CmdResult.keeps_done _ _).2 ?_ | refine (kept_next _).2 ?_)

theorem execPenaltyQueueSet_keeps (mb : Mb) (s : State) (h0 : s.Keeps K) : Kept K (execPenaltyQueueSet mb s) := by
  unfold execPenaltyQueueSet
  try dsimp only
  repeat' (first | (simp +contextual (maxDischargeDepth := 30) [*]; done) | intro _ | split
                 | refine runCmd_keeps _ _ _ _ ?_ ?_ | refine (CmdResult.keeps_done _ _).2 ?_ | refine (kept_next _).2 ?_)

theorem execGateListSet_keeps (mb : Mb) (s : State) (h0 : s.Keeps K) : Kept K (execGateListSet mb s) := by
  unfold execGateListSet
  try dsimp only
  repeat' (first | (simp +contextual (maxDischargeDepth := 30) [*]; done) | intro _ | split
                 | refine runCmd_keeps _ _ _ _ ?_ ?_ | refine (CmdResult.keeps_done _ _).2 ?_ | refine (kept_next _).2 ?_ | refine State.onPort_keeps _ _ _ _ _ _ ?_)

theorem execGateQuery_keeps (mb : Mb) (s : State) (h0 : s.Keeps K) : Kept K (execGateQuery mb s) := by
  unfold execGateQuery
  try dsimp only
  repeat' (first | (simp +contextual (maxDischargeDepth := 30) [*]; done) | intro _ | split
                 | refine runCmd_keeps _ _ _ _ ?_ ?_ | refine (CmdResult.keeps_done _ _).2 ?_ | refine (kept_next _).2 ?_ | refine State.onPort_keeps _ _ _ _ _ _ ?_)

theorem execMeterRead_keeps (mb : Mb) (s : State) (h0 : s.Keeps K) : Kept K (execMeterRead mb s) := by
  unfold execMeterRead
  try dsimp only
  repeat' (first | (simp +contextual (maxDischargeDepth := 30) [*]; done) | intro _ | split
                 | refine runCmd_keeps _ _ _ _ ?_ ?_ | refine (CmdResult.keeps_done _ _).2 ?_ | refine (kept_next _).2 ?_)

theorem execSchedCountersRead_keeps (mb : Mb) (s : State) (h0 : s.Keeps K) : Kept K (execSchedCountersRead mb s) := by
  unfold execSchedCountersRead
  try dsimp only
  repeat' (first | (simp +contextual (maxDischargeDepth := 30) [*]; done) | intro _ | split
                 | refine runCmd_keeps _ _ _ _ ?_ ?_ | refine (CmdResult.keeps_done _ _).2 ?_ | refine (kept_next _).2 ?_ | refine State.onPort_keeps _ _ _ _ _ _ ?_)

@[simp] theorem State.resetSchedHwm_keeps (s : State) (p : Nat) (h0 : s.Keeps K) : (State.resetSchedHwm s p).Keeps K := by
  unfold State.resetSchedHwm
  exact h0

@[simp] theorem State.resetPenaltyHwm_keeps (s : State) (pu : Nat) (h0 : s.Keeps K) : (State.resetPenaltyHwm s pu).Keeps K := by
  unfold State.resetPenaltyHwm
  (repeat' split) <;> simp +contextual (maxDischargeDepth := 30) [*]

theorem execHwmRead_keeps (mb : Mb) (s : State) (h0 : s.Keeps K) : Kept K (execHwmRead mb s) := by
  unfold execHwmRead
  try dsimp only
  repeat' (first | (simp +contextual (maxDischargeDepth := 30) [*]; done) | intro _ | split
                 | refine runCmd_keeps _ _ _ _ ?_ ?_ | refine (CmdResult.keeps_done _ _).2 ?_ | refine (kept_next _).2 ?_
                 | refine State.onPort_keeps _ _ _ _ _ _ ?_ | refine State.onPu_keeps _ _ _ _ ?_)

theorem execEgressFrameBoundary_keeps (p : PortNo) (fc : BitVec 3) (s : State) (h0 : s.Keeps K) : Kept K (execEgressFrameBoundary p fc s) := by
  unfold execEgressFrameBoundary
  simp [h0]

theorem execBucketRefill_keeps (s : State) (h0 : s.Keeps K) : Kept K (execBucketRefill s) := by
  unfold execBucketRefill
  simp [h0]

theorem execPenaltyQueueAdmit_keeps (src : SrcNo) (vc : VcNo) (s : State) (h0 : s.Keeps K) : Kept K (execPenaltyQueueAdmit src vc s) := by
  unfold execPenaltyQueueAdmit
  try dsimp only
  repeat' (first | (simp +contextual (maxDischargeDepth := 30) [*]; done) | intro _ | split | refine (kept_next _).2 ?_)

theorem execGateEntryChange_keeps (p : PortNo) (s : State) (h0 : s.Keeps K) : Kept K (execGateEntryChange p s) := by
  unfold execGateEntryChange
  try dsimp only
  repeat' (first | (simp +contextual (maxDischargeDepth := 30) [*]; done) | intro _ | split | refine (kept_next _).2 ?_)

theorem execGateListStart_keeps (p : PortNo) (s : State) (h0 : s.Keeps K) : Kept K (execGateListStart p s) := by
  unfold execGateListStart
  simp [h0]

end Sys2Proof.Machine
end

