-- ==== Sys2Proof/Laws/KeepsManagement.lean ====
section
/-!
SUPPORT. What the commands of the mailboxes, the fabric, faults, firmware and the Governor leave alone: the queue, the part and the clock, and the bounds `State.Sound`. One lemma per operation.
-/

namespace Sys2Proof.Machine

set_option linter.unusedTactic false
set_option linter.unreachableTactic false
set_option linter.unnecessarySeqFocus false
set_option linter.unusedSimpArgs false

variable {K : List Instr × Part × Nat}

@[simp] theorem State.modPmon_keeps (s : State) (mon : Nat) (f : Pmon → Pmon) (h0 : s.Keeps K) : (State.modPmon s mon f).Keeps K := by
  unfold State.modPmon
  exact h0

@[simp] theorem State.pmonSync_keeps (s : State) (mon : Nat) (h0 : s.Keeps K) : (State.pmonSync s mon).Keeps K := by
  unfold State.pmonSync
  try dsimp only
  repeat' (first | (simp +contextual (maxDischargeDepth := 30) [*]; done) | intro _ | split | refine State.each_keeps _ _ _ ?_ ?_)

@[simp] theorem State.captureMon_keeps (s : State) (mon : Nat) (h0 : s.Keeps K) : (State.captureMon s mon).Keeps K := by
  unfold State.captureMon
  simp (maxDischargeDepth := 30) [h0]

@[simp] theorem State.captureMarks_keeps (s : State) (p : Nat) (clear : Bool) (h0 : s.Keeps K) : (State.captureMarks s p clear).Keeps K := by
  unfold State.captureMarks
  simp (maxDischargeDepth := 30) [h0]

@[simp] theorem State.capture_keeps (s : State) (skewOk : Bool) (h0 : s.Keeps K) : (State.capture s skewOk).Keeps K := by
  unfold State.capture
  (repeat' split) <;> simp +contextual (maxDischargeDepth := 30) [*]

@[simp] theorem State.passSnapshot_keeps (s : State) (before : Nat) (h0 : s.Keeps K) : (State.passSnapshot s before).Keeps K := by
  unfold State.passSnapshot
  (repeat' split) <;> simp (maxDischargeDepth := 30) [*]

@[simp] theorem State.fabricConfig_keeps (s : State) (pl : Nat) (h0 : s.Keeps K) : (s.fabricConfig pl).Keeps K := by
  have hw (m : Mgmt) (f : DirCopy → DirCopy) (h : m.Keeps K) : (m.writeDir f).Keeps K := Mgmt.writeDir_keeps m f h
  simp only [State.fabricConfig]
  repeat' split
  all_goals simp (maxDischargeDepth := 30) [h0, hw]

theorem execFabricConfig_keeps (mb : Mb) (s : State) (h0 : s.Keeps K) : Kept K (execFabricConfig mb s) := by
  unfold execFabricConfig
  try dsimp only
  repeat' (first | (simp +contextual (maxDischargeDepth := 30) [*]; done) | intro _ | split
                 | refine runCmd_keeps _ _ _ _ ?_ ?_ | refine (CmdResult.keeps_done _ _).2 ?_ | refine (kept_next _).2 ?_)

@[simp] theorem State.modStaged_keeps (s : State) (f : Staged → Staged) (h0 : s.Keeps K) : (State.modStaged s f).Keeps K := by
  unfold State.modStaged
  exact h0

theorem execRouteWrite_keeps (mb : Mb) (s : State) (h0 : s.Keeps K) : Kept K (execRouteWrite mb s) := by
  unfold execRouteWrite
  try dsimp only
  repeat' (first | (simp +contextual (maxDischargeDepth := 30) [*, foldl_keeps]; done) | intro _ | split
                 | refine foldl_keeps _ _ _ ?_ ?_ | refine runCmd_keeps _ _ _ _ ?_ ?_ | refine (CmdResult.keeps_done _ _).2 ?_ | refine (kept_next _).2 ?_)

theorem execGroupWrite_keeps (mb : Mb) (s : State) (h0 : s.Keeps K) : Kept K (execGroupWrite mb s) := by
  unfold execGroupWrite
  try dsimp only
  repeat' (first | (simp +contextual (maxDischargeDepth := 30) [*]; done) | intro _ | split
                 | refine runCmd_keeps _ _ _ _ ?_ ?_ | refine (CmdResult.keeps_done _ _).2 ?_ | refine (kept_next _).2 ?_)

theorem execWindowWrite_keeps (mb : Mb) (s : State) (h0 : s.Keeps K) : Kept K (execWindowWrite mb s) := by
  unfold execWindowWrite
  try dsimp only
  repeat' (first | (simp +contextual (maxDischargeDepth := 30) [*]; done) | intro _ | split
                 | refine runCmd_keeps _ _ _ _ ?_ ?_ | refine (CmdResult.keeps_done _ _).2 ?_ | refine (kept_next _).2 ?_)

theorem execEndpointWrite_keeps (mb : Mb) (s : State) (h0 : s.Keeps K) : Kept K (execEndpointWrite mb s) := by
  unfold execEndpointWrite
  try dsimp only
  repeat' (first | (simp +contextual (maxDischargeDepth := 30) [*]; done) | intro _ | split
                 | refine runCmd_keeps _ _ _ _ ?_ ?_ | refine (CmdResult.keeps_done _ _).2 ?_ | refine (kept_next _).2 ?_)

theorem execTableCommit_keeps (mb : Mb) (s : State) (h0 : s.Keeps K) : Kept K (execTableCommit mb s) := by
  unfold execTableCommit
  try dsimp only
  repeat' (first | (simp +contextual (maxDischargeDepth := 30) [*]; done) | intro _ | split
                 | refine runCmd_keeps _ _ _ _ ?_ ?_ | refine (CmdResult.keeps_done _ _).2 ?_ | refine (kept_next _).2 ?_)

theorem execTableDiscard_keeps (mb : Mb) (s : State) (h0 : s.Keeps K) : Kept K (execTableDiscard mb s) := by
  unfold execTableDiscard
  try dsimp only
  repeat' (first | (simp +contextual (maxDischargeDepth := 30) [*]; done) | intro _ | split
                 | refine runCmd_keeps _ _ _ _ ?_ ?_ | refine (CmdResult.keeps_done _ _).2 ?_ | refine (kept_next _).2 ?_)

theorem execEpochWait_keeps (mb : Mb) (s : State) (h0 : s.Keeps K) : Kept K (execEpochWait mb s) := by
  unfold execEpochWait
  try dsimp only
  repeat' (first | (simp +contextual (maxDischargeDepth := 30) [*]; done) | intro _ | split
                 | refine runCmd_keeps _ _ _ _ ?_ ?_ | refine (CmdResult.keeps_done _ _).2 ?_ | refine (kept_next _).2 ?_)

theorem execTableRead_keeps (mb : Mb) (s : State) (h0 : s.Keeps K) : Kept K (execTableRead mb s) := by
  unfold execTableRead
  try dsimp only
  repeat' (first | (simp +contextual (maxDischargeDepth := 30) [*]; done) | intro _ | split
                 | refine runCmd_keeps _ _ _ _ ?_ ?_ | refine (CmdResult.keeps_done _ _).2 ?_ | refine (kept_next _).2 ?_)

theorem execPartnerQuery_keeps (mb : Mb) (s : State) (h0 : s.Keeps K) : Kept K (execPartnerQuery mb s) := by
  unfold execPartnerQuery
  try dsimp only
  repeat' (first | (simp +contextual (maxDischargeDepth := 30) [*]; done) | intro _ | split
                 | refine runCmd_keeps _ _ _ _ ?_ ?_ | refine (CmdResult.keeps_done _ _).2 ?_ | refine (kept_next _).2 ?_ | refine State.onPort_keeps _ _ _ _ _ _ ?_)

theorem execTopologyQuery_keeps (mb : Mb) (s : State) (h0 : s.Keeps K) : Kept K (execTopologyQuery mb s) := by
  unfold execTopologyQuery
  try dsimp only
  repeat' (first | (simp +contextual (maxDischargeDepth := 30) [*]; done) | intro _ | split
                 | refine runCmd_keeps _ _ _ _ ?_ ?_ | refine (CmdResult.keeps_done _ _).2 ?_ | refine (kept_next _).2 ?_)

theorem execFabricTimeConfig_keeps (mb : Mb) (s : State) (h0 : s.Keeps K) : Kept K (execFabricTimeConfig mb s) := by
  unfold execFabricTimeConfig
  try dsimp only
  repeat' (first | (simp +contextual (maxDischargeDepth := 30) [*]; done) | intro _ | split
                 | refine runCmd_keeps _ _ _ _ ?_ ?_ | refine (CmdResult.keeps_done _ _).2 ?_ | refine (kept_next _).2 ?_ | refine State.onNative_keeps _ _ _ _ _ ?_)

theorem execFabricTimeQuery_keeps (mb : Mb) (s : State) (h0 : s.Keeps K) : Kept K (execFabricTimeQuery mb s) := by
  unfold execFabricTimeQuery
  try dsimp only
  repeat' (first | (simp +contextual (maxDischargeDepth := 30) [*]; done) | intro _ | split
                 | refine runCmd_keeps _ _ _ _ ?_ ?_ | refine (CmdResult.keeps_done _ _).2 ?_ | refine (kept_next _).2 ?_)

theorem execFabricCountersRead_keeps (mb : Mb) (s : State) (h0 : s.Keeps K) : Kept K (execFabricCountersRead mb s) := by
  unfold execFabricCountersRead
  try dsimp only
  repeat' (first | (simp +contextual (maxDischargeDepth := 30) [*]; done) | intro _ | split
                 | refine runCmd_keeps _ _ _ _ ?_ ?_ | refine (CmdResult.keeps_done _ _).2 ?_ | refine (kept_next _).2 ?_ | refine State.onPu_keeps _ _ _ _ ?_)

theorem execPartnerSlotSet_keeps (mb : Mb) (s : State) (h0 : s.Keeps K) : Kept K (execPartnerSlotSet mb s) := by
  unfold execPartnerSlotSet
  try dsimp only
  repeat' (first | (simp +contextual (maxDischargeDepth := 30) [*]; done) | intro _ | split
                 | refine runCmd_keeps _ _ _ _ ?_ ?_ | refine (CmdResult.keeps_done _ _).2 ?_ | refine (kept_next _).2 ?_ | refine State.onPort_keeps _ _ _ _ _ _ ?_)

@[simp] theorem State.rmCompletion_keeps (s : State) (f : Frame) (h0 : s.Keeps K) : (State.rmCompletion s f).Keeps K := by
  unfold State.rmCompletion
  try dsimp only
  repeat' (first | (simp +contextual (maxDischargeDepth := 30) [*]; done) | intro _ | split)

@[simp] theorem State.completion_keeps (s : State) (f : Frame) (h0 : s.Keeps K) : (State.completion s f).Keeps K := by
  unfold State.completion
  (repeat' split) <;> simp (maxDischargeDepth := 30) [*]

theorem execCompletionReceive_keeps (f : Frame) (s : State) (h0 : s.Keeps K) : Kept K (execCompletionReceive f s) := by
  unfold execCompletionReceive
  simp (maxDischargeDepth := 30) [h0]

theorem execCompletionTimeout_keeps (requester : Geid) (tag : BitVec 12) (s : State) (h0 : s.Keeps K) : Kept K (execCompletionTimeout requester tag s) := by
  unfold execCompletionTimeout
  try dsimp only
  repeat' (first | (simp +contextual (maxDischargeDepth := 30) [*]; done) | intro _ | split | refine (kept_next _).2 ?_)

theorem execFrameLookup_keeps (src : SrcNo) (vc : VcNo) (s : State) (h0 : s.Keeps K) : Kept K (execFrameLookup src vc s) := by
  unfold execFrameLookup
  simp [h0]

theorem execCommitInEffect_keeps (pu : PuNo) (s : State) (h0 : s.Keeps K) : Kept K (execCommitInEffect pu s) := by
  unfold execCommitInEffect
  simp (maxDischargeDepth := 30) [h0]

theorem execEpochDrained_keeps (tab : TableKind) (e : BitVec 2) (s : State) (h0 : s.Keeps K) : Kept K (execEpochDrained tab e s) := by
  unfold execEpochDrained
  simp (maxDischargeDepth := 30) [h0]

theorem execRouteComputation_keeps (s : State) (h0 : s.Keeps K) : Kept K (execRouteComputation s) := by
  unfold execRouteComputation
  simp (maxDischargeDepth := 30) [h0]

theorem execRouteCommitRetry_keeps (s : State) (h0 : s.Keeps K) : Kept K (execRouteCommitRetry s) := by
  unfold execRouteCommitRetry
  simp [h0]

theorem execLinkStateSend_keeps (s : State) (h0 : s.Keeps K) : Kept K (execLinkStateSend s) := by
  unfold execLinkStateSend
  try dsimp only
  repeat' (first | (simp +contextual (maxDischargeDepth := 30) [*]; done) | intro _ | split
                 | refine State.each_keeps _ _ _ ?_ ?_ | refine (kept_next _).2 ?_)

@[simp] theorem State.setLinkRec_keeps (s : State) (sw : Nat) (r : Option LinkRec) (h0 : s.Keeps K) : (State.setLinkRec s sw r).Keeps K := by
  unfold State.setLinkRec
  exact h0

@[simp] theorem State.evConflict_keeps (s : State) (sw : BitVec 12) (a b : BitVec 64) (h0 : s.Keeps K) : (State.evConflict s sw a b).Keeps K := by
  unfold State.evConflict
  simp [h0]

@[simp] theorem State.forwardRecord_keeps (s : State) (p : Nat) (r : LinkStateRec) (h0 : s.Keeps K) : (State.forwardRecord s p r).Keeps K := by
  unfold State.forwardRecord
  (repeat' split) <;> simp +contextual (maxDischargeDepth := 30) [*]

@[simp] theorem State.linkRecord_keeps (s : State) (p : Nat) (r : LinkStateRec) (h0 : s.Keeps K) : (State.linkRecord s p r).Keeps K := by
  unfold State.linkRecord
  try dsimp only
  repeat' (first | (simp +contextual (maxDischargeDepth := 30) [*]; done) | intro _ | split)

theorem execLinkStateReceive_keeps (p : PortNo) (r : LinkStateRec) (s : State) (h0 : s.Keeps K) : Kept K (execLinkStateReceive p r s) := by
  unfold execLinkStateReceive
  simp (maxDischargeDepth := 30) [h0]

theorem execLinkStateAgeOut_keeps (sw : BitVec 12) (s : State) (h0 : s.Keeps K) : Kept K (execLinkStateAgeOut sw s) := by
  unfold execLinkStateAgeOut
  simp (maxDischargeDepth := 30) [h0]

theorem execTimeSyncExchange_keeps (p : PortNo) (s : State) (h0 : s.Keeps K) : Kept K (execTimeSyncExchange p s) := by
  unfold execTimeSyncExchange
  simp [h0]

@[simp] theorem State.chooseSource_keeps (s : State) (h0 : s.Keeps K) : (State.chooseSource s).Keeps K := by
  unfold State.chooseSource
  try dsimp only
  repeat' (first | (simp +contextual (maxDischargeDepth := 30) [*]; done) | intro _ | split)

theorem execTimeMessageReceive_keeps (p : PortNo) (m : TimeMsg) (s0 : State) (h0 : s0.Keeps K) : Kept K (execTimeMessageReceive p m s0) := by
  unfold execTimeMessageReceive
  try dsimp only
  repeat' (first | (simp +contextual (maxDischargeDepth := 30) [*]; done) | intro _ | split | refine (kept_next _).2 ?_)

theorem execPpsInEdge_keeps (s0 : State) (h0 : s0.Keeps K) : Kept K (execPpsInEdge s0) := by
  unfold execPpsInEdge
  simp (maxDischargeDepth := 30) [h0]

theorem execPpsOutSecond_keeps (s : State) (h0 : s.Keeps K) : Kept K (execPpsOutSecond s) := by
  unfold execPpsOutSecond
  simp (maxDischargeDepth := 30) [h0]

theorem execDoorbell_keeps (mb : Mb) (s : State) (h0 : s.Keeps K) : Kept K (execDoorbell mb s) := by
  unfold execDoorbell
  simp [h0]

theorem execRegisterWrite_keeps (pg : Page) (off : BitVec 12) (v : BitVec 64) (s : State) (h0 : s.Keeps K) : Kept K (execRegisterWrite pg off v s) := by
  unfold execRegisterWrite
  try dsimp only
  repeat' (first | (simp +contextual (maxDischargeDepth := 30) [*]; done) | intro _ | split | refine (kept_next _).2 ?_)

theorem execEvqHeadWrite_keeps (mb : Mb) (v : BitVec 6) (s : State) (h0 : s.Keeps K) : Kept K (execEvqHeadWrite mb v s) := by
  unfold execEvqHeadWrite
  simp [h0]

theorem execEvqOverflowClear_keeps (mb : Mb) (s : State) (h0 : s.Keeps K) : Kept K (execEvqOverflowClear mb s) := by
  unfold execEvqOverflowClear
  simp [h0]

theorem execForceStop_keeps (s : State) (h0 : s.Keeps K) : Kept K (execForceStop s) := by
  unfold execForceStop
  simp [h0]

@[simp] theorem State.rmReply_keeps (s : State) (h : Hdr) (st : BitVec 4) (data : List Byte) (h0 : s.Keeps K) : (State.rmReply s h st data).Keeps K := by
  unfold State.rmReply
  exact h0

theorem execMailboxFrameAccess_keeps (entry : Option PortNo) (f : Frame) (s0 : State) (h0 : s0.Keeps K) : Kept K (execMailboxFrameAccess entry f s0) := by
  unfold execMailboxFrameAccess
  try dsimp only
  repeat' (first | (simp +contextual (maxDischargeDepth := 30) [*]; done) | intro _ | split | refine (kept_next _).2 ?_ | refine require_keeps _ _ ?_)

@[simp] theorem State.serialAck_keeps (s : State) (a : Bool) (h0 : s.Keeps K) : (State.serialAck s a).Keeps K := by
  unfold State.serialAck
  exact h0

theorem writePageBytes_keeps (l : List Byte) (a : State × Nat) (h : a.1.Keeps K) :
    (l.foldl (fun (t : State × Nat) b => (if t.2 < 0x4000 then t.1.writePageByte 63 t.2 b else t.1, t.2 + 1)) a).1.Keeps K := by
  induction l generalizing a with
  | nil => exact h
  | cons b r ih => exact ih _ (by simp [h])
theorem execSerialBlockWrite_keeps (ptr : BitVec 16) (data : List Byte) (pecOk : Bool) (s : State) (h0 : s.Keeps K) :
    Kept K (execSerialBlockWrite ptr data pecOk s) := by
  simp only [execSerialBlockWrite]
  split
  · simp [h0]
  · split
    · simp [h0]
    · exact (kept_next _).2 (State.serialAck_keeps _ _ (writePageBytes_keeps _ _ h0))

theorem execSerialSendByte_keeps (pecOk : Bool) (s : State) (h0 : s.Keeps K) : Kept K (execSerialSendByte pecOk s) := by
  unfold execSerialSendByte
  try dsimp only
  repeat' (first | (simp +contextual (maxDischargeDepth := 30) [*]; done) | intro _ | split | refine (kept_next _).2 ?_)

theorem execSerialWriteWord_keeps (ptr : BitVec 16) (pecOk : Bool) (s : State) (h0 : s.Keeps K) : Kept K (execSerialWriteWord ptr pecOk s) := by
  unfold execSerialWriteWord
  try dsimp only
  repeat' (first | (simp +contextual (maxDischargeDepth := 30) [*]; done) | intro _ | split | refine (kept_next _).2 ?_
                 | refine State.modMgmt_keeps _ _ ?_ ?_)

theorem execSerialBlockRead_keeps (s : State) (h0 : s.Keeps K) : Kept K (execSerialBlockRead s) := by
  unfold execSerialBlockRead
  try dsimp only
  repeat' (first | (simp +contextual (maxDischargeDepth := 30) [*]; done) | intro _ | split | refine (kept_next _).2 ?_
                 | refine State.modMgmt_keeps _ _ ?_ ?_)

theorem execRemoteMailboxReceive_keeps (f : Frame) (s0 : State) (h0 : s0.Keeps K) : Kept K (execRemoteMailboxReceive f s0) := by
  unfold execRemoteMailboxReceive
  try dsimp only
  repeat' (first | (simp +contextual (maxDischargeDepth := 30) [*]; done) | intro _ | split | refine (kept_next _).2 ?_ | refine require_keeps _ _ ?_)

@[simp] theorem State.endSession_keeps (s : State) (n cause : Nat) (h0 : s.Keeps K) : (State.endSession s n cause).Keeps K := by
  unfold State.endSession
  (repeat' split) <;> simp (maxDischargeDepth := 30) [*]

theorem execSessionLeaseExpiry_keeps (mb : Mb) (s : State) (h0 : s.Keeps K) : Kept K (execSessionLeaseExpiry mb s) := by
  unfold execSessionLeaseExpiry
  try dsimp only
  repeat' (first | (simp +contextual (maxDischargeDepth := 30) [*]; done) | intro _ | split | refine (kept_next _).2 ?_)

theorem execSysQuery_keeps (mb : Mb) (s : State) (h0 : s.Keeps K) : Kept K (execSysQuery mb s) := by
  unfold execSysQuery
  try dsimp only
  repeat' (first | (simp +contextual (maxDischargeDepth := 30) [*]; done) | intro _ | split
                 | refine runCmd_keeps _ _ _ _ ?_ ?_ | refine (CmdResult.keeps_done _ _).2 ?_ | refine (kept_next _).2 ?_)

theorem execSysHomeSet_keeps (mb : Mb) (s : State) (h0 : s.Keeps K) : Kept K (execSysHomeSet mb s) := by
  unfold execSysHomeSet
  try dsimp only
  repeat' (first | (simp +contextual (maxDischargeDepth := 30) [*]; done) | intro _ | split
                 | refine runCmd_keeps _ _ _ _ ?_ ?_ | refine (CmdResult.keeps_done _ _).2 ?_ | refine (kept_next _).2 ?_ | refine State.modMgmt_keeps _ _ ?_ ?_)

theorem execMbAccessSet_keeps (mb : Mb) (s : State) (h0 : s.Keeps K) : Kept K (execMbAccessSet mb s) := by
  unfold execMbAccessSet
  try dsimp only
  repeat' (first | (simp +contextual (maxDischargeDepth := 30) [*]; done) | intro _ | split
                 | refine runCmd_keeps _ _ _ _ ?_ ?_ | refine (CmdResult.keeps_done _ _).2 ?_ | refine (kept_next _).2 ?_ | refine State.modMgmt_keeps _ _ ?_ ?_)

theorem execEventLogRead_keeps (mb : Mb) (s : State) (h0 : s.Keeps K) : Kept K (execEventLogRead mb s) := by
  unfold execEventLogRead
  try dsimp only
  repeat' (first | (simp +contextual (maxDischargeDepth := 30) [*]; done) | intro _ | split
                 | refine runCmd_keeps _ _ _ _ ?_ ?_ | refine (CmdResult.keeps_done _ _).2 ?_ | refine (kept_next _).2 ?_)

theorem execMbQuery_keeps (mb : Mb) (s : State) (h0 : s.Keeps K) : Kept K (execMbQuery mb s) := by
  unfold execMbQuery
  try dsimp only
  repeat' (first | (simp +contextual (maxDischargeDepth := 30) [*]; done) | intro _ | split
                 | refine runCmd_keeps _ _ _ _ ?_ ?_ | refine (CmdResult.keeps_done _ _).2 ?_ | refine (kept_next _).2 ?_)

theorem execSessionOpen_keeps (mb : Mb) (s : State) (h0 : s.Keeps K) : Kept K (execSessionOpen mb s) := by
  unfold execSessionOpen
  try dsimp only
  repeat' (first | (simp +contextual (maxDischargeDepth := 30) [*]; done) | intro _ | split
                 | refine runCmd_keeps _ _ _ _ ?_ ?_ | refine (CmdResult.keeps_done _ _).2 ?_ | refine (kept_next _).2 ?_)

theorem execSessionClose_keeps (mb : Mb) (s : State) (h0 : s.Keeps K) : Kept K (execSessionClose mb s) := by
  unfold execSessionClose
  try dsimp only
  repeat' (first | (simp +contextual (maxDischargeDepth := 30) [*]; done) | intro _ | split
                 | refine runCmd_keeps _ _ _ _ ?_ ?_ | refine (CmdResult.keeps_done _ _).2 ?_ | refine (kept_next _).2 ?_)

theorem execEventSubscribe_keeps (mb : Mb) (s : State) (h0 : s.Keeps K) : Kept K (execEventSubscribe mb s) := by
  unfold execEventSubscribe
  try dsimp only
  repeat' (first | (simp +contextual (maxDischargeDepth := 30) [*]; done) | intro _ | split
                 | refine runCmd_keeps _ _ _ _ ?_ ?_ | refine (CmdResult.keeps_done _ _).2 ?_ | refine (kept_next _).2 ?_)

theorem execNotifySet_keeps (mb : Mb) (s : State) (h0 : s.Keeps K) : Kept K (execNotifySet mb s) := by
  unfold execNotifySet
  try dsimp only
  repeat' (first | (simp +contextual (maxDischargeDepth := 30) [*]; done) | intro _ | split
                 | refine runCmd_keeps _ _ _ _ ?_ ?_ | refine (CmdResult.keeps_done _ _).2 ?_ | refine (kept_next _).2 ?_)

@[simp] theorem State.classify_keeps (s : State) (r : FaultRec) (named : Option UnitId) (h0 : s.Keeps K) : (State.classify s r named).Keeps K := by
  unfold State.classify
  (repeat' split) <;> simp +contextual (maxDischargeDepth := 30) [*, foldl_keeps]

theorem execErrorDetect_keeps (src : BitVec 12) (code : BitVec 8) (detail : BitVec 64) (s : State) (h0 : s.Keeps K) : Kept K (execErrorDetect src code detail s) := by
  unfold execErrorDetect
  try dsimp only
  repeat' (first | (simp +contextual (maxDischargeDepth := 30) [*]; done) | intro _ | split | refine (kept_next _).2 ?_ | refine require_keeps _ _ ?_)

theorem execPairChangeSeen_keeps (src : BitVec 12) (s : State) (h0 : s.Keeps K) : Kept K (execPairChangeSeen src s) := by
  unfold execPairChangeSeen
  try dsimp only
  repeat' (first | (simp +contextual (maxDischargeDepth := 30) [*]; done) | intro _ | split | refine (kept_next _).2 ?_ | refine require_keeps _ _ ?_)

theorem execFaultReportClassify_keeps (src : BitVec 12) (code : BitVec 8) (s : State) (h0 : s.Keeps K) : Kept K (execFaultReportClassify src code s) := by
  unfold execFaultReportClassify
  try dsimp only
  repeat' (first | (simp +contextual (maxDischargeDepth := 30) [*]; done) | intro _ | split | refine (kept_next _).2 ?_ | refine require_keeps _ _ ?_)

theorem execPairOnlyTimeout_keeps (src : BitVec 12) (s : State) (h0 : s.Keeps K) : Kept K (execPairOnlyTimeout src s) := by
  unfold execPairOnlyTimeout
  try dsimp only
  repeat' (first | (simp +contextual (maxDischargeDepth := 30) [*]; done) | intro _ | split | refine (kept_next _).2 ?_
                 | refine State.modFaults_keeps _ _ ?_ ?_ | refine require_keeps _ _ ?_)

theorem execWireFault_keeps (src : BitVec 12) (s : State) (h0 : s.Keeps K) : Kept K (execWireFault src s) := by
  unfold execWireFault
  try dsimp only
  repeat' (first | (simp +contextual (maxDischargeDepth := 30) [*]; done) | intro _ | split | refine (kept_next _).2 ?_ | refine require_keeps _ _ ?_)

theorem execMergeIntervalEnd_keeps (src : BitVec 12) (code : BitVec 8) (s : State) (h0 : s.Keeps K) : Kept K (execMergeIntervalEnd src code s) := by
  unfold execMergeIntervalEnd
  try dsimp only
  repeat' (first | (simp +contextual (maxDischargeDepth := 30) [*]; done) | intro _ | split | refine (kept_next _).2 ?_
                 | refine State.modFaults_keeps _ _ ?_ ?_ | refine require_keeps _ _ ?_)

theorem execFaultFrameReceive_keeps (f : Frame) (s0 : State) (h0 : s0.Keeps K) : Kept K (execFaultFrameReceive f s0) := by
  unfold execFaultFrameReceive
  try dsimp only
  repeat' (first | (simp +contextual (maxDischargeDepth := 30) [*]; done) | intro _ | split | refine (kept_next _).2 ?_ | refine require_keeps _ _ ?_)

theorem execAliveToggle_keeps (s : State) (h0 : s.Keeps K) : Kept K (execAliveToggle s) := by
  unfold execAliveToggle
  simp (maxDischargeDepth := 30) [h0]

theorem execLivenessRefresh_keeps (s : State) (h0 : s.Keeps K) : Kept K (execLivenessRefresh s) := by
  unfold execLivenessRefresh
  simp (maxDischargeDepth := 30) [h0]

theorem execLivenessExpiry_keeps (s : State) (h0 : s.Keeps K) : Kept K (execLivenessExpiry s) := by
  unfold execLivenessExpiry
  simp (maxDischargeDepth := 30) [h0]

theorem execFencedInputCleanup_keeps (pu : PuNo) (s : State) (h0 : s.Keeps K) : Kept K (execFencedInputCleanup pu s) := by
  unfold execFencedInputCleanup
  try dsimp only
  repeat' (first | (simp +contextual (maxDischargeDepth := 30) [*]; done) | intro _ | split
                 | refine State.each_keeps _ _ _ ?_ ?_ | refine (kept_next _).2 ?_ | refine State.modFaults_keeps _ _ ?_ ?_)

theorem execBoothWatchdogExpiry_keeps (s : State) (h0 : s.Keeps K) : Kept K (execBoothWatchdogExpiry s) := by
  unfold execBoothWatchdogExpiry
  simp [h0]

theorem execFaultQuery_keeps (mb : Mb) (s : State) (h0 : s.Keeps K) : Kept K (execFaultQuery mb s) := by
  unfold execFaultQuery
  try dsimp only
  repeat' (first | (simp +contextual (maxDischargeDepth := 30) [*]; done) | intro _ | split
                 | refine runCmd_keeps _ _ _ _ ?_ ?_ | refine (CmdResult.keeps_done _ _).2 ?_ | refine (kept_next _).2 ?_)

theorem execFaultLogRead_keeps (mb : Mb) (s : State) (h0 : s.Keeps K) : Kept K (execFaultLogRead mb s) := by
  unfold execFaultLogRead
  try dsimp only
  repeat' (first | (simp +contextual (maxDischargeDepth := 30) [*]; done) | intro _ | split
                 | refine runCmd_keeps _ _ _ _ ?_ ?_ | refine (CmdResult.keeps_done _ _).2 ?_ | refine (kept_next _).2 ?_)

theorem execFaultClear_keeps (mb : Mb) (s : State) (h0 : s.Keeps K) : Kept K (execFaultClear mb s) := by
  refine (kept_next _).2 (runCmd_keeps _ _ _ _ h0 fun t pl len ht => ?_)
  refine (CmdResult.keeps_done _ _).2 (State.modFaults_keeps _ _ ht ?_)
  have hf := ht.faults
  simp only [Faults.Keeps, Faults.Sound] at hf ⊢
  refine ⟨?_, hf.2⟩
  split
  · simp
  · exact hf.1

theorem execFaultSeveritySet_keeps (mb : Mb) (s : State) (h0 : s.Keeps K) : Kept K (execFaultSeveritySet mb s) := by
  unfold execFaultSeveritySet
  try dsimp only
  repeat' (first | (simp +contextual (maxDischargeDepth := 30) [*]; done) | intro _ | split
                 | refine runCmd_keeps _ _ _ _ ?_ ?_ | refine (CmdResult.keeps_done _ _).2 ?_ | refine (kept_next _).2 ?_ | refine State.modFaults_keeps _ _ ?_ ?_)

theorem execFaultFence_keeps (mb : Mb) (s : State) (h0 : s.Keeps K) : Kept K (execFaultFence mb s) := by
  unfold execFaultFence
  try dsimp only
  repeat' (first | (simp +contextual (maxDischargeDepth := 30) [*]; done) | intro _ | split
                 | refine runCmd_keeps _ _ _ _ ?_ ?_ | refine (CmdResult.keeps_done _ _).2 ?_ | refine (kept_next _).2 ?_)

theorem execFaultRelease_keeps (mb : Mb) (s : State) (h0 : s.Keeps K) : Kept K (execFaultRelease mb s) := by
  unfold execFaultRelease
  try dsimp only
  repeat' (first | (simp +contextual (maxDischargeDepth := 30) [*]; done) | intro _ | split
                 | refine runCmd_keeps _ _ _ _ ?_ ?_ | refine (CmdResult.keeps_done _ _).2 ?_ | refine (kept_next _).2 ?_)

theorem execFenceQuery_keeps (mb : Mb) (s : State) (h0 : s.Keeps K) : Kept K (execFenceQuery mb s) := by
  unfold execFenceQuery
  try dsimp only
  repeat' (first | (simp +contextual (maxDischargeDepth := 30) [*]; done) | intro _ | split
                 | refine runCmd_keeps _ _ _ _ ?_ ?_ | refine (CmdResult.keeps_done _ _).2 ?_ | refine (kept_next _).2 ?_)

theorem execFaultSupervise_keeps (mb : Mb) (s : State) (h0 : s.Keeps K) : Kept K (execFaultSupervise mb s) := by
  unfold execFaultSupervise
  try dsimp only
  repeat' (first | (simp +contextual (maxDischargeDepth := 30) [*]; done) | intro _ | split
                 | refine runCmd_keeps _ _ _ _ ?_ ?_ | refine (CmdResult.keeps_done _ _).2 ?_ | refine (kept_next _).2 ?_)

theorem execFaultInject_keeps (mb : Mb) (s : State) (h0 : s.Keeps K) : Kept K (execFaultInject mb s) := by
  unfold execFaultInject
  try dsimp only
  repeat' (first | (simp +contextual (maxDischargeDepth := 30) [*]; done) | intro _ | split
                 | refine runCmd_keeps _ _ _ _ ?_ ?_ | refine (CmdResult.keeps_done _ _).2 ?_ | refine (kept_next _).2 ?_)

theorem execFaultForwardSet_keeps (mb : Mb) (s : State) (h0 : s.Keeps K) : Kept K (execFaultForwardSet mb s) := by
  unfold execFaultForwardSet
  try dsimp only
  repeat' (first | (simp +contextual (maxDischargeDepth := 30) [*]; done) | intro _ | split
                 | refine runCmd_keeps _ _ _ _ ?_ ?_ | refine (CmdResult.keeps_done _ _).2 ?_ | refine (kept_next _).2 ?_ | refine State.modFaults_keeps _ _ ?_ ?_)

theorem execFaultCountersRead_keeps (mb : Mb) (s : State) (h0 : s.Keeps K) : Kept K (execFaultCountersRead mb s) := by
  unfold execFaultCountersRead
  try dsimp only
  repeat' (first | (simp +contextual (maxDischargeDepth := 30) [*]; done) | intro _ | split
                 | refine runCmd_keeps _ _ _ _ ?_ ?_ | refine (CmdResult.keeps_done _ _).2 ?_ | refine (kept_next _).2 ?_ | refine State.modFaults_keeps _ _ ?_ ?_)

@[simp] theorem State.weftStart_keeps (s : State) (newImage : Bool) (h0 : s.Keeps K) : (State.weftStart s newImage).Keeps K := by
  unfold State.weftStart
  simp (maxDischargeDepth := 30) [h0]

@[simp] theorem State.evCal_keeps (s : State) (mask : Nat) (h0 : s.Keeps K) : (State.evCal s mask).Keeps K := by
  unfold State.evCal
  simp [h0]

@[simp] theorem State.modCal_keeps (s : State) (f : CalStore → CalStore) (h0 : s.Keeps K) : (State.modCal s f).Keeps K := by
  unfold State.modCal
  exact h0

@[simp] theorem State.setBistRec_keeps (s : State) (u : UnitId) (r : BistRec) (h0 : s.Keeps K) : (State.setBistRec s u r).Keeps K := by
  unfold State.setBistRec
  exact h0

@[simp] theorem State.testStart_keeps (s : State) (u : UnitId) (h0 : s.Keeps K) : (State.testStart s u).Keeps K := by
  unfold State.testStart
  (repeat' split) <;> simp (maxDischargeDepth := 30) [*]

@[simp] theorem State.testDone_keeps (s : State) (u : UnitId) (h0 : s.Keeps K) : (State.testDone s u).Keeps K := by
  unfold State.testDone
  (repeat' split) <;> simp (maxDischargeDepth := 30) [*]

@[simp] theorem State.finishTests_keeps (s : State) (h0 : s.Keeps K) : (State.finishTests s).Keeps K := by
  unfold State.finishTests
  (repeat' split) <;> simp +contextual (maxDischargeDepth := 30) [*, foldl_keeps]

theorem execFwQuery_keeps (mb : Mb) (s : State) (h0 : s.Keeps K) : Kept K (execFwQuery mb s) := by
  unfold execFwQuery
  try dsimp only
  repeat' (first | (simp +contextual (maxDischargeDepth := 30) [*]; done) | intro _ | split
                 | refine runCmd_keeps _ _ _ _ ?_ ?_ | refine (CmdResult.keeps_done _ _).2 ?_ | refine (kept_next _).2 ?_)

theorem Mgmt.modSlot_keeps (m : Mgmt) (b : Bool) (f : ImageSlot → ImageSlot) (h : m.Keeps K) : (m.modSlot b f).Keeps K := by
  simp only [Mgmt.modSlot]
  split <;> exact h
theorem execFwWriteBegin_keeps (mb : Mb) (s : State) (h0 : s.Keeps K) : Kept K (execFwWriteBegin mb s) := by
  refine (kept_next _).2 (runCmd_keeps _ _ _ _ h0 fun t pl len ht => ?_)
  extract_lets b n
  split
  · trivial
  · exact State.modMgmt_keeps _ _ ht ((Mgmt.keeps_mk _ _ _ _ _ _ _ _ _ _ _ _ _ _ _ _ _ _ _ _ _ _ _ _ _ _ _ _ _ _ _ _ _ _ _).2 (Mgmt.modSlot_keeps _ _ _ ht.mgmt))

theorem execFwWrite_keeps (mb : Mb) (s : State) (h0 : s.Keeps K) : Kept K (execFwWrite mb s) := by
  refine (kept_next _).2 (runCmd_keeps _ _ _ _ h0 fun t pl len ht => ?_)
  split
  · trivial
  · split
    · trivial
    · exact State.modMgmt_keeps _ _ ht ((Mgmt.keeps_mk _ _ _ _ _ _ _ _ _ _ _ _ _ _ _ _ _ _ _ _ _ _ _ _ _ _ _ _ _ _ _ _ _ _ _).2 (Mgmt.modSlot_keeps _ _ _ ht.mgmt))

theorem execFwWriteEnd_keeps (mb : Mb) (s : State) (h0 : s.Keeps K) : Kept K (execFwWriteEnd mb s) := by
  refine (kept_next _).2 (runCmd_keeps _ _ _ _ h0 fun t pl len ht => ?_)
  split
  · trivial
  · split
    · exact State.modMgmt_keeps _ _ ht ((Mgmt.keeps_mk _ _ _ _ _ _ _ _ _ _ _ _ _ _ _ _ _ _ _ _ _ _ _ _ _ _ _ _ _ _ _ _ _ _ _).2 (Mgmt.modSlot_keeps _ _ _ ht.mgmt))
    · trivial

theorem execFwActivate_keeps (mb : Mb) (s : State) (h0 : s.Keeps K) : Kept K (execFwActivate mb s) := by
  unfold execFwActivate
  try dsimp only
  repeat' (first | (simp +contextual (maxDischargeDepth := 30) [*]; done) | intro _ | split
                 | refine runCmd_keeps _ _ _ _ ?_ ?_ | refine (CmdResult.keeps_done _ _).2 ?_ | refine (kept_next _).2 ?_ | refine State.modMgmt_keeps _ _ ?_ ?_)

theorem execFwConfirm_keeps (mb : Mb) (s : State) (h0 : s.Keeps K) : Kept K (execFwConfirm mb s) := by
  unfold execFwConfirm
  try dsimp only
  repeat' (first | (simp +contextual (maxDischargeDepth := 30) [*]; done) | intro _ | split
                 | refine runCmd_keeps _ _ _ _ ?_ ?_ | refine (CmdResult.keeps_done _ _).2 ?_ | refine (kept_next _).2 ?_ | refine State.modMgmt_keeps _ _ ?_ ?_)

theorem execFwRestart_keeps (mb : Mb) (s : State) (h0 : s.Keeps K) : Kept K (execFwRestart mb s) := by
  unfold execFwRestart
  try dsimp only
  repeat' (first | (simp +contextual (maxDischargeDepth := 30) [*]; done) | intro _ | split
                 | refine runCmd_keeps _ _ _ _ ?_ ?_ | refine (CmdResult.keeps_done _ _).2 ?_ | refine (kept_next _).2 ?_)

theorem execWeftResetEnd_keeps (s : State) (h0 : s.Keeps K) : Kept K (execWeftResetEnd s) := by
  unfold execWeftResetEnd
  try dsimp only
  repeat' (first | (simp +contextual (maxDischargeDepth := 30) [*]; done) | intro _ | split | refine (kept_next _).2 ?_
                 | refine State.modMgmt_keeps _ _ ?_ ?_ | refine State.modFaults_keeps _ _ ?_ ?_)

theorem execCalRead_keeps (mb : Mb) (s : State) (h0 : s.Keeps K) : Kept K (execCalRead mb s) := by
  unfold execCalRead
  try dsimp only
  repeat' (first | (simp +contextual (maxDischargeDepth := 30) [*]; done) | intro _ | split
                 | refine runCmd_keeps _ _ _ _ ?_ ?_ | refine (CmdResult.keeps_done _ _).2 ?_ | refine (kept_next _).2 ?_)

theorem execCalWrite_keeps (mb : Mb) (s : State) (h0 : s.Keeps K) : Kept K (execCalWrite mb s) := by
  unfold execCalWrite
  try dsimp only
  repeat' (first | (simp +contextual (maxDischargeDepth := 30) [*]; done) | intro _ | split
                 | refine runCmd_keeps _ _ _ _ ?_ ?_ | refine (CmdResult.keeps_done _ _).2 ?_ | refine (kept_next _).2 ?_)

theorem execCalExport_keeps (mb : Mb) (s : State) (h0 : s.Keeps K) : Kept K (execCalExport mb s) := by
  unfold execCalExport
  try dsimp only
  repeat' (first | (simp +contextual (maxDischargeDepth := 30) [*]; done) | intro _ | split
                 | refine runCmd_keeps _ _ _ _ ?_ ?_ | refine (CmdResult.keeps_done _ _).2 ?_ | refine (kept_next _).2 ?_)

theorem execCalImport_keeps (mb : Mb) (s : State) (h0 : s.Keeps K) : Kept K (execCalImport mb s) := by
  unfold execCalImport
  try dsimp only
  repeat' (first | (simp +contextual (maxDischargeDepth := 30) [*]; done) | intro _ | split
                 | refine runCmd_keeps _ _ _ _ ?_ ?_ | refine (CmdResult.keeps_done _ _).2 ?_ | refine (kept_next _).2 ?_)

@[simp] theorem State.modGov_keeps (s : State) (f : Governor → Governor) (h0 : s.Keeps K) : (State.modGov s f).Keeps K := by
  unfold State.modGov
  exact h0

theorem execGovernorMeasure_keeps (milliwatts : Nat) (s : State) (h0 : s.Keeps K) : Kept K (execGovernorMeasure milliwatts s) := by
  unfold execGovernorMeasure
  simp (maxDischargeDepth := 30) [h0]

theorem execVidUpdate_keeps (s : State) (h0 : s.Keeps K) : Kept K (execVidUpdate s) := by
  unfold execVidUpdate
  simp [h0]

theorem execThermalCheck_keeps (tj : ℤ) (s : State) (h0 : s.Keeps K) : Kept K (execThermalCheck tj s) := by
  unfold execThermalCheck
  simp (maxDischargeDepth := 30) [h0]

theorem execRailFault_keeps (_r : RailNo) (s : State) (h0 : s.Keeps K) : Kept K (execRailFault _r s) := by
  unfold execRailFault
  simp [h0]

theorem execRefclkAoLoss_keeps (s : State) (h0 : s.Keeps K) : Kept K (execRefclkAoLoss s) := by
  unfold execRefclkAoLoss
  simp (maxDischargeDepth := 30) [h0]

theorem execRefclkAoReturn_keeps (s : State) (h0 : s.Keeps K) : Kept K (execRefclkAoReturn s) := by
  unfold execRefclkAoReturn
  simp [h0]

theorem execRefclkLoss_keeps (r : RingNo) (s : State) (h0 : s.Keeps K) : Kept K (execRefclkLoss r s) := by
  unfold execRefclkLoss
  try dsimp only
  repeat' (first | (simp +contextual (maxDischargeDepth := 30) [*]; done) | intro _ | split
                 | refine State.each_keeps _ _ _ ?_ ?_ | refine (kept_next _).2 ?_)

theorem execJtagUnlock_keeps (token : BitVec 768) (s : State) (h0 : s.Keeps K) : Kept K (execJtagUnlock token s) := by
  unfold execJtagUnlock
  simp [h0]

end Sys2Proof.Machine
end

