-- ==== Sys2Proof/Laws/KeepsPorts.lean ====
section
/-!
SUPPORT. What the commands and events of partitions, Jugglers, ports and links leave alone: the queue, the part and the clock, and the bounds `State.Sound`. One lemma per operation.
-/

namespace Sys2Proof.Machine

set_option linter.unusedTactic false
set_option linter.unreachableTactic false
set_option linter.unnecessarySeqFocus false
set_option linter.unusedSimpArgs false

variable {K : List Instr × Part × Nat}

@[simp] theorem State.stagePolicy_keeps (s : State) (w : PolicyWrite) (h0 : s.Keeps K) : (State.stagePolicy s w).Keeps K := by
  unfold State.stagePolicy
  exact h0

theorem execPartitionCreate_keeps (mb : Mb) (s : State) (h0 : s.Keeps K) : Kept K (execPartitionCreate mb s) := by
  unfold execPartitionCreate
  try dsimp only
  repeat' (first | (simp +contextual (maxDischargeDepth := 30) [*]; done) | intro _ | split
                 | refine runCmd_keeps _ _ _ _ ?_ ?_ | refine (CmdResult.keeps_done _ _).2 ?_ | refine (kept_next _).2 ?_)

@[simp] theorem State.freeMailboxes_keeps (s : State) (o : BitVec 8) (h0 : s.Keeps K) : (State.freeMailboxes s o).Keeps K := by
  unfold State.freeMailboxes
  (repeat' split) <;> simp +contextual (maxDischargeDepth := 30) [*]

theorem execPartitionDestroy_keeps (mb : Mb) (s : State) (h0 : s.Keeps K) : Kept K (execPartitionDestroy mb s) := by
  unfold execPartitionDestroy
  try dsimp only
  repeat' (first | (simp +contextual (maxDischargeDepth := 30) [*]; done) | intro _ | split
                 | refine runCmd_keeps _ _ _ _ ?_ ?_ | refine (CmdResult.keeps_done _ _).2 ?_ | refine (kept_next _).2 ?_)

theorem execPartitionAssign_keeps (mb : Mb) (s : State) (h0 : s.Keeps K) : Kept K (execPartitionAssign mb s) := by
  unfold execPartitionAssign
  try dsimp only
  repeat' (first | (simp +contextual (maxDischargeDepth := 30) [*]; done) | intro _ | split
                 | refine runCmd_keeps _ _ _ _ ?_ ?_ | refine (CmdResult.keeps_done _ _).2 ?_ | refine (kept_next _).2 ?_ | refine State.onPort_keeps _ _ _ _ _ _ ?_)

theorem execPartitionConfig_keeps (mb : Mb) (s : State) (h0 : s.Keeps K) : Kept K (execPartitionConfig mb s) := by
  unfold execPartitionConfig
  try dsimp only
  repeat' (first | (simp +contextual (maxDischargeDepth := 30) [*]; done) | intro _ | split
                 | refine runCmd_keeps _ _ _ _ ?_ ?_ | refine (CmdResult.keeps_done _ _).2 ?_ | refine (kept_next _).2 ?_)

theorem execPartitionGrant_keeps (mb : Mb) (s : State) (h0 : s.Keeps K) : Kept K (execPartitionGrant mb s) := by
  unfold execPartitionGrant
  try dsimp only
  repeat' (first | (simp +contextual (maxDischargeDepth := 30) [*]; done) | intro _ | split
                 | refine runCmd_keeps _ _ _ _ ?_ ?_ | refine (CmdResult.keeps_done _ _).2 ?_ | refine (kept_next _).2 ?_)

theorem execPortTrustSet_keeps (mb : Mb) (s : State) (h0 : s.Keeps K) : Kept K (execPortTrustSet mb s) := by
  unfold execPortTrustSet
  try dsimp only
  repeat' (first | (simp +contextual (maxDischargeDepth := 30) [*]; done) | intro _ | split
                 | refine runCmd_keeps _ _ _ _ ?_ ?_ | refine (CmdResult.keeps_done _ _).2 ?_ | refine (kept_next _).2 ?_ | refine State.onPort_keeps _ _ _ _ _ _ ?_)

theorem execPartitionQuery_keeps (mb : Mb) (s : State) (h0 : s.Keeps K) : Kept K (execPartitionQuery mb s) := by
  unfold execPartitionQuery
  try dsimp only
  repeat' (first | (simp +contextual (maxDischargeDepth := 30) [*]; done) | intro _ | split
                 | refine runCmd_keeps _ _ _ _ ?_ ?_ | refine (CmdResult.keeps_done _ _).2 ?_ | refine (kept_next _).2 ?_)

theorem execVhCreate_keeps (mb : Mb) (s : State) (h0 : s.Keeps K) : Kept K (execVhCreate mb s) := by
  unfold execVhCreate
  try dsimp only
  repeat' (first | (simp +contextual (maxDischargeDepth := 30) [*]; done) | intro _ | split
                 | refine runCmd_keeps _ _ _ _ ?_ ?_ | refine (CmdResult.keeps_done _ _).2 ?_ | refine (kept_next _).2 ?_ | refine State.onPort_keeps _ _ _ _ _ _ ?_)

theorem execVhDestroy_keeps (mb : Mb) (s : State) (h0 : s.Keeps K) : Kept K (execVhDestroy mb s) := by
  unfold execVhDestroy
  try dsimp only
  repeat' (first | (simp +contextual (maxDischargeDepth := 30) [*]; done) | intro _ | split
                 | refine runCmd_keeps _ _ _ _ ?_ ?_ | refine (CmdResult.keeps_done _ _).2 ?_ | refine (kept_next _).2 ?_)

theorem execVhBind_keeps (mb : Mb) (s : State) (h0 : s.Keeps K) : Kept K (execVhBind mb s) := by
  unfold execVhBind
  try dsimp only
  repeat' (first | (simp +contextual (maxDischargeDepth := 30) [*]; done) | intro _ | split
                 | refine runCmd_keeps _ _ _ _ ?_ ?_ | refine (CmdResult.keeps_done _ _).2 ?_ | refine (kept_next _).2 ?_)

theorem execVhQuery_keeps (mb : Mb) (s : State) (h0 : s.Keeps K) : Kept K (execVhQuery mb s) := by
  unfold execVhQuery
  try dsimp only
  repeat' (first | (simp +contextual (maxDischargeDepth := 30) [*]; done) | intro _ | split
                 | refine runCmd_keeps _ _ _ _ ?_ ?_ | refine (CmdResult.keeps_done _ _).2 ?_ | refine (kept_next _).2 ?_)

theorem execSharedEndpointSet_keeps (mb : Mb) (cap : Option (BitVec 64)) (s : State) (h0 : s.Keeps K) : Kept K (execSharedEndpointSet mb cap s) := by
  refine (kept_next _).2 (runCmd_keeps _ _ _ _ h0 fun t pl len ht => State.onNative_keeps _ _ _ _ _ fun p => ?_)
  split
  · trivial
  · extract_lets n
    split
    · trivial
    · exact State.stagePolicy_keeps _ _ ht

theorem execInstanceCreate_keeps (mb : Mb) (s : State) (h0 : s.Keeps K) : Kept K (execInstanceCreate mb s) := by
  refine (kept_next _).2 (runCmd_keeps _ _ _ _ h0 fun t pl len ht => State.onNative_keeps _ _ _ _ _ fun p => ?_)
  extract_lets t' id
  split
  · trivial
  · repeat' (split; trivial)
    exact State.stagePolicy_keeps _ _ ht

theorem State.onInst_keeps (s : State) (n quad id : Nat) (k : Nat → InstRec → CmdResult) (hk : ∀ p r, (k p r).Keeps K) : (s.onInst n quad id k).Keeps K := by
  simp only [State.onInst]
  repeat' split
  all_goals simp [hk]
theorem State.onRing_keeps (s : State) (n id : Nat) (k : MoverRing → CmdResult) (hk : ∀ r, (k r).Keeps K) : (s.onRing n id k).Keeps K := by
  simp only [State.onRing]
  repeat' split
  all_goals simp [hk]
theorem State.onLane_keeps (s : State) (n ln : Nat) (k : CmdResult) (hk : k.Keeps K) : (s.onLane n ln k).Keeps K := by
  simp only [State.onLane]
  repeat' split
  all_goals simp [hk]
theorem State.onPw_keeps (s : State) (n : Nat) (b : Bool) (k : PwPort → CmdResult) (hk : ∀ x, (k x).Keeps K) : (s.onPw n b k).Keeps K := by
  simp only [State.onPw]
  split <;> simp [hk]
theorem State.onChan_keeps (s : State) (n c : Nat) (k : CmdResult) (hk : k.Keeps K) : (s.onChan n c k).Keeps K := by
  simp only [State.onChan]
  split <;> simp [hk]
theorem runSlot_keeps (c : CmdSpec) (body : State → Nat → Nat → CmdResult) (n : Nat) (s : State) (h0 : s.Keeps K)
    (hb : ∀ t pl len, t.Keeps K → (body t pl len).Keeps K) : (runSlot c body n s).Keeps K := by
  simp only [runSlot]
  split
  · exact h0
  · exact runCmd_keeps _ _ _ _ h0 hb

@[simp] theorem State.clearXlate_keeps (s : State) (r : InstRec) (h0 : s.Keeps K) : (State.clearXlate s r).Keeps K := by
  unfold State.clearXlate
  exact h0

@[simp] theorem State.endInst_keeps (s : State) (p id : Nat) (r : InstRec) (h0 : s.Keeps K) : (State.endInst s p id r).Keeps K := by
  unfold State.endInst
  try dsimp only
  repeat' (first | (simp +contextual (maxDischargeDepth := 30) [*]; done) | intro _ | split | refine State.each_keeps _ _ _ ?_ ?_)

@[simp] theorem State.beginReset_keeps (s : State) (p id cause ms_ : Nat) (destroy : Bool) (h0 : s.Keeps K) : (State.beginReset s p id cause ms_ destroy).Keeps K := by
  unfold State.beginReset
  simp (maxDischargeDepth := 30) [h0]

theorem execInstanceDestroy_keeps (mb : Mb) (s : State) (h0 : s.Keeps K) : Kept K (execInstanceDestroy mb s) := by
  unfold execInstanceDestroy
  try dsimp only
  repeat' (first | (simp +contextual (maxDischargeDepth := 30) [*]; done) | intro _ | split
                 | refine runCmd_keeps _ _ _ _ ?_ ?_ | refine (CmdResult.keeps_done _ _).2 ?_ | refine (kept_next _).2 ?_ | refine State.onInst_keeps _ _ _ _ _ ?_)

@[simp] theorem State.setInstRec_keeps (s : State) (p id : Nat) (r : InstRec) (h0 : s.Keeps K) : (State.setInstRec s p id r).Keeps K := by
  unfold State.setInstRec
  exact h0

@[simp] theorem State.moveXlate_keeps (s : State) (r : InstRec) (first n : Nat) (h0 : s.Keeps K) : (State.moveXlate s r first n).Keeps K := by
  unfold State.moveXlate
  exact h0

theorem execInstanceShareSet_keeps (mb : Mb) (s : State) (h0 : s.Keeps K) : Kept K (execInstanceShareSet mb s) := by
  unfold execInstanceShareSet
  try dsimp only
  repeat' (first | (simp +contextual (maxDischargeDepth := 30) [*]; done) | intro _ | split
                 | refine runCmd_keeps _ _ _ _ ?_ ?_ | refine (CmdResult.keeps_done _ _).2 ?_ | refine (kept_next _).2 ?_ | refine State.onInst_keeps _ _ _ _ _ ?_)

@[simp] theorem State.pauseRings_keeps (s : State) (p id : Nat) (h0 : s.Keeps K) : (State.pauseRings s p id).Keeps K := by
  unfold State.pauseRings
  try dsimp only
  repeat' (first | (simp +contextual (maxDischargeDepth := 30) [*]; done) | intro _ | split | refine State.each_keeps _ _ _ ?_ ?_)

@[simp] theorem State.resumeRings_keeps (s : State) (p id : Nat) (h0 : s.Keeps K) : (State.resumeRings s p id).Keeps K := by
  unfold State.resumeRings
  try dsimp only
  repeat' (first | (simp +contextual (maxDischargeDepth := 30) [*]; done) | intro _ | split | refine State.each_keeps _ _ _ ?_ ?_)

theorem execInstanceQuiesce_keeps (mb : Mb) (s : State) (h0 : s.Keeps K) : Kept K (execInstanceQuiesce mb s) := by
  unfold execInstanceQuiesce
  try dsimp only
  repeat' (first | (simp +contextual (maxDischargeDepth := 30) [*]; done) | intro _ | split
                 | refine runCmd_keeps _ _ _ _ ?_ ?_ | refine (CmdResult.keeps_done _ _).2 ?_ | refine (kept_next _).2 ?_ | refine State.onInst_keeps _ _ _ _ _ ?_)

theorem execInstanceResume_keeps (mb : Mb) (s : State) (h0 : s.Keeps K) : Kept K (execInstanceResume mb s) := by
  unfold execInstanceResume
  try dsimp only
  repeat' (first | (simp +contextual (maxDischargeDepth := 30) [*]; done) | intro _ | split
                 | refine runCmd_keeps _ _ _ _ ?_ ?_ | refine (CmdResult.keeps_done _ _).2 ?_ | refine (kept_next _).2 ?_ | refine State.onInst_keeps _ _ _ _ _ ?_)

theorem execInstanceReset_keeps (mb : Mb) (s : State) (h0 : s.Keeps K) : Kept K (execInstanceReset mb s) := by
  unfold execInstanceReset
  try dsimp only
  repeat' (first | (simp +contextual (maxDischargeDepth := 30) [*]; done) | intro _ | split
                 | refine runCmd_keeps _ _ _ _ ?_ ?_ | refine (CmdResult.keeps_done _ _).2 ?_ | refine (kept_next _).2 ?_ | refine State.onInst_keeps _ _ _ _ _ ?_)

theorem execInstanceResetForce_keeps (mb : Mb) (s : State) (h0 : s.Keeps K) : Kept K (execInstanceResetForce mb s) := by
  unfold execInstanceResetForce
  try dsimp only
  repeat' (first | (simp +contextual (maxDischargeDepth := 30) [*]; done) | intro _ | split
                 | refine runCmd_keeps _ _ _ _ ?_ ?_ | refine (CmdResult.keeps_done _ _).2 ?_ | refine (kept_next _).2 ?_ | refine State.onInst_keeps _ _ _ _ _ ?_)

theorem execInstanceXlateSet_keeps (mb : Mb) (s : State) (h0 : s.Keeps K) : Kept K (execInstanceXlateSet mb s) := by
  unfold execInstanceXlateSet
  try dsimp only
  repeat' (first | (simp +contextual (maxDischargeDepth := 30) [*, foldl_keeps]; done) | intro _ | split
                 | refine foldl_keeps _ _ _ ?_ ?_ | refine runCmd_keeps _ _ _ _ ?_ ?_ | refine (CmdResult.keeps_done _ _).2 ?_ | refine (kept_next _).2 ?_
                 | refine State.onInst_keeps _ _ _ _ _ ?_)

theorem execInstanceQuery_keeps (mb : Mb) (s : State) (h0 : s.Keeps K) : Kept K (execInstanceQuery mb s) := by
  unfold execInstanceQuery
  try dsimp only
  repeat' (first | (simp +contextual (maxDischargeDepth := 30) [*]; done) | intro _ | split
                 | refine runCmd_keeps _ _ _ _ ?_ ?_ | refine (CmdResult.keeps_done _ _).2 ?_ | refine (kept_next _).2 ?_ | refine State.onInst_keeps _ _ _ _ _ ?_)

theorem execPartCountersRead_keeps (mb : Mb) (s : State) (h0 : s.Keeps K) : Kept K (execPartCountersRead mb s) := by
  unfold execPartCountersRead
  try dsimp only
  repeat' (first | (simp +contextual (maxDischargeDepth := 30) [*]; done) | intro _ | split
                 | refine runCmd_keeps _ _ _ _ ?_ ?_ | refine (CmdResult.keeps_done _ _).2 ?_ | refine (kept_next _).2 ?_ | refine State.onPu_keeps _ _ _ _ ?_)

theorem execQuiesceCheck_keeps (p : PortNo) (id : BitVec 8) (icbQuiesced timedOut : Bool) (s : State) (h0 : s.Keeps K) : Kept K (execQuiesceCheck p id icbQuiesced timedOut s) := by
  unfold execQuiesceCheck
  simp (maxDischargeDepth := 30) [h0]

@[simp] theorem State.endReset_keeps (s : State) (p id : Nat) (h0 : s.Keeps K) : (State.endReset s p id).Keeps K := by
  unfold State.endReset
  (repeat' split) <;> simp +contextual (maxDischargeDepth := 30) [*]

theorem execResetReqCleared_keeps (p : PortNo) (id : BitVec 8) (s : State) (h0 : s.Keeps K) : Kept K (execResetReqCleared p id s) := by
  unfold execResetReqCleared
  simp (maxDischargeDepth := 30) [h0]

theorem execResetTimeout_keeps (p : PortNo) (id : BitVec 8) (s : State) (h0 : s.Keeps K) : Kept K (execResetTimeout p id s) := by
  unfold execResetTimeout
  simp (maxDischargeDepth := 30) [h0]

theorem execResettingLifetimePass_keeps (p : PortNo) (id : BitVec 8) (s : State) (h0 : s.Keeps K) : Kept K (execResettingLifetimePass p id s) := by
  unfold execResettingLifetimePass
  simp (maxDischargeDepth := 30) [h0]

theorem execOrderHoldRelease_keeps (p : PortNo) (uid : Nat) (s : State) (h0 : s.Keeps K) : Kept K (execOrderHoldRelease p uid s) := by
  unfold execOrderHoldRelease
  simp (maxDischargeDepth := 30) [h0]

theorem moveForeign_keeps (l : List Nat) (s : State) (h0 : s.Keeps K) {x : State} (h : moveForeign l s = some x) : x.Keeps K := by
  induction l generalizing s with
  | nil => cases h; exact h0
  | cons k r ih =>
    unfold moveForeign at h
    split at h
    · exact ih _ h0 h
    · split at h
      · cases h
      · exact ih _ (by simp (maxDischargeDepth := 30) [h0]) h

theorem execJugglerAlloc_keeps (mb : Mb) (s : State) (h0 : s.Keeps K) : Kept K (execJugglerAlloc mb s) := by
  refine (kept_next _).2 (runCmd_keeps _ _ _ _ h0 fun t pl len ht => ?_)
  extract_lets own s1
  have h1 : s1.Keeps K := State.each_keeps _ _ _ ht fun u i hu => by simp [hu]
  split
  · trivial
  · split
    · trivial
    · exact moveForeign_keeps _ _ h1 ‹_›

theorem execJugglerQuery_keeps (mb : Mb) (s : State) (h0 : s.Keeps K) : Kept K (execJugglerQuery mb s) := by
  unfold execJugglerQuery
  try dsimp only
  repeat' (first | (simp +contextual (maxDischargeDepth := 30) [*]; done) | intro _ | split
                 | refine runCmd_keeps _ _ _ _ ?_ ?_ | refine (CmdResult.keeps_done _ _).2 ?_ | refine (kept_next _).2 ?_)

@[simp] theorem State.reseat_keeps (s : State) (id : Nat) (h0 : s.Keeps K) : (State.reseat s id).Keeps K := by
  unfold State.reseat
  (repeat' split) <;> simp (maxDischargeDepth := 30) [*]

theorem execMoverRingSet_keeps (mb : Mb) (s : State) (h0 : s.Keeps K) : Kept K (execMoverRingSet mb s) := by
  refine (kept_next _).2 (runCmd_keeps _ _ _ _ h0 fun t pl len ht => State.onInst_keeps _ _ _ _ _ fun p r => ?_)
  split
  · trivial
  · split
    · split
      · trivial
      · split
        · trivial
        · extract_lets s1
          have h1 : s1.Keeps K := by simp (maxDischargeDepth := 30) only [s1, State.reseat_keeps, State.setRingState_keeps, State.modMover_keeps, State.killTags_keeps, State.dropStaged_keeps, ht]
          exact h1
    · split
      · exact State.setRingState_keeps _ _ _ _ (State.setMover_keeps _ _ _ ht)
      · trivial

theorem execMoverRingControl_keeps (mb : Mb) (s : State) (h0 : s.Keeps K) : Kept K (execMoverRingControl mb s) := by
  unfold execMoverRingControl
  try dsimp only
  repeat' (first | (simp +contextual (maxDischargeDepth := 30) [*]; done) | intro _ | split
                 | refine runCmd_keeps _ _ _ _ ?_ ?_ | refine (CmdResult.keeps_done _ _).2 ?_ | refine (kept_next _).2 ?_ | refine State.onRing_keeps _ _ _ _ ?_)

theorem execMoverRingQuery_keeps (mb : Mb) (s : State) (h0 : s.Keeps K) : Kept K (execMoverRingQuery mb s) := by
  unfold execMoverRingQuery
  try dsimp only
  repeat' (first | (simp +contextual (maxDischargeDepth := 30) [*]; done) | intro _ | split
                 | refine runCmd_keeps _ _ _ _ ?_ ?_ | refine (CmdResult.keeps_done _ _).2 ?_ | refine (kept_next _).2 ?_ | refine State.onRing_keeps _ _ _ _ ?_)

theorem execMoverPlace_keeps (mb : Mb) (s : State) (h0 : s.Keeps K) : Kept K (execMoverPlace mb s) := by
  unfold execMoverPlace
  try dsimp only
  repeat' (first | (simp +contextual (maxDischargeDepth := 30) [*]; done) | intro _ | split
                 | refine runCmd_keeps _ _ _ _ ?_ ?_ | refine (CmdResult.keeps_done _ _).2 ?_ | refine (kept_next _).2 ?_ | refine State.onRing_keeps _ _ _ _ ?_)

theorem execMoverCountersRead_keeps (mb : Mb) (s : State) (h0 : s.Keeps K) : Kept K (execMoverCountersRead mb s) := by
  unfold execMoverCountersRead
  try dsimp only
  repeat' (first | (simp +contextual (maxDischargeDepth := 30) [*]; done) | intro _ | split
                 | refine runCmd_keeps _ _ _ _ ?_ ?_ | refine (CmdResult.keeps_done _ _).2 ?_ | refine (kept_next _).2 ?_ | refine State.onRing_keeps _ _ _ _ ?_)

theorem execJugglerStep_keeps (j : JugglerNo) (s : State) (h0 : s.Keeps K) : Kept K (execJugglerStep j s) := by
  unfold execJugglerStep
  simp (maxDischargeDepth := 30) [h0]

theorem execMoverDoorbell_keeps (f : Frame) (s : State) (h0 : s.Keeps K) : Kept K (execMoverDoorbell f s) := by
  unfold execMoverDoorbell
  try dsimp only
  repeat' (first | (simp +contextual (maxDischargeDepth := 30) [*]; done) | intro _ | split | refine (kept_next _).2 ?_ | refine require_keeps _ _ ?_)

theorem execMoverCompletionReceive_keeps (f : Frame) (s : State) (h0 : s.Keeps K) : Kept K (execMoverCompletionReceive f s) := by
  unfold execMoverCompletionReceive
  simp (maxDischargeDepth := 30) [h0]

@[simp] theorem State.removePort_keeps (s : State) (p : Nat) (h0 : s.Keeps K) : (s.removePort p).Keeps K := by
  refine State.partnerChange_keeps _ _ _ (foldl_keeps _ _ _ ?_ fun t q ht => ?_)
  · simp (maxDischargeDepth := 30) [h0]
  · split <;> simp [ht]

@[simp] theorem State.unconfigure_keeps (s : State) (q sub : Nat) (h0 : s.Keeps K) : (State.unconfigure s q sub).Keeps K := by
  unfold State.unconfigure
  (repeat' split) <;> simp (maxDischargeDepth := 30) [*]

@[simp] theorem State.cycleQuad_keeps (s : State) (q : Nat) (changed : Bool) (h0 : s.Keeps K) : (State.cycleQuad s q changed).Keeps K := by
  unfold State.cycleQuad
  simp (maxDischargeDepth := 30) [h0]

@[simp] theorem State.configure_keeps (s : State) (q sub w : Nat) (pcie : Bool) (rate : BitVec 3) (upstream : Bool) (clocking : BitVec 2) (autoUp : Bool) (h0 : s.Keeps K) : (State.configure s q sub w pcie rate upstream clocking autoUp).Keeps K := by
  unfold State.configure
  try dsimp only
  repeat' (first | (simp +contextual (maxDischargeDepth := 30) [*, foldl_keeps]; done) | intro _ | split | refine foldl_keeps _ _ _ ?_ ?_)

theorem execPortConfigure_keeps (mb : Mb) (s : State) (h0 : s.Keeps K) : Kept K (execPortConfigure mb s) := by
  unfold execPortConfigure
  try dsimp only
  repeat' (first | (simp +contextual (maxDischargeDepth := 30) [*]; done) | intro _ | split
                 | refine runCmd_keeps _ _ _ _ ?_ ?_ | refine (kept_next _).2 ?_)

@[simp] theorem State.adminDown_keeps (s : State) (p : Nat) (h0 : s.Keeps K) : (State.adminDown s p).Keeps K := by
  unfold State.adminDown
  simp (maxDischargeDepth := 30) [h0]

@[simp] theorem State.fullRetrain_keeps (s : State) (p : Nat) (h0 : s.Keeps K) : (State.fullRetrain s p).Keeps K := by
  unfold State.fullRetrain
  (repeat' split) <;> simp (maxDischargeDepth := 30) [*]

@[simp] theorem State.adminUp_keeps (s : State) (p : Nat) (h0 : s.Keeps K) : (State.adminUp s p).Keeps K := by
  unfold State.adminUp
  exact h0

@[simp] theorem State.adminRetrain_keeps (s : State) (p : Nat) (h0 : s.Keeps K) : (State.adminRetrain s p).Keeps K := by
  unfold State.adminRetrain
  (repeat' split) <;> simp (maxDischargeDepth := 30) [*]

theorem execPortAdmin_keeps (mb : Mb) (s : State) (h0 : s.Keeps K) : Kept K (execPortAdmin mb s) := by
  unfold execPortAdmin
  try dsimp only
  repeat' (first | (simp +contextual (maxDischargeDepth := 30) [*]; done) | intro _ | split
                 | refine runCmd_keeps _ _ _ _ ?_ ?_ | refine (CmdResult.keeps_done _ _).2 ?_ | refine (kept_next _).2 ?_ | refine State.onPort_keeps _ _ _ _ _ _ ?_)

theorem execPortQuery_keeps (mb : Mb) (s : State) (h0 : s.Keeps K) : Kept K (execPortQuery mb s) := by
  unfold execPortQuery
  try dsimp only
  repeat' (first | (simp +contextual (maxDischargeDepth := 30) [*]; done) | intro _ | split
                 | refine runCmd_keeps _ _ _ _ ?_ ?_ | refine (CmdResult.keeps_done _ _).2 ?_ | refine (kept_next _).2 ?_ | refine State.onPort_keeps _ _ _ _ _ _ ?_)

theorem execLaneStatus_keeps (mb : Mb) (s : State) (h0 : s.Keeps K) : Kept K (execLaneStatus mb s) := by
  unfold execLaneStatus
  try dsimp only
  repeat' (first | (simp +contextual (maxDischargeDepth := 30) [*]; done) | intro _ | split
                 | refine runCmd_keeps _ _ _ _ ?_ ?_ | refine (CmdResult.keeps_done _ _).2 ?_ | refine (kept_next _).2 ?_ | refine State.onLane_keeps _ _ _ _ ?_)

theorem execLaneFirSet_keeps (mb : Mb) (s : State) (h0 : s.Keeps K) : Kept K (execLaneFirSet mb s) := by
  unfold execLaneFirSet
  try dsimp only
  repeat' (first | (simp +contextual (maxDischargeDepth := 30) [*]; done) | intro _ | split
                 | refine runCmd_keeps _ _ _ _ ?_ ?_ | refine (CmdResult.keeps_done _ _).2 ?_ | refine (kept_next _).2 ?_)

theorem execLanePrbs_keeps (mb : Mb) (s : State) (h0 : s.Keeps K) : Kept K (execLanePrbs mb s) := by
  unfold execLanePrbs
  try dsimp only
  repeat' (first | (simp +contextual (maxDischargeDepth := 30) [*]; done) | intro _ | split
                 | refine runCmd_keeps _ _ _ _ ?_ ?_ | refine (CmdResult.keeps_done _ _).2 ?_ | refine (kept_next _).2 ?_)

theorem execLaneLoopback_keeps (mb : Mb) (s : State) (h0 : s.Keeps K) : Kept K (execLaneLoopback mb s) := by
  unfold execLaneLoopback
  try dsimp only
  repeat' (first | (simp +contextual (maxDischargeDepth := 30) [*]; done) | intro _ | split
                 | refine runCmd_keeps _ _ _ _ ?_ ?_ | refine (CmdResult.keeps_done _ _).2 ?_ | refine (kept_next _).2 ?_ | refine State.onPort_keeps _ _ _ _ _ _ ?_)

theorem execLaneCountersRead_keeps (mb : Mb) (s : State) (h0 : s.Keeps K) : Kept K (execLaneCountersRead mb s) := by
  unfold execLaneCountersRead
  try dsimp only
  repeat' (first | (simp +contextual (maxDischargeDepth := 30) [*]; done) | intro _ | split
                 | refine runCmd_keeps _ _ _ _ ?_ ?_ | refine (CmdResult.keeps_done _ _).2 ?_ | refine (kept_next _).2 ?_ | refine State.onLane_keeps _ _ _ _ ?_)

theorem execLaneAlarmSet_keeps (mb : Mb) (s : State) (h0 : s.Keeps K) : Kept K (execLaneAlarmSet mb s) := by
  unfold execLaneAlarmSet
  try dsimp only
  repeat' (first | (simp +contextual (maxDischargeDepth := 30) [*]; done) | intro _ | split
                 | refine State.each_keeps _ _ _ ?_ ?_ | refine runCmd_keeps _ _ _ _ ?_ ?_ | refine (CmdResult.keeps_done _ _).2 ?_ | refine (kept_next _).2 ?_)

theorem State.portEvent_keeps (s : State) (p : Nat) (ok : Port → Bool) (f : State → State) (h0 : s.Keeps K) (hf : ∀ t, t.Keeps K → (f t).Keeps K) :
    Kept K (s.portEvent p ok f) := by
  simp only [State.portEvent, kept_next]
  split
  · exact hf _ h0
  · exact h0

theorem State.laneEvent_keeps (s : State) (ln : Nat) (ok : Stage → Bool) (f : Nat → State → State) (h0 : s.Keeps K)
    (hf : ∀ p t, t.Keeps K → (f p t).Keeps K) : Kept K (s.laneEvent ln ok f) := by
  simp only [State.laneEvent]
  split
  · exact h0
  · exact State.portEvent_keeps _ _ _ _ h0 (hf _)

theorem execDetectAttempt_keeps (p : PortNo) (found : Detection) (s : State) (h0 : s.Keeps K) : Kept K (execDetectAttempt p found s) := by
  unfold execDetectAttempt
  try dsimp only
  repeat' (first | (simp +contextual (maxDischargeDepth := 30) [*]; done) | intro _ | split | refine State.portEvent_keeps _ _ _ _ ?_ ?_)

theorem execTrainFailWaitEnd_keeps (p : PortNo) (found : Detection) (s : State) (h0 : s.Keeps K) : Kept K (execTrainFailWaitEnd p found s) := by
  unfold execTrainFailWaitEnd
  try dsimp only
  repeat' (first | (simp +contextual (maxDischargeDepth := 30) [*]; done) | intro _ | split | refine State.portEvent_keeps _ _ _ _ ?_ ?_)

theorem execTrainingFrameReceive_keeps (ln : LaneNo) (w : BitVec 128) (s : State) (h0 : s.Keeps K) : Kept K (execTrainingFrameReceive ln w s) := by
  unfold execTrainingFrameReceive
  try dsimp only
  repeat' (first | (simp +contextual (maxDischargeDepth := 30) [*]; done) | intro _ | split | refine State.laneEvent_keeps _ _ _ _ ?_ ?_)

theorem execForwardedClockLockTimeout_keeps (p : PortNo) (s : State) (h0 : s.Keeps K) : Kept K (execForwardedClockLockTimeout p s) := by
  unfold execForwardedClockLockTimeout
  try dsimp only
  repeat' (first | (simp +contextual (maxDischargeDepth := 30) [*]; done) | intro _ | split | refine State.portEvent_keeps _ _ _ _ ?_ ?_)

theorem execTrainTimeout_keeps (p : PortNo) (s : State) (h0 : s.Keeps K) : Kept K (execTrainTimeout p s) := by
  unfold execTrainTimeout
  try dsimp only
  repeat' (first | (simp +contextual (maxDischargeDepth := 30) [*]; done) | intro _ | split | refine State.portEvent_keeps _ _ _ _ ?_ ?_)

theorem execFecLock_keeps (ln : LaneNo) (s : State) (h0 : s.Keeps K) : Kept K (execFecLock ln s) := by
  unfold execFecLock
  try dsimp only
  repeat' (first | (simp +contextual (maxDischargeDepth := 30) [*]; done) | intro _ | split | refine State.laneEvent_keeps _ _ _ _ ?_ ?_)

theorem execAlignmentMarkerReceive_keeps (ln : LaneNo) (lip : BitVec 4) (arrival : Nat) (s : State) (h0 : s.Keeps K) : Kept K (execAlignmentMarkerReceive ln lip arrival s) := by
  unfold execAlignmentMarkerReceive
  try dsimp only
  repeat' (first | (simp +contextual (maxDischargeDepth := 30) [*]; done) | intro _ | split | refine State.laneEvent_keeps _ _ _ _ ?_ ?_)

theorem execLockComplete_keeps (p : PortNo) (s : State) (h0 : s.Keeps K) : Kept K (execLockComplete p s) := by
  unfold execLockComplete
  try dsimp only
  repeat' (first | (simp +contextual (maxDischargeDepth := 30) [*]; done) | intro _ | split | refine State.portEvent_keeps _ _ _ _ ?_ ?_)

theorem execLockTimeout_keeps (p : PortNo) (s : State) (h0 : s.Keeps K) : Kept K (execLockTimeout p s) := by
  unfold execLockTimeout
  try dsimp only
  repeat' (first | (simp +contextual (maxDischargeDepth := 30) [*]; done) | intro _ | split | refine State.portEvent_keeps _ _ _ _ ?_ ?_)

theorem execFecLockLoss_keeps (ln : LaneNo) (s : State) (h0 : s.Keeps K) : Kept K (execFecLockLoss ln s) := by
  unfold execFecLockLoss
  try dsimp only
  repeat' (first | (simp +contextual (maxDischargeDepth := 30) [*]; done) | intro _ | split | refine State.laneEvent_keeps _ _ _ _ ?_ ?_)

theorem execDeskewLoss_keeps (ln : LaneNo) (s : State) (h0 : s.Keeps K) : Kept K (execDeskewLoss ln s) := by
  unfold execDeskewLoss
  try dsimp only
  repeat' (first | (simp +contextual (maxDischargeDepth := 30) [*]; done) | intro _ | split | refine State.laneEvent_keeps _ _ _ _ ?_ ?_)

theorem execClockLaneLoss_keeps (q : QuadNo) (s : State) (h0 : s.Keeps K) : Kept K (execClockLaneLoss q s) := by
  unfold execClockLaneLoss
  try dsimp only
  repeat' (first | (simp +contextual (maxDischargeDepth := 30) [*]; done) | intro _ | split | refine (kept_next _).2 ?_
                 | refine State.portEvent_keeps _ _ _ _ ?_ ?_)

theorem execLossOfSignal_keeps (ln : LaneNo) (s : State) (h0 : s.Keeps K) : Kept K (execLossOfSignal ln s) := by
  unfold execLossOfSignal
  try dsimp only
  repeat' (first | (simp +contextual (maxDischargeDepth := 30) [*]; done) | intro _ | split | refine State.laneEvent_keeps _ _ _ _ ?_ ?_)

theorem execRetrainSignalReceive_keeps (p : PortNo) (s : State) (h0 : s.Keeps K) : Kept K (execRetrainSignalReceive p s) := by
  unfold execRetrainSignalReceive
  try dsimp only
  repeat' (first | (simp +contextual (maxDischargeDepth := 30) [*]; done) | intro _ | split | refine State.portEvent_keeps _ _ _ _ ?_ ?_)

theorem execExchangeRecordSend_keeps (p : PortNo) (s : State) (h0 : s.Keeps K) : Kept K (execExchangeRecordSend p s) := by
  unfold execExchangeRecordSend
  try dsimp only
  repeat' (first | (simp +contextual (maxDischargeDepth := 30) [*]; done) | intro _ | split | refine State.portEvent_keeps _ _ _ _ ?_ ?_)

theorem execExchangeBlockReceive_keeps (p : PortNo) (pl : BlockPayload) (s : State) (h0 : s.Keeps K) : Kept K (execExchangeBlockReceive p pl s) := by
  unfold execExchangeBlockReceive
  try dsimp only
  repeat' (first | (simp +contextual (maxDischargeDepth := 30) [*]; done) | intro _ | split | refine State.portEvent_keeps _ _ _ _ ?_ ?_)

theorem execExchangeTimeout_keeps (p : PortNo) (s : State) (h0 : s.Keeps K) : Kept K (execExchangeTimeout p s) := by
  unfold execExchangeTimeout
  try dsimp only
  repeat' (first | (simp +contextual (maxDischargeDepth := 30) [*]; done) | intro _ | split | refine State.portEvent_keeps _ _ _ _ ?_ ?_)

theorem execSerAlarmWindow_keeps (ln : LaneNo) (s : State) (h0 : s.Keeps K) : Kept K (execSerAlarmWindow ln s) := by
  unfold execSerAlarmWindow
  simp (maxDischargeDepth := 30) [h0]

theorem execFastRetrainTimeout_keeps (p : PortNo) (s : State) (h0 : s.Keeps K) : Kept K (execFastRetrainTimeout p s) := by
  unfold execFastRetrainTimeout
  try dsimp only
  repeat' (first | (simp +contextual (maxDischargeDepth := 30) [*]; done) | intro _ | split | refine State.portEvent_keeps _ _ _ _ ?_ ?_)

theorem execFastRetrainComplete_keeps (p : PortNo) (s : State) (h0 : s.Keeps K) : Kept K (execFastRetrainComplete p s) := by
  unfold execFastRetrainComplete
  try dsimp only
  repeat' (first | (simp +contextual (maxDischargeDepth := 30) [*]; done) | intro _ | split | refine State.portEvent_keeps _ _ _ _ ?_ ?_)

theorem execPrbsCheck_keeps (ln : LaneNo) (errs : List Nat) (s : State) (h0 : s.Keeps K) : Kept K (execPrbsCheck ln errs s) := by
  unfold execPrbsCheck
  simp (maxDischargeDepth := 30) [h0, foldl_keeps]

theorem execPcieLinkDown_keeps (p : PortNo) (training : Bool) (ltssm : BitVec 6) (s : State) (h0 : s.Keeps K) : Kept K (execPcieLinkDown p training ltssm s) := by
  unfold execPcieLinkDown
  try dsimp only
  repeat' (first | (simp +contextual (maxDischargeDepth := 30) [*]; done) | intro _ | split | refine State.portEvent_keeps _ _ _ _ ?_ ?_)

@[simp] theorem State.pcieUp_keeps (s : State) (p : Nat) (width : BitVec 5) (rate : BitVec 3) (ltssm : BitVec 6) (host : Bool) (h0 : s.Keeps K) : (State.pcieUp s p width rate ltssm host).Keeps K := by
  unfold State.pcieUp
  try dsimp only
  repeat' (first | (simp +contextual (maxDischargeDepth := 30) [*]; done) | intro _ | split | refine State.each_keeps _ _ _ ?_ ?_)

theorem execPcieLinkUp_keeps (p : PortNo) (width : BitVec 5) (rate : BitVec 3) (ltssm : BitVec 6) (host : Bool) (s : State) (h0 : s.Keeps K) : Kept K (execPcieLinkUp p width rate ltssm host s) := by
  unfold execPcieLinkUp
  try dsimp only
  repeat' (first | (simp +contextual (maxDischargeDepth := 30) [*]; done) | intro _ | split
                 | refine State.portEvent_keeps _ _ _ _ ?_ ?_ | refine State.partnerChange_keeps _ _ _ ?_ | refine require_keeps _ _ ?_)

theorem execLinkConfig_keeps (mb : Mb) (s : State) (h0 : s.Keeps K) : Kept K (execLinkConfig mb s) := by
  unfold execLinkConfig
  try dsimp only
  repeat' (first | (simp +contextual (maxDischargeDepth := 30) [*]; done) | intro _ | split
                 | refine runCmd_keeps _ _ _ _ ?_ ?_ | refine (CmdResult.keeps_done _ _).2 ?_ | refine (kept_next _).2 ?_ | refine State.onPort_keeps _ _ _ _ _ _ ?_)

theorem execLinkCreditSet_keeps (mb : Mb) (s : State) (h0 : s.Keeps K) : Kept K (execLinkCreditSet mb s) := by
  refine (kept_next _).2 (runCmd_keeps _ _ _ _ h0 fun t pl len ht => State.onNative_keeps _ _ _ _ _ fun p => ?_)
  extract_lets pools
  repeat' (split; trivial)
  exact State.modLink_keeps _ _ _ ht

theorem execLinkQuery_keeps (mb : Mb) (s : State) (h0 : s.Keeps K) : Kept K (execLinkQuery mb s) := by
  unfold execLinkQuery
  try dsimp only
  repeat' (first | (simp +contextual (maxDischargeDepth := 30) [*]; done) | intro _ | split
                 | refine runCmd_keeps _ _ _ _ ?_ ?_ | refine (CmdResult.keeps_done _ _).2 ?_ | refine (kept_next _).2 ?_ | refine State.onPort_keeps _ _ _ _ _ _ ?_)

theorem execLinkCountersRead_keeps (mb : Mb) (s : State) (h0 : s.Keeps K) : Kept K (execLinkCountersRead mb s) := by
  unfold execLinkCountersRead
  try dsimp only
  repeat' (first | (simp +contextual (maxDischargeDepth := 30) [*]; done) | intro _ | split
                 | refine runCmd_keeps _ _ _ _ ?_ ?_ | refine (CmdResult.keeps_done _ _).2 ?_ | refine (kept_next _).2 ?_ | refine State.onPort_keeps _ _ _ _ _ _ ?_)

theorem execLinkErrorInject_keeps (mb : Mb) (s : State) (h0 : s.Keeps K) : Kept K (execLinkErrorInject mb s) := by
  unfold execLinkErrorInject
  try dsimp only
  repeat' (first | (simp +contextual (maxDischargeDepth := 30) [*]; done) | intro _ | split
                 | refine runCmd_keeps _ _ _ _ ?_ ?_ | refine (CmdResult.keeps_done _ _).2 ?_ | refine (kept_next _).2 ?_ | refine State.onPort_keeps _ _ _ _ _ _ ?_)

theorem execLinkUpHoldoffEnd_keeps (p : PortNo) (s : State) (h0 : s.Keeps K) : Kept K (execLinkUpHoldoffEnd p s) := by
  unfold execLinkUpHoldoffEnd
  try dsimp only
  repeat' (first | (simp +contextual (maxDischargeDepth := 30) [*]; done) | intro _ | split | refine State.portEvent_keeps _ _ _ _ ?_ ?_)

theorem execFirstBlockTimeout_keeps (p : PortNo) (s : State) (h0 : s.Keeps K) : Kept K (execFirstBlockTimeout p s) := by
  unfold execFirstBlockTimeout
  try dsimp only
  repeat' (first | (simp +contextual (maxDischargeDepth := 30) [*]; done) | intro _ | split | refine State.portEvent_keeps _ _ _ _ ?_ ?_)

theorem execTransmitBlockSlot_keeps (p : PortNo) (s : State) (h0 : s.Keeps K) : Kept K (execTransmitBlockSlot p s) := by
  unfold execTransmitBlockSlot
  try dsimp only
  repeat' (first | (simp +contextual (maxDischargeDepth := 30) [*]; done) | intro _ | split | refine State.portEvent_keeps _ _ _ _ ?_ ?_)

theorem execSyncSend_keeps (p : PortNo) (s : State) (h0 : s.Keeps K) : Kept K (execSyncSend p s) := by
  unfold execSyncSend
  try dsimp only
  repeat' (first | (simp +contextual (maxDischargeDepth := 30) [*]; done) | intro _ | split | refine State.portEvent_keeps _ _ _ _ ?_ ?_)

theorem execCreditReturnDue_keeps (p : PortNo) (s : State) (h0 : s.Keeps K) : Kept K (execCreditReturnDue p s) := by
  unfold execCreditReturnDue
  try dsimp only
  repeat' (first | (simp +contextual (maxDischargeDepth := 30) [*]; done) | intro _ | split | refine State.portEvent_keeps _ _ _ _ ?_ ?_)

theorem execDataBlockReceive_keeps (p : PortNo) (h : BitVec 64) (pl : BlockPayload) (s : State) (h0 : s.Keeps K) : Kept K (execDataBlockReceive p h pl s) := by
  unfold execDataBlockReceive
  try dsimp only
  repeat' (first | (simp +contextual (maxDischargeDepth := 30) [*]; done) | intro _ | split
                 | refine State.portEvent_keeps _ _ _ _ ?_ ?_ | refine State.goodBlock_keeps _ _ _ _ _ ?_ ?_ | refine require_keeps _ _ ?_)

theorem execBadBlockReceive_keeps (p : PortNo) (s : State) (h0 : s.Keeps K) : Kept K (execBadBlockReceive p s) := by
  unfold execBadBlockReceive
  try dsimp only
  repeat' (first | (simp +contextual (maxDischargeDepth := 30) [*]; done) | intro _ | split | refine State.portEvent_keeps _ _ _ _ ?_ ?_)

theorem execIdleBlockReceive_keeps (p : PortNo) (h : BitVec 64) (s : State) (h0 : s.Keeps K) : Kept K (execIdleBlockReceive p h s) := by
  unfold execIdleBlockReceive
  try dsimp only
  repeat' (first | (simp +contextual (maxDischargeDepth := 30) [*]; done) | intro _ | split
                 | refine State.portEvent_keeps _ _ _ _ ?_ ?_ | refine State.goodBlock_keeps _ _ _ _ _ ?_ ?_ | refine require_keeps _ _ ?_)

theorem execNakBlockReceive_keeps (p : PortNo) (h : BitVec 64) (pl : BlockPayload) (s : State) (h0 : s.Keeps K) : Kept K (execNakBlockReceive p h pl s) := by
  unfold execNakBlockReceive
  try dsimp only
  repeat' (first | (simp +contextual (maxDischargeDepth := 30) [*]; done) | intro _ | split
                 | refine State.portEvent_keeps _ _ _ _ ?_ ?_ | refine State.goodBlock_keeps _ _ _ _ _ ?_ ?_ | refine require_keeps _ _ ?_)

theorem execCreditBlockReceive_keeps (p : PortNo) (h : BitVec 64) (pl : BlockPayload) (s : State) (h0 : s.Keeps K) : Kept K (execCreditBlockReceive p h pl s) := by
  unfold execCreditBlockReceive
  try dsimp only
  repeat' (first | (simp +contextual (maxDischargeDepth := 30) [*]; done) | intro _ | split
                 | refine State.portEvent_keeps _ _ _ _ ?_ ?_ | refine State.goodBlock_keeps _ _ _ _ _ ?_ ?_ | refine require_keeps _ _ ?_)

theorem execPowerBlockReceive_keeps (p : PortNo) (h : BitVec 64) (pl : BlockPayload) (s : State) (h0 : s.Keeps K) : Kept K (execPowerBlockReceive p h pl s) := by
  unfold execPowerBlockReceive
  try dsimp only
  repeat' (first | (simp +contextual (maxDischargeDepth := 30) [*]; done) | intro _ | split
                 | refine State.portEvent_keeps _ _ _ _ ?_ ?_ | refine State.goodBlock_keeps _ _ _ _ _ ?_ ?_ | refine require_keeps _ _ ?_)

theorem execReservedTypeBlockReceive_keeps (p : PortNo) (h : BitVec 64) (s : State) (h0 : s.Keeps K) : Kept K (execReservedTypeBlockReceive p h s) := by
  unfold execReservedTypeBlockReceive
  try dsimp only
  repeat' (first | (simp +contextual (maxDischargeDepth := 30) [*]; done) | intro _ | split
                 | refine State.portEvent_keeps _ _ _ _ ?_ ?_ | refine require_keeps _ _ ?_)

theorem execReplayTimerExpiry_keeps (p : PortNo) (s : State) (h0 : s.Keeps K) : Kept K (execReplayTimerExpiry p s) := by
  refine State.portEvent_keeps _ _ _ _ h0 fun t ht => ?_
  split <;> simp [ht]

theorem execSyncTimeout_keeps (p : PortNo) (s : State) (h0 : s.Keeps K) : Kept K (execSyncTimeout p s) := by
  unfold execSyncTimeout
  try dsimp only
  repeat' (first | (simp +contextual (maxDischargeDepth := 30) [*]; done) | intro _ | split | refine State.portEvent_keeps _ _ _ _ ?_ ?_)

theorem execNpExpiry_keeps (p : PortNo) (req : Geid) (tag : BitVec 12) (s : State) (h0 : s.Keeps K) : Kept K (execNpExpiry p req tag s) := by
  refine State.portEvent_keeps _ _ _ _ h0 fun t ht => ?_
  extract_lets s1
  have h1 : s1.Keeps K := State.instFall_keeps _ _ _ _ ht
  split
  · exact h1
  · exact State.countLink_keeps _ _ _ (State.modLink_keeps _ _ _ h1)

end Sys2Proof.Machine
end

