-- ==== Sys2Proof/Laws/KeepsSystem.lean ====
section
/-!
SUPPORT. What the commands and events of Patchwork ports, tests, slots, power and resets leave alone: the queue, the part and the clock, and the bounds `State.Sound`. One lemma per operation.
-/

namespace Sys2Proof.Machine

set_option linter.unusedTactic false
set_option linter.unreachableTactic false
set_option linter.unnecessarySeqFocus false
set_option linter.unusedSimpArgs false

variable {K : List Instr × Part × Nat}

theorem execPwConfig_keeps (mb : Mb) (s : State) (h0 : s.Keeps K) : Kept K (execPwConfig mb s) := by
  unfold execPwConfig
  try dsimp only
  repeat' (first | (simp +contextual (maxDischargeDepth := 30) [*]; done) | intro _ | split
                 | refine runCmd_keeps _ _ _ _ ?_ ?_ | refine (CmdResult.keeps_done _ _).2 ?_ | refine (kept_next _).2 ?_)

theorem execPwHomeSet_keeps (mb : Mb) (s : State) (h0 : s.Keeps K) : Kept K (execPwHomeSet mb s) := by
  unfold execPwHomeSet
  try dsimp only
  repeat' (first | (simp +contextual (maxDischargeDepth := 30) [*]; done) | intro _ | split
                 | refine runCmd_keeps _ _ _ _ ?_ ?_ | refine (CmdResult.keeps_done _ _).2 ?_ | refine (kept_next _).2 ?_ | refine State.modMgmt_keeps _ _ ?_ ?_)

theorem execPwWindowSet_keeps (mb : Mb) (s : State) (h0 : s.Keeps K) : Kept K (execPwWindowSet mb s) := by
  unfold execPwWindowSet
  try dsimp only
  repeat' (first | (simp +contextual (maxDischargeDepth := 30) [*]; done) | intro _ | split
                 | refine runCmd_keeps _ _ _ _ ?_ ?_ | refine (CmdResult.keeps_done _ _).2 ?_ | refine (kept_next _).2 ?_)

theorem execPwWindowRead_keeps (mb : Mb) (s : State) (h0 : s.Keeps K) : Kept K (execPwWindowRead mb s) := by
  unfold execPwWindowRead
  try dsimp only
  repeat' (first | (simp +contextual (maxDischargeDepth := 30) [*]; done) | intro _ | split
                 | refine runCmd_keeps _ _ _ _ ?_ ?_ | refine (CmdResult.keeps_done _ _).2 ?_ | refine (kept_next _).2 ?_ | refine State.onPw_keeps _ _ _ _ ?_)

theorem execPwQuery_keeps (mb : Mb) (s : State) (h0 : s.Keeps K) : Kept K (execPwQuery mb s) := by
  unfold execPwQuery
  try dsimp only
  repeat' (first | (simp +contextual (maxDischargeDepth := 30) [*]; done) | intro _ | split
                 | refine runCmd_keeps _ _ _ _ ?_ ?_ | refine (CmdResult.keeps_done _ _).2 ?_ | refine (kept_next _).2 ?_ | refine State.onPw_keeps _ _ _ _ ?_)

theorem execSidebandSet_keeps (mb : Mb) (s : State) (h0 : s.Keeps K) : Kept K (execSidebandSet mb s) := by
  unfold execSidebandSet
  try dsimp only
  repeat' (first | (simp +contextual (maxDischargeDepth := 30) [*]; done) | intro _ | split
                 | refine runCmd_keeps _ _ _ _ ?_ ?_ | refine (CmdResult.keeps_done _ _).2 ?_ | refine (kept_next _).2 ?_)

theorem execSidebandQuery_keeps (mb : Mb) (s : State) (h0 : s.Keeps K) : Kept K (execSidebandQuery mb s) := by
  unfold execSidebandQuery
  try dsimp only
  repeat' (first | (simp +contextual (maxDischargeDepth := 30) [*]; done) | intro _ | split
                 | refine runCmd_keeps _ _ _ _ ?_ ?_ | refine (CmdResult.keeps_done _ _).2 ?_ | refine (kept_next _).2 ?_)

@[simp] theorem State.pwReset_keeps (s : State) (x : PwPort) (src : Nat) (h0 : s.Keeps K) : (State.pwReset s x src).Keeps K := by
  unfold State.pwReset
  simp [h0]

theorem execPwBusReset_keeps (mb : Mb) (s : State) (h0 : s.Keeps K) : Kept K (execPwBusReset mb s) := by
  unfold execPwBusReset
  try dsimp only
  repeat' (first | (simp +contextual (maxDischargeDepth := 30) [*]; done) | intro _ | split
                 | refine runCmd_keeps _ _ _ _ ?_ ?_ | refine (CmdResult.keeps_done _ _).2 ?_ | refine (kept_next _).2 ?_)

theorem execPwCountersRead_keeps (mb : Mb) (s : State) (h0 : s.Keeps K) : Kept K (execPwCountersRead mb s) := by
  unfold execPwCountersRead
  try dsimp only
  repeat' (first | (simp +contextual (maxDischargeDepth := 30) [*]; done) | intro _ | split
                 | refine runCmd_keeps _ _ _ _ ?_ ?_ | refine (CmdResult.keeps_done _ _).2 ?_ | refine (kept_next _).2 ?_ | refine State.onPw_keeps _ _ _ _ ?_)

theorem execPatchworkFrameReceive_keeps (x : PwPort) (f : Frame) (s : State) (h0 : s.Keeps K) : Kept K (execPatchworkFrameReceive x f s) := by
  unfold execPatchworkFrameReceive
  refine require_keeps _ _ ?_
  split
  · exact h0
  · extract_lets p h s1
    have h1 : s1.Keeps K := State.takeInbox_keeps _ _ _ h0
    split
    · exact State.pwCompletionAt_keeps _ _ _ h1
    · split
      · exact State.endHere_keeps _ _ _ _ h1
      · split
        · exact State.unsupportedAt_keeps _ _ _ h1
        · split
          · exact State.unsupportedAt_keeps _ _ _ h1
          · split
            · exact State.endHere_keeps _ _ _ _ (State.countPw_keeps _ _ _ h1)
            · extract_lets fits
              split
              · exact State.pwAnswer_keeps _ _ _ _ _ _ h1
              · split
                · exact h0
                · refine State.modPw_keeps _ _ _ ?_
                  first
                  | (rename_i s2 _; simp only [s2]; split <;> simp [h1]; done)
                  | (rename_i s2 _ _; simp only [s2]; split <;> simp [h1]; done)
                  | (rename_i s2 _ _ _; simp only [s2]; split <;> simp [h1]; done)
                  | (rename_i s2 _ _ _ _ ; simp only [s2]; split <;> simp [h1]; done)

theorem execOutboundCycleRun_keeps (x : PwPort) (s : State) (h0 : s.Keeps K) : Kept K (execOutboundCycleRun x s) := by
  unfold execOutboundCycleRun
  simp [h0]

theorem execBusCycleEnd_keeps (x : PwPort) (st : BusStatus) (data : List Byte) (s : State) (h0 : s.Keeps K) : Kept K (execBusCycleEnd x st data s) := by
  unfold execBusCycleEnd
  simp (maxDischargeDepth := 30) [h0]

theorem execCycleStoreLifetimeExpiry_keeps (x : PwPort) (s : State) (h0 : s.Keeps K) : Kept K (execCycleStoreLifetimeExpiry x s) := by
  unfold execCycleStoreLifetimeExpiry
  try dsimp only
  repeat' (first | (simp +contextual (maxDischargeDepth := 30) [*]; done) | intro _ | split | refine (kept_next _).2 ?_)

theorem execInboundCycleClaim_keeps (x : PwPort) (c : BusCycle) (s : State) (h0 : s.Keeps K) : Kept K (execInboundCycleClaim x c s) := by
  unfold execInboundCycleClaim
  try dsimp only
  repeat' (first | (simp +contextual (maxDischargeDepth := 30) [*]; done) | intro _ | split | refine (kept_next _).2 ?_
                 | refine State.claimCycle_keeps _ _ _ _ ?_ ?_ | refine require_keeps _ _ ?_)

theorem execInboundWrite_keeps (x : PwPort) (c : BusCycle) (s : State) (h0 : s.Keeps K) : Kept K (execInboundWrite x c s) := by
  unfold execInboundWrite
  try dsimp only
  repeat' (first | (simp +contextual (maxDischargeDepth := 30) [*]; done) | intro _ | split | refine (kept_next _).2 ?_
                 | refine State.claimCycle_keeps _ _ _ _ ?_ ?_ | refine require_keeps _ _ ?_)

theorem execInboundRead_keeps (x : PwPort) (c : BusCycle) (s : State) (h0 : s.Keeps K) : Kept K (execInboundRead x c s) := by
  unfold execInboundRead
  try dsimp only
  repeat' (first | (simp +contextual (maxDischargeDepth := 30) [*]; done) | intro _ | split | refine (kept_next _).2 ?_
                 | refine State.claimCycle_keeps _ _ _ _ ?_ ?_ | refine require_keeps _ _ ?_)

theorem execInboundRmw_keeps (x : PwPort) (c : BusCycle) (s : State) (h0 : s.Keeps K) : Kept K (execInboundRmw x c s) := by
  unfold execInboundRmw
  try dsimp only
  repeat' (first | (simp +contextual (maxDischargeDepth := 30) [*]; done) | intro _ | split | refine (kept_next _).2 ?_
                 | refine State.claimCycle_keeps _ _ _ _ ?_ ?_ | refine require_keeps _ _ ?_)

theorem execPciDelayedRepeat_keeps (x : PwPort) (c : BusCycle) (s : State) (h0 : s.Keeps K) : Kept K (execPciDelayedRepeat x c s) := by
  unfold execPciDelayedRepeat
  try dsimp only
  repeat' (first | (simp +contextual (maxDischargeDepth := 30) [*]; done) | intro _ | split | refine (kept_next _).2 ?_
                 | refine State.claimCycle_keeps _ _ _ _ ?_ ?_ | refine require_keeps _ _ ?_)

theorem execDelayedDiscardTimeout_keeps (x : PwPort) (entry : BitVec 8) (s : State) (h0 : s.Keeps K) : Kept K (execDelayedDiscardTimeout x entry s) := by
  unfold execDelayedDiscardTimeout
  try dsimp only
  repeat' (first | (simp +contextual (maxDischargeDepth := 30) [*]; done) | intro _ | split | refine (kept_next _).2 ?_)

@[simp] theorem State.giveUpRead_keeps (s : State) (x : PwPort) (e : Nat) (y : PwEntry) (yielded : Bool) (h0 : s.Keeps K) : (State.giveUpRead s x e y yielded).Keeps K := by
  unfold State.giveUpRead
  simp [h0]

theorem execYieldTimeout_keeps (x : PwPort) (blockedNs : BitVec 32) (s : State) (h0 : s.Keeps K) : Kept K (execYieldTimeout x blockedNs s) := by
  unfold execYieldTimeout
  try dsimp only
  repeat' (first | (simp +contextual (maxDischargeDepth := 30) [*]; done) | intro _ | split | refine (kept_next _).2 ?_)

theorem execPrefetchHoldExpiry_keeps (x : PwPort) (buf : BitVec 5) (s : State) (h0 : s.Keeps K) : Kept K (execPrefetchHoldExpiry x buf s) := by
  unfold execPrefetchHoldExpiry
  try dsimp only
  repeat' (first | (simp +contextual (maxDischargeDepth := 30) [*]; done) | intro _ | split | refine (kept_next _).2 ?_)

theorem execBusWriteObserved_keeps (x : PwPort) (space : BitVec 2) (addr : BitVec 64) (len : Nat) (s : State) (h0 : s.Keeps K) : Kept K (execBusWriteObserved x space addr len s) := by
  unfold execBusWriteObserved
  simp (maxDischargeDepth := 30) [h0]

theorem execHeritageBusReset_keeps (x : PwPort) (s : State) (h0 : s.Keeps K) : Kept K (execHeritageBusReset x s) := by
  unfold execHeritageBusReset
  simp [h0]

theorem execPwBusResetEnd_keeps (x : PwPort) (s : State) (h0 : s.Keeps K) : Kept K (execPwBusResetEnd x s) := by
  unfold execPwBusResetEnd
  simp [h0]

@[simp] theorem State.evSupply_keeps (s : State) (x : PwPort) (h0 : s.Keeps K) : (State.evSupply s x).Keeps K := by
  unfold State.evSupply
  simp [h0]

theorem execVddHbLoss_keeps (x : PwPort) (s : State) (h0 : s.Keeps K) : Kept K (execVddHbLoss x s) := by
  unfold execVddHbLoss
  try dsimp only
  repeat' (first | (simp +contextual (maxDischargeDepth := 30) [*]; done) | intro _ | split | refine (kept_next _).2 ?_)

theorem execVddHbReturn_keeps (x : PwPort) (fiveVolt : Bool) (s : State) (h0 : s.Keeps K) : Kept K (execVddHbReturn x fiveVolt s) := by
  unfold execVddHbReturn
  try dsimp only
  repeat' (first | (simp +contextual (maxDischargeDepth := 30) [*]; done) | intro _ | split | refine (kept_next _).2 ?_)

theorem execBusTimerExpiry_keeps (x : PwPort) (s : State) (h0 : s.Keeps K) : Kept K (execBusTimerExpiry x s) := by
  unfold execBusTimerExpiry
  try dsimp only
  repeat' (first | (simp +contextual (maxDischargeDepth := 30) [*]; done) | intro _ | split | refine (kept_next _).2 ?_)

theorem execDeviceConfigCycle_keeps (x : PwPort) (reg : BitVec 8) (wr : Option (BitVec 32)) (s : State) (h0 : s.Keeps K) : Kept K (execDeviceConfigCycle x reg wr s) := by
  unfold execDeviceConfigCycle
  try dsimp only
  repeat' (first | (simp +contextual (maxDischargeDepth := 30) [*]; done) | intro _ | split | refine (kept_next _).2 ?_ | refine require_keeps _ _ ?_)

theorem execSidebandInputChange_keeps (pin : SidebandPin) (asserted : Bool) (s : State) (h0 : s.Keeps K) : Kept K (execSidebandInputChange pin asserted s) := by
  unfold execSidebandInputChange
  try dsimp only
  repeat' (first | (simp +contextual (maxDischargeDepth := 30) [*]; done) | intro _ | split | refine (kept_next _).2 ?_)

theorem execBistStart_keeps (mb : Mb) (s : State) (h0 : s.Keeps K) : Kept K (execBistStart mb s) := by
  unfold execBistStart
  try dsimp only
  repeat' (first | (simp +contextual (maxDischargeDepth := 30) [*]; done) | intro _ | split
                 | refine runCmd_keeps _ _ _ _ ?_ ?_ | refine (CmdResult.keeps_done _ _).2 ?_ | refine (kept_next _).2 ?_)

theorem execBistAbort_keeps (mb : Mb) (s : State) (h0 : s.Keeps K) : Kept K (execBistAbort mb s) := by
  unfold execBistAbort
  try dsimp only
  repeat' (first | (simp +contextual (maxDischargeDepth := 30) [*]; done) | intro _ | split
                 | refine runCmd_keeps _ _ _ _ ?_ ?_ | refine (CmdResult.keeps_done _ _).2 ?_ | refine (kept_next _).2 ?_)

theorem execBistQuery_keeps (mb : Mb) (s : State) (h0 : s.Keeps K) : Kept K (execBistQuery mb s) := by
  unfold execBistQuery
  try dsimp only
  repeat' (first | (simp +contextual (maxDischargeDepth := 30) [*]; done) | intro _ | split
                 | refine runCmd_keeps _ _ _ _ ?_ ?_ | refine (CmdResult.keeps_done _ _).2 ?_ | refine (kept_next _).2 ?_)

theorem execBistUnmark_keeps (mb : Mb) (s : State) (h0 : s.Keeps K) : Kept K (execBistUnmark mb s) := by
  unfold execBistUnmark
  try dsimp only
  repeat' (first | (simp +contextual (maxDischargeDepth := 30) [*]; done) | intro _ | split
                 | refine runCmd_keeps _ _ _ _ ?_ ?_ | refine (CmdResult.keeps_done _ _).2 ?_ | refine (kept_next _).2 ?_)

theorem execBistList_keeps (mb : Mb) (s : State) (h0 : s.Keeps K) : Kept K (execBistList mb s) := by
  unfold execBistList
  try dsimp only
  repeat' (first | (simp +contextual (maxDischargeDepth := 30) [*, foldl_keeps]; done) | intro _ | split
                 | refine foldl_keeps _ _ _ ?_ ?_ | refine runCmd_keeps _ _ _ _ ?_ ?_ | refine (CmdResult.keeps_done _ _).2 ?_ | refine (kept_next _).2 ?_)

theorem execBistIsolationComplete_keeps (u : UnitId) (s : State) (h0 : s.Keeps K) : Kept K (execBistIsolationComplete u s) := by
  unfold execBistIsolationComplete
  try dsimp only
  repeat' (first | (simp +contextual (maxDischargeDepth := 30) [*]; done) | intro _ | split | refine (kept_next _).2 ?_ | refine require_keeps _ _ ?_)

theorem execBistEngineEnd_keeps (u : UnitId) (x : EngineResult) (s : State) (h0 : s.Keeps K) : Kept K (execBistEngineEnd u x s) := by
  unfold execBistEngineEnd
  try dsimp only
  repeat' (first | (simp +contextual (maxDischargeDepth := 30) [*]; done) | intro _ | split | refine (kept_next _).2 ?_ | refine require_keeps _ _ ?_)

theorem execBistReinitComplete_keeps (u : UnitId) (s : State) (h0 : s.Keeps K) : Kept K (execBistReinitComplete u s) := by
  unfold execBistReinitComplete
  try dsimp only
  repeat' (first | (simp +contextual (maxDischargeDepth := 30) [*]; done) | intro _ | split | refine (kept_next _).2 ?_ | refine require_keeps _ _ ?_)

theorem execBistNotIdleTimeout_keeps (u : UnitId) (s : State) (h0 : s.Keeps K) : Kept K (execBistNotIdleTimeout u s) := by
  unfold execBistNotIdleTimeout
  try dsimp only
  repeat' (first | (simp +contextual (maxDischargeDepth := 30) [*]; done) | intro _ | split | refine (kept_next _).2 ?_ | refine require_keeps _ _ ?_)

theorem foldl_fst_keeps {α β : Type} (l : List α) (f : State × β → α → State × β) (a : State × β) (h : a.1.Keeps K)
    (hf : ∀ a x, a.1.Keeps K → (f a x).1.Keeps K) : (l.foldl f a).1.Keeps K := by
  induction l generalizing a with
  | nil => exact h
  | cons k r ih => exact ih _ (hf _ _ h)
theorem execPmonConfig_keeps (mb : Mb) (s : State) (h0 : s.Keeps K) : Kept K (execPmonConfig mb s) := by
  refine (kept_next _).2 (runCmd_keeps _ _ _ _ h0 fun t pl len ht => ?_)
  exact (CmdResult.keeps_done _ _).2 (foldl_fst_keeps _ _ _ ht fun a k ha => State.modPmon_keeps _ _ _ ha)

theorem execPmonRead_keeps (mb : Mb) (s : State) (h0 : s.Keeps K) : Kept K (execPmonRead mb s) := by
  unfold execPmonRead
  try dsimp only
  repeat' (first | (simp +contextual (maxDischargeDepth := 30) [*]; done) | intro _ | split
                 | refine runCmd_keeps _ _ _ _ ?_ ?_ | refine (CmdResult.keeps_done _ _).2 ?_ | refine (kept_next _).2 ?_)

theorem execPmonFreeze_keeps (mb : Mb) (s : State) (h0 : s.Keeps K) : Kept K (execPmonFreeze mb s) := by
  unfold execPmonFreeze
  try dsimp only
  repeat' (first | (simp +contextual (maxDischargeDepth := 30) [*]; done) | intro _ | split
                 | refine State.each_keeps _ _ _ ?_ ?_ | refine runCmd_keeps _ _ _ _ ?_ ?_ | refine (CmdResult.keeps_done _ _).2 ?_ | refine (kept_next _).2 ?_)

theorem execPmonSnapshot_keeps (mb : Mb) (s : State) (h0 : s.Keeps K) : Kept K (execPmonSnapshot mb s) := by
  unfold execPmonSnapshot
  try dsimp only
  repeat' (first | (simp +contextual (maxDischargeDepth := 30) [*]; done) | intro _ | split
                 | refine runCmd_keeps _ _ _ _ ?_ ?_ | refine (CmdResult.keeps_done _ _).2 ?_ | refine (kept_next _).2 ?_)

theorem execPmonSnapshotRead_keeps (mb : Mb) (s : State) (h0 : s.Keeps K) : Kept K (execPmonSnapshotRead mb s) := by
  unfold execPmonSnapshotRead
  try dsimp only
  repeat' (first | (simp +contextual (maxDischargeDepth := 30) [*]; done) | intro _ | split
                 | refine runCmd_keeps _ _ _ _ ?_ ?_ | refine (CmdResult.keeps_done _ _).2 ?_ | refine (kept_next _).2 ?_ | refine State.onPort_keeps _ _ _ _ _ _ ?_)

theorem execPmonSampleRead_keeps (mb : Mb) (s : State) (h0 : s.Keeps K) : Kept K (execPmonSampleRead mb s) := by
  unfold execPmonSampleRead
  try dsimp only
  repeat' (first | (simp +contextual (maxDischargeDepth := 30) [*]; done) | intro _ | split
                 | refine runCmd_keeps _ _ _ _ ?_ ?_ | refine (CmdResult.keeps_done _ _).2 ?_ | refine (kept_next _).2 ?_)

theorem execPmonCounterWrap_keeps (mon : BitVec 9) (k : BitVec 3) (cycles : BitVec 64) (ctx : BitVec 128) (s : State) (h0 : s.Keeps K) : Kept K (execPmonCounterWrap mon k cycles ctx s) := by
  unfold execPmonCounterWrap
  try dsimp only
  repeat' (first | (simp +contextual (maxDischargeDepth := 30) [*]; done) | intro _ | split | refine (kept_next _).2 ?_ | refine require_keeps _ _ ?_)

theorem execSnapshotCapture_keeps (s : State) (h0 : s.Keeps K) : Kept K (execSnapshotCapture s) := by
  unfold execSnapshotCapture
  try dsimp only
  repeat' (first | (simp +contextual (maxDischargeDepth := 30) [*]; done) | intro _ | split | refine (kept_next _).2 ?_)

@[simp] theorem State.coreReset_keeps (s : State) (h0 : s.Keeps K) : (s.coreReset).Keeps K := by
  exact ⟨h0.1, h0.2.1, by simp [State.coreReset, FabricTime.Keeps, FabricTime.Sound], Faults.coreReset_keeps _ h0.faults⟩

@[simp] theorem State.evReset_keeps (s : State) (kind cause : Nat) (h0 : s.Keeps K) : (State.evReset s kind cause).Keeps K := by
  unfold State.evReset
  simp [h0]

@[simp] theorem State.evSeqFail_keeps (s : State) (rail : Nat) (h0 : s.Keeps K) : (State.evSeqFail s rail).Keeps K := by
  unfold State.evSeqFail
  simp [h0]

@[simp] theorem State.seqFail_keeps (s : State) (rail : Nat) (h0 : s.Keeps K) : (State.seqFail s rail).Keeps K := by
  unfold State.seqFail
  simp (maxDischargeDepth := 30) [h0]

@[simp] theorem State.coreLost_keeps (s : State) (rail : Nat) (h0 : s.Keeps K) : (State.coreLost s rail).Keeps K := by
  unfold State.coreLost
  simp (maxDischargeDepth := 30) [h0]

@[simp] theorem State.restartGates_keeps (s : State) (l : List Nat) (h0 : s.Keeps K) : (s.restartGates l).Keeps K := by
  refine State.each_keeps _ _ _ h0 fun t id ht => ?_
  split <;> simp (maxDischargeDepth := 30) [ht]

@[simp] theorem State.skipOffMids_keeps (s : State) (h0 : s.Keeps K) : (State.skipOffMids s).Keeps K := by
  unfold State.skipOffMids
  (repeat' split) <;> simp +contextual (maxDischargeDepth := 30) [*]

@[simp] theorem State.restore_keeps (s : State) (r : Retention) (h0 : s.Keeps K) : (s.restore r).Keeps K := by
  simp only [State.restore]
  refine State.checkLapses_keeps _ (State.autoUp_keeps _ _ (State.updateService_keeps _ (foldl_keeps _ _ _ ?_ fun t f ht => ?_)))
  · refine State.restartGates_keeps _ _ (State.each_keeps _ _ _ (State.skipOffMids_keeps _ ?_) fun t q ht => ?_)
    · simp [h0.mgmt, h0.faults, FabricTime.restored, h0.time, h0.fixed]
    · simp [ht]
  · simp [ht]

@[simp] theorem State.loadSlotTrims_keeps (s : State) (h0 : s.Keeps K) : (State.loadSlotTrims s).Keeps K := by
  unfold State.loadSlotTrims
  simp [h0]

@[simp] theorem State.applyProfile_keeps (s : State) (h0 : s.Keeps K) : (State.applyProfile s).Keeps K := by
  unfold State.applyProfile
  (repeat' split) <;> simp +contextual (maxDischargeDepth := 30) [*]

@[simp] theorem State.boothStart_keeps (s : State) (h0 : s.Keeps K) : (State.boothStart s).Keeps K := by
  unfold State.boothStart
  simp (maxDischargeDepth := 30) [h0]

@[simp] theorem State.newNonce_keeps (s : State) (h0 : s.Keeps K) : (State.newNonce s).Keeps K := by
  unfold State.newNonce
  exact h0

@[simp] theorem State.loadDirectory_keeps (s : State) (h0 : s.Keeps K) : (State.loadDirectory s).Keeps K := by
  unfold State.loadDirectory
  exact h0

theorem execSlotConfig_keeps (mb : Mb) (s : State) (h0 : s.Keeps K) : Kept K (execSlotConfig mb s) := by
  unfold execSlotConfig
  try dsimp only
  repeat' (first | (simp +contextual (maxDischargeDepth := 30) [*]; done) | intro _ | split
                 | refine runSlot_keeps _ _ _ _ ?_ ?_ | refine (CmdResult.keeps_done _ _).2 ?_ | refine (kept_next _).2 ?_)

@[simp] theorem State.clearLockout_keeps (s : State) (c : Nat) (h0 : s.Keeps K) : (State.clearLockout s c).Keeps K := by
  unfold State.clearLockout
  try dsimp only
  repeat' (first | (simp +contextual (maxDischargeDepth := 30) [*]; done) | intro _ | split)

@[simp] theorem State.slotPower_keeps (s : State) (c action : Nat) (h0 : s.Keeps K) : (State.slotPower s c action).Keeps K := by
  unfold State.slotPower
  try dsimp only
  repeat' (first | (simp +contextual (maxDischargeDepth := 30) [*]; done) | intro _ | split)

theorem execSlotPower_keeps (mb : Mb) (s : State) (h0 : s.Keeps K) : Kept K (execSlotPower mb s) := by
  unfold execSlotPower
  try dsimp only
  repeat' (first | (simp +contextual (maxDischargeDepth := 30) [*]; done) | intro _ | split
                 | refine runSlot_keeps _ _ _ _ ?_ ?_ | refine (kept_next _).2 ?_)

theorem execSlotQuery_keeps (mb : Mb) (s : State) (h0 : s.Keeps K) : Kept K (execSlotQuery mb s) := by
  unfold execSlotQuery
  try dsimp only
  repeat' (first | (simp +contextual (maxDischargeDepth := 30) [*]; done) | intro _ | split
                 | refine runSlot_keeps _ _ _ _ ?_ ?_ | refine (CmdResult.keeps_done _ _).2 ?_ | refine (kept_next _).2 ?_ | refine State.onChan_keeps _ _ _ _ ?_)

theorem execSlotBusConfig_keeps (mb : Mb) (s : State) (h0 : s.Keeps K) : Kept K (execSlotBusConfig mb s) := by
  unfold execSlotBusConfig
  try dsimp only
  repeat' (first | (simp +contextual (maxDischargeDepth := 30) [*]; done) | intro _ | split
                 | refine runSlot_keeps _ _ _ _ ?_ ?_ | refine (CmdResult.keeps_done _ _).2 ?_ | refine (kept_next _).2 ?_)

theorem execSlotBusQuery_keeps (mb : Mb) (s : State) (h0 : s.Keeps K) : Kept K (execSlotBusQuery mb s) := by
  unfold execSlotBusQuery
  try dsimp only
  repeat' (first | (simp +contextual (maxDischargeDepth := 30) [*]; done) | intro _ | split
                 | refine runSlot_keeps _ _ _ _ ?_ ?_ | refine (CmdResult.keeps_done _ _).2 ?_ | refine (kept_next _).2 ?_)

theorem execSlotAttention_keeps (mb : Mb) (s : State) (h0 : s.Keeps K) : Kept K (execSlotAttention mb s) := by
  unfold execSlotAttention
  try dsimp only
  repeat' (first | (simp +contextual (maxDischargeDepth := 30) [*]; done) | intro _ | split
                 | refine runSlot_keeps _ _ _ _ ?_ ?_ | refine (CmdResult.keeps_done _ _).2 ?_ | refine (kept_next _).2 ?_)

theorem execSlotProfileSave_keeps (mb : Mb) (s : State) (h0 : s.Keeps K) : Kept K (execSlotProfileSave mb s) := by
  unfold execSlotProfileSave
  try dsimp only
  repeat' (first | (simp +contextual (maxDischargeDepth := 30) [*, foldl_keeps]; done) | intro _ | split
                 | refine foldl_keeps _ _ _ ?_ ?_ | refine runSlot_keeps _ _ _ _ ?_ ?_ | refine (CmdResult.keeps_done _ _).2 ?_ | refine (kept_next _).2 ?_)

theorem execSlotCountersRead_keeps (mb : Mb) (s : State) (h0 : s.Keeps K) : Kept K (execSlotCountersRead mb s) := by
  unfold execSlotCountersRead
  try dsimp only
  repeat' (first | (simp +contextual (maxDischargeDepth := 30) [*]; done) | intro _ | split
                 | refine runSlot_keeps _ _ _ _ ?_ ?_ | refine (CmdResult.keeps_done _ _).2 ?_ | refine (kept_next _).2 ?_ | refine State.onChan_keeps _ _ _ _ ?_)

theorem execSlotControlWrite_keeps (vh : VhNo) (k : VdspNo) (v : BitVec 16) (s : State) (h0 : s.Keeps K) : Kept K (execSlotControlWrite vh k v s) := by
  unfold execSlotControlWrite
  simp [h0]

theorem State.chanEvent_keeps (s : State) (c : Nat) (ok : ChanState → Bool) (f : State → State) (h0 : s.Keeps K) (hf : ∀ t, t.Keeps K → (f t).Keeps K) :
    Kept K (s.chanEvent c ok f) := by
  simp only [State.chanEvent, kept_next]
  split
  · exact hf _ h0
  · exact h0

theorem execPresenceChange_keeps (c : ChanNo) (high : Bool) (s : State) (h0 : s.Keeps K) : Kept K (execPresenceChange c high s) := by
  unfold execPresenceChange
  try dsimp only
  repeat' (first | (simp +contextual (maxDischargeDepth := 30) [*]; done) | intro _ | split | refine State.chanEvent_keeps _ _ _ _ ?_ ?_)

theorem execInsertionDebounceEnd_keeps (c : ChanNo) (s : State) (h0 : s.Keeps K) : Kept K (execInsertionDebounceEnd c s) := by
  unfold execInsertionDebounceEnd
  try dsimp only
  repeat' (first | (simp +contextual (maxDischargeDepth := 30) [*]; done) | intro _ | split | refine State.chanEvent_keeps _ _ _ _ ?_ ?_)

theorem execAbsenceDeclared_keeps (c : ChanNo) (s : State) (h0 : s.Keeps K) : Kept K (execAbsenceDeclared c s) := by
  unfold execAbsenceDeclared
  try dsimp only
  repeat' (first | (simp +contextual (maxDischargeDepth := 30) [*]; done) | intro _ | split | refine State.chanEvent_keeps _ _ _ _ ?_ ?_)

theorem execPfwReleaseDelayEnd_keeps (c : ChanNo) (s : State) (h0 : s.Keeps K) : Kept K (execPfwReleaseDelayEnd c s) := by
  unfold execPfwReleaseDelayEnd
  try dsimp only
  repeat' (first | (simp +contextual (maxDischargeDepth := 30) [*]; done) | intro _ | split | refine State.chanEvent_keeps _ _ _ _ ?_ ?_)

theorem execHoldOffExpiry_keeps (c : ChanNo) (s : State) (h0 : s.Keeps K) : Kept K (execHoldOffExpiry c s) := by
  unfold execHoldOffExpiry
  simp (maxDischargeDepth := 30) [h0]

theorem execStartGrant_keeps (s : State) (h0 : s.Keeps K) : Kept K (execStartGrant s) := by
  unfold execStartGrant
  try dsimp only
  repeat' (first | (simp +contextual (maxDischargeDepth := 30) [*]; done) | intro _ | split | refine (kept_next _).2 ?_)

theorem execPrechargeComplete_keeps (c : ChanNo) (s : State) (h0 : s.Keeps K) : Kept K (execPrechargeComplete c s) := by
  unfold execPrechargeComplete
  try dsimp only
  repeat' (first | (simp +contextual (maxDischargeDepth := 30) [*]; done) | intro _ | split | refine State.chanEvent_keeps _ _ _ _ ?_ ?_)

theorem execPrechargeTimeout_keeps (c : ChanNo) (s : State) (h0 : s.Keeps K) : Kept K (execPrechargeTimeout c s) := by
  unfold execPrechargeTimeout
  try dsimp only
  repeat' (first | (simp +contextual (maxDischargeDepth := 30) [*]; done) | intro _ | split | refine State.chanEvent_keeps _ _ _ _ ?_ ?_)

theorem execGateRiseComplete_keeps (c : ChanNo) (s : State) (h0 : s.Keeps K) : Kept K (execGateRiseComplete c s) := by
  unfold execGateRiseComplete
  try dsimp only
  repeat' (first | (simp +contextual (maxDischargeDepth := 30) [*]; done) | intro _ | split | refine State.chanEvent_keeps _ _ _ _ ?_ ?_)

theorem execGateNoRise_keeps (c : ChanNo) (s : State) (h0 : s.Keeps K) : Kept K (execGateNoRise c s) := by
  unfold execGateNoRise
  try dsimp only
  repeat' (first | (simp +contextual (maxDischargeDepth := 30) [*]; done) | intro _ | split | refine State.chanEvent_keeps _ _ _ _ ?_ ?_)

theorem execPowerGood_keeps (c : ChanNo) (s : State) (h0 : s.Keeps K) : Kept K (execPowerGood c s) := by
  unfold execPowerGood
  try dsimp only
  repeat' (first | (simp +contextual (maxDischargeDepth := 30) [*]; done) | intro _ | split | refine State.chanEvent_keeps _ _ _ _ ?_ ?_)

theorem execStabiliseTimeout_keeps (c : ChanNo) (s : State) (h0 : s.Keeps K) : Kept K (execStabiliseTimeout c s) := by
  unfold execStabiliseTimeout
  try dsimp only
  repeat' (first | (simp +contextual (maxDischargeDepth := 30) [*]; done) | intro _ | split | refine State.chanEvent_keeps _ _ _ _ ?_ ?_)

theorem execBreakerTimerStart_keeps (c : ChanNo) (s : State) (h0 : s.Keeps K) : Kept K (execBreakerTimerStart c s) := by
  unfold execBreakerTimerStart
  try dsimp only
  repeat' (first | (simp +contextual (maxDischargeDepth := 30) [*]; done) | intro _ | split | refine State.chanEvent_keeps _ _ _ _ ?_ ?_)

theorem execBreakerReset_keeps (c : ChanNo) (s : State) (h0 : s.Keeps K) : Kept K (execBreakerReset c s) := by
  unfold execBreakerReset
  try dsimp only
  repeat' (first | (simp +contextual (maxDischargeDepth := 30) [*]; done) | intro _ | split | refine State.chanEvent_keeps _ _ _ _ ?_ ?_)

theorem execBreakerExpiry_keeps (c : ChanNo) (s : State) (h0 : s.Keeps K) : Kept K (execBreakerExpiry c s) := by
  unfold execBreakerExpiry
  try dsimp only
  repeat' (first | (simp +contextual (maxDischargeDepth := 30) [*]; done) | intro _ | split | refine State.chanEvent_keeps _ _ _ _ ?_ ?_)

theorem execFastTrip_keeps (c : ChanNo) (s : State) (h0 : s.Keeps K) : Kept K (execFastTrip c s) := by
  unfold execFastTrip
  try dsimp only
  repeat' (first | (simp +contextual (maxDischargeDepth := 30) [*]; done) | intro _ | split | refine (kept_next _).2 ?_
                 | refine State.chanEvent_keeps _ _ _ _ ?_ ?_)

theorem execGateLoss_keeps (c : ChanNo) (s : State) (h0 : s.Keeps K) : Kept K (execGateLoss c s) := by
  unfold execGateLoss
  try dsimp only
  repeat' (first | (simp +contextual (maxDischargeDepth := 30) [*]; done) | intro _ | split | refine State.chanEvent_keeps _ _ _ _ ?_ ?_)

theorem execPfwLeadExpiry_keeps (c : ChanNo) (s : State) (h0 : s.Keeps K) : Kept K (execPfwLeadExpiry c s) := by
  unfold execPfwLeadExpiry
  try dsimp only
  repeat' (first | (simp +contextual (maxDischargeDepth := 30) [*]; done) | intro _ | split | refine State.chanEvent_keeps _ _ _ _ ?_ ?_)

theorem execRetryWaitExpiry_keeps (c : ChanNo) (s : State) (h0 : s.Keeps K) : Kept K (execRetryWaitExpiry c s) := by
  unfold execRetryWaitExpiry
  try dsimp only
  repeat' (first | (simp +contextual (maxDischargeDepth := 30) [*]; done) | intro _ | split | refine (kept_next _).2 ?_
                 | refine State.chanEvent_keeps _ _ _ _ ?_ ?_)

theorem execRetryCountClear_keeps (c : ChanNo) (s : State) (h0 : s.Keeps K) : Kept K (execRetryCountClear c s) := by
  unfold execRetryCountClear
  try dsimp only
  repeat' (first | (simp +contextual (maxDischargeDepth := 30) [*]; done) | intro _ | split | refine State.chanEvent_keeps _ _ _ _ ?_ ?_)

theorem execInputBusWarning_keeps (vfeed : BitVec 16) (s : State) (h0 : s.Keeps K) : Kept K (execInputBusWarning vfeed s) := by
  unfold execInputBusWarning
  simp (maxDischargeDepth := 30) [h0]

theorem execWarningRelease_keeps (vfeed : BitVec 16) (s : State) (h0 : s.Keeps K) : Kept K (execWarningRelease vfeed s) := by
  unfold execWarningRelease
  simp (maxDischargeDepth := 30) [h0]

theorem execBusCut_keeps (vfeed : BitVec 16) (s : State) (h0 : s.Keeps K) : Kept K (execBusCut vfeed s) := by
  unfold execBusCut
  try dsimp only
  repeat' (first | (simp +contextual (maxDischargeDepth := 30) [*]; done) | intro _ | split
                 | refine State.each_keeps _ _ _ ?_ ?_ | refine (kept_next _).2 ?_)

theorem execBusRecovery_keeps (vfeed : BitVec 16) (s : State) (h0 : s.Keeps K) : Kept K (execBusRecovery vfeed s) := by
  unfold execBusRecovery
  try dsimp only
  repeat' (first | (simp +contextual (maxDischargeDepth := 30) [*]; done) | intro _ | split
                 | refine State.each_keeps _ _ _ ?_ ?_ | refine (kept_next _).2 ?_)

theorem execSlotSample_keeps (c : ChanNo) (x : SlotSample) (vfeed : BitVec 16) (s : State) (h0 : s.Keeps K) : Kept K (execSlotSample c x vfeed s) := by
  unfold execSlotSample
  simp (maxDischargeDepth := 30) [h0]

theorem execLatchRelease_keeps (s : State) (h0 : s.Keeps K) : Kept K (execLatchRelease s) := by
  unfold execLatchRelease
  try dsimp only
  repeat' (first | (simp +contextual (maxDischargeDepth := 30) [*]; done) | intro _ | split
                 | refine State.each_keeps _ _ _ ?_ ?_ | refine (kept_next _).2 ?_)

@[simp] theorem State.wakePort_keeps (s : State) (p : Nat) (h0 : s.Keeps K) : (State.wakePort s p).Keeps K := by
  unfold State.wakePort
  simp (maxDischargeDepth := 30) [h0]

@[simp] theorem State.sleepPort_keeps (s : State) (p : Nat) (h0 : s.Keeps K) : (State.sleepPort s p).Keeps K := by
  unfold State.sleepPort
  (repeat' split) <;> simp (maxDischargeDepth := 30) [*]

theorem execIdleSleepTimeout_keeps (p : PortNo) (s : State) (h0 : s.Keeps K) : Kept K (execIdleSleepTimeout p s) := by
  unfold execIdleSleepTimeout
  try dsimp only
  repeat' (first | (simp +contextual (maxDischargeDepth := 30) [*]; done) | intro _ | split | refine State.portEvent_keeps _ _ _ _ ?_ ?_)

theorem execSleepAnswerTimeout_keeps (p : PortNo) (s : State) (h0 : s.Keeps K) : Kept K (execSleepAnswerTimeout p s) := by
  unfold execSleepAnswerTimeout
  try dsimp only
  repeat' (first | (simp +contextual (maxDischargeDepth := 30) [*]; done) | intro _ | split | refine State.portEvent_keeps _ _ _ _ ?_ ?_)

theorem execSleepNakBackoffEnd_keeps (p : PortNo) (s : State) (h0 : s.Keeps K) : Kept K (execSleepNakBackoffEnd p s) := by
  unfold execSleepNakBackoffEnd
  try dsimp only
  repeat' (first | (simp +contextual (maxDischargeDepth := 30) [*]; done) | intro _ | split | refine State.portEvent_keeps _ _ _ _ ?_ ?_)

theorem execWakePulseDetect_keeps (p : PortNo) (s : State) (h0 : s.Keeps K) : Kept K (execWakePulseDetect p s) := by
  unfold execWakePulseDetect
  try dsimp only
  repeat' (first | (simp +contextual (maxDischargeDepth := 30) [*]; done) | intro _ | split | refine State.portEvent_keeps _ _ _ _ ?_ ?_)

theorem execSleepWake_keeps (p : PortNo) (s : State) (h0 : s.Keeps K) : Kept K (execSleepWake p s) := by
  unfold execSleepWake
  try dsimp only
  repeat' (first | (simp +contextual (maxDischargeDepth := 30) [*]; done) | intro _ | split | refine State.portEvent_keeps _ _ _ _ ?_ ?_)

@[simp] theorem State.quadOnCmd_keeps (s : State) (q : Nat) (h0 : s.Keeps K) : (State.quadOnCmd s q).Keeps K := by
  unfold State.quadOnCmd
  (repeat' split) <;> simp (maxDischargeDepth := 30) [*]

@[simp] theorem State.quadOffCmd_keeps (s : State) (q : Nat) (h0 : s.Keeps K) : (State.quadOffCmd s q).Keeps K := by
  unfold State.quadOffCmd
  (repeat' split) <;> simp (maxDischargeDepth := 30) [*]

@[simp] theorem State.clearRing_keeps (s : State) (r : Nat) (h0 : s.Keeps K) : (State.clearRing s r).Keeps K := by
  unfold State.clearRing
  (repeat' split) <;> simp +contextual (maxDischargeDepth := 30) [*]

@[simp] theorem State.ringDown_keeps (s : State) (r : Nat) (h0 : s.Keeps K) : (State.ringDown s r).Keeps K := by
  unfold State.ringDown
  (repeat' split) <;> simp +contextual (maxDischargeDepth := 30) [*]

@[simp] theorem State.ringUp_keeps (s : State) (r : Nat) (h0 : s.Keeps K) : (State.ringUp s r).Keeps K := by
  unfold State.ringUp
  simp (maxDischargeDepth := 30) [h0]

@[simp] theorem State.ringOffCmd_keeps (s : State) (r : Nat) (h0 : s.Keeps K) : (State.ringOffCmd s r).Keeps K := by
  unfold State.ringOffCmd
  (repeat' split) <;> simp (maxDischargeDepth := 30) [*]

@[simp] theorem State.clearDiag_keeps (s : State) (p : Nat) (h0 : s.Keeps K) : (State.clearDiag s p).Keeps K := by
  unfold State.clearDiag
  simp [h0]

@[simp] theorem State.enterInter_keeps (s : State) (h0 : s.Keeps K) : (State.enterInter s).Keeps K := by
  unfold State.enterInter
  (repeat' split) <;> simp +contextual (maxDischargeDepth := 30) [*]

theorem execIntermissionDrainEnd_keeps (s : State) (h0 : s.Keeps K) : Kept K (execIntermissionDrainEnd s) := by
  simp only [execIntermissionDrainEnd, kept_next]
  split
  · refine State.railsOff_keeps _ _ ⟨(State.coreReset_keeps _ h0).1, (State.coreReset_keeps _ h0).mgmt, (State.coreReset_keeps _ h0).time, ?_⟩
    exact ⟨(State.coreReset_keeps _ h0).faults.1, (State.coreReset_keeps _ h0).faults.2.1, fun h => by simp [State.coreReset, Faults.coreReset] at h⟩
  · exact h0

theorem execWakeNEdge_keeps (s : State) (h0 : s.Keeps K) : Kept K (execWakeNEdge s) := by
  unfold execWakeNEdge
  simp [h0]

theorem execWakeTimerExpiry_keeps (s : State) (h0 : s.Keeps K) : Kept K (execWakeTimerExpiry s) := by
  unfold execWakeTimerExpiry
  simp [h0]

theorem execPwrStateSet_keeps (mb : Mb) (s : State) (h0 : s.Keeps K) : Kept K (execPwrStateSet mb s) := by
  unfold execPwrStateSet
  try dsimp only
  repeat' (first | (simp +contextual (maxDischargeDepth := 30) [*]; done) | intro _ | split
                 | refine runCmd_keeps _ _ _ _ ?_ ?_ | refine (CmdResult.keeps_done _ _).2 ?_ | refine (kept_next _).2 ?_ | refine State.onPort_keeps _ _ _ _ _ _ ?_)

theorem execPwrQuery_keeps (mb : Mb) (s : State) (h0 : s.Keeps K) : Kept K (execPwrQuery mb s) := by
  unfold execPwrQuery
  try dsimp only
  repeat' (first | (simp +contextual (maxDischargeDepth := 30) [*, foldl_keeps]; done) | intro _ | split
                 | refine foldl_keeps _ _ _ ?_ ?_ | refine runCmd_keeps _ _ _ _ ?_ ?_ | refine (CmdResult.keeps_done _ _).2 ?_ | refine (kept_next _).2 ?_
                 | refine State.onPort_keeps _ _ _ _ _ _ ?_ | refine State.onPu_keeps _ _ _ _ ?_)

theorem execSysReset_keeps (mb : Mb) (s : State) (h0 : s.Keeps K) : Kept K (execSysReset mb s) := by
  unfold execSysReset
  try dsimp only
  repeat' (first | (simp +contextual (maxDischargeDepth := 30) [*]; done) | intro _ | split
                 | refine runCmd_keeps _ _ _ _ ?_ ?_ | refine (CmdResult.keeps_done _ _).2 ?_ | refine (kept_next _).2 ?_)

@[simp] theorem State.moveRingsOut_keeps (s : State) (r : Nat) (h0 : s.Keeps K) : (s.moveRingsOut r).Keeps K := by
  refine State.each_keeps _ _ _ h0 fun t id ht => ?_
  split <;> simp (maxDischargeDepth := 30) [ht]

@[simp] theorem State.dropAdaptation_keeps (s : State) (p : Nat) (h0 : s.Keeps K) : (State.dropAdaptation s p).Keeps K := by
  unfold State.dropAdaptation
  simp [h0]

@[simp] theorem State.resetRingUnits_keeps (s : State) (r : Nat) (h0 : s.Keeps K) : (s.resetRingUnits r).Keeps K := by
  unfold State.resetRingUnits
  extract_lets off s1 s2 s3 s4 s5 s6
  have h1 : s1.Keeps K := by simp (maxDischargeDepth := 30) [s1, h0]
  clear_value s1
  have h2 : s2.Keeps K := by simp [s2, h1]
  clear_value s2
  have h3 : s3.Keeps K := State.each_keeps _ _ _ h2 fun t u ht => by simp (maxDischargeDepth := 30) [ht]
  have h4 : s4.Keeps K := State.clearRing_keeps _ _ (State.each_keeps _ _ _ h3 fun t u ht => by simp [ht])
  clear_value s4
  have h5 : s5.Keeps K := State.each_keeps _ _ _ h4 fun t u ht => by simp [ht]
  have h6 : s6.Keeps K := by simp only [s6]; clear_value s5; simp (maxDischargeDepth := 30) [h5]
  clear_value s6
  simp (maxDischargeDepth := 30) [h6]

theorem execRingReset_keeps (mb : Mb) (s : State) (h0 : s.Keeps K) : Kept K (execRingReset mb s) := by
  unfold execRingReset
  try dsimp only
  repeat' (first | (simp +contextual (maxDischargeDepth := 30) [*]; done) | intro _ | split
                 | refine runCmd_keeps _ _ _ _ ?_ ?_ | refine (CmdResult.keeps_done _ _).2 ?_ | refine (kept_next _).2 ?_)

theorem execRingResetDiscardEnd_keeps (r : RingNo) (s : State) (h0 : s.Keeps K) : Kept K (execRingResetDiscardEnd r s) := by
  unfold execRingResetDiscardEnd
  simp [h0]

@[simp] theorem State.resetPort_keeps (s : State) (p : Nat) (h0 : s.Keeps K) : (State.resetPort s p).Keeps K := by
  unfold State.resetPort
  simp (maxDischargeDepth := 30) [h0]

theorem execPortReset_keeps (mb : Mb) (s : State) (h0 : s.Keeps K) : Kept K (execPortReset mb s) := by
  unfold execPortReset
  try dsimp only
  repeat' (first | (simp +contextual (maxDischargeDepth := 30) [*]; done) | intro _ | split
                 | refine runCmd_keeps _ _ _ _ ?_ ?_ | refine (CmdResult.keeps_done _ _).2 ?_ | refine (kept_next _).2 ?_ | refine State.onPort_keeps _ _ _ _ _ _ ?_)

theorem execVhReset_keeps (mb : Mb) (s : State) (h0 : s.Keeps K) : Kept K (execVhReset mb s) := by
  unfold execVhReset
  try dsimp only
  repeat' (first | (simp +contextual (maxDischargeDepth := 30) [*]; done) | intro _ | split
                 | refine runCmd_keeps _ _ _ _ ?_ ?_ | refine (CmdResult.keeps_done _ _).2 ?_ | refine (kept_next _).2 ?_)

theorem execBoothRestart_keeps (mb : Mb) (s : State) (h0 : s.Keeps K) : Kept K (execBoothRestart mb s) := by
  unfold execBoothRestart
  try dsimp only
  repeat' (first | (simp +contextual (maxDischargeDepth := 30) [*]; done) | intro _ | split
                 | refine runCmd_keeps _ _ _ _ ?_ ?_ | refine (CmdResult.keeps_done _ _).2 ?_ | refine (kept_next _).2 ?_)

theorem execWakeConfig_keeps (mb : Mb) (s : State) (h0 : s.Keeps K) : Kept K (execWakeConfig mb s) := by
  unfold execWakeConfig
  try dsimp only
  repeat' (first | (simp +contextual (maxDischargeDepth := 30) [*]; done) | intro _ | split
                 | refine runCmd_keeps _ _ _ _ ?_ ?_ | refine (CmdResult.keeps_done _ _).2 ?_ | refine (kept_next _).2 ?_)

theorem execSleepConfig_keeps (mb : Mb) (s : State) (h0 : s.Keeps K) : Kept K (execSleepConfig mb s) := by
  unfold execSleepConfig
  try dsimp only
  repeat' (first | (simp +contextual (maxDischargeDepth := 30) [*]; done) | intro _ | split
                 | refine runCmd_keeps _ _ _ _ ?_ ?_ | refine (CmdResult.keeps_done _ _).2 ?_ | refine (kept_next _).2 ?_ | refine State.onNative_keeps _ _ _ _ _ ?_)

theorem execPowerOn_keeps (s : State) (h0 : s.Keeps K) : Kept K (execPowerOn s) := by
  unfold execPowerOn
  simp (maxDischargeDepth := 30) [h0]

theorem execColdReset_keeps (s : State) (h0 : s.Keeps K) : Kept K (execColdReset s) := by
  unfold execColdReset
  simp (maxDischargeDepth := 30) [h0]

theorem execWarmReset_keeps (s : State) (h0 : s.Keeps K) : Kept K (execWarmReset s) := by
  unfold execWarmReset
  simp (maxDischargeDepth := 30) [h0]

theorem execSupplyBrownout_keeps (s : State) (h0 : s.Keeps K) : Kept K (execSupplyBrownout s) := by
  refine ⟨h0.1, by simp [Mgmt.Sound], by simp [State.reset, FabricTime.Sound], by simp [State.reset, Faults.Sound]⟩

theorem execBoothResume_keeps (prsnt : BitVec 48) (vfeed : BitVec 16) (s : State) (h0 : s.Keeps K) : Kept K (execBoothResume prsnt vfeed s) := by
  unfold execBoothResume
  simp (maxDischargeDepth := 30) [h0]

@[simp] theorem State.evColdHold_keeps (s : State) (temp : ℤ) (ended : Bool) (h0 : s.Keeps K) : (State.evColdHold s temp ended).Keeps K := by
  unfold State.evColdHold
  simp [h0]

@[simp] theorem State.held_keeps (s : State) (h0 : s.Keeps K) : (State.held s).Keeps K := by
  unfold State.held
  exact h0

theorem execColdHoldCheck_keeps (temp : ℤ) (s : State) (h0 : s.Keeps K) : Kept K (execColdHoldCheck temp s) := by
  unfold execColdHoldCheck
  try dsimp only
  repeat' (first | (simp +contextual (maxDischargeDepth := 30) [*]; done) | intro _ | split | refine (kept_next _).2 ?_)

@[simp] theorem State.preheatStart_keeps (s : State) (h0 : s.Keeps K) : (State.preheatStart s).Keeps K := by
  unfold State.preheatStart
  exact h0

theorem execPreheatCheck_keeps (temp : ℤ) (s : State) (h0 : s.Keeps K) : Kept K (execPreheatCheck temp s) := by
  unfold execPreheatCheck
  try dsimp only
  repeat' (first | (simp +contextual (maxDischargeDepth := 30) [*]; done) | intro _ | split | refine (kept_next _).2 ?_)

theorem execPreheatTimeout_keeps (s : State) (h0 : s.Keeps K) : Kept K (execPreheatTimeout s) := by
  unfold execPreheatTimeout
  simp [h0]

theorem execPreheatRetry_keeps (s : State) (h0 : s.Keeps K) : Kept K (execPreheatRetry s) := by
  unfold execPreheatRetry
  simp [h0]

theorem execRailPowerGood_keeps (r : RailNo) (s : State) (h0 : s.Keeps K) : Kept K (execRailPowerGood r s) := by
  unfold execRailPowerGood
  simp [h0]

theorem execRailPowerGoodTimeout_keeps (r : RailNo) (s : State) (h0 : s.Keeps K) : Kept K (execRailPowerGoodTimeout r s) := by
  unfold execRailPowerGoodTimeout
  simp [h0]

theorem execRailSequenceRetry_keeps (s : State) (h0 : s.Keeps K) : Kept K (execRailSequenceRetry s) := by
  unfold execRailSequenceRetry
  simp [h0]

theorem execRailPowerFail_keeps (r : RailNo) (s : State) (h0 : s.Keeps K) : Kept K (execRailPowerFail r s) := by
  unfold execRailPowerFail
  simp [h0]

theorem execRefclkCoreLoss_keeps (s : State) (h0 : s.Keeps K) : Kept K (execRefclkCoreLoss s) := by
  unfold execRefclkCoreLoss
  simp (maxDischargeDepth := 30) [h0]

theorem execRailPwrOkFall_keeps (r : RailNo) (s : State) (h0 : s.Keeps K) : Kept K (execRailPwrOkFall r s) := by
  unfold execRailPwrOkFall
  simp (maxDischargeDepth := 30) [h0]

theorem execCoreRelease_keeps (s : State) (h0 : s.Keeps K) : Kept K (execCoreRelease s) := by
  unfold execCoreRelease
  simp (maxDischargeDepth := 30) [h0]

theorem execRefclkCoreStartTimeout_keeps (s : State) (h0 : s.Keeps K) : Kept K (execRefclkCoreStartTimeout s) := by
  unfold execRefclkCoreStartTimeout
  simp (maxDischargeDepth := 30) [h0]

theorem execImageSelect_keeps (flashOk : Bool) (s : State) (h0 : s.Keeps K) : Kept K (execImageSelect flashOk s) := by
  unfold execImageSelect
  simp (maxDischargeDepth := 30) [h0]

@[simp] theorem State.wakeRestore_keeps (s : State) (h0 : s.Keeps K) : (State.wakeRestore s).Keeps K := by
  unfold State.wakeRestore
  (repeat' split) <;> simp (maxDischargeDepth := 30) [*]

theorem Faults.ready_keeps (f : Faults) (now : Nat) (w : Bool) (h : f.Keeps K) : (f.ready now w).Keeps K := by
  simp only [Faults.ready]
  split
  · exact h
  · rename_i hw
    exact ⟨h.1, h.2.1, fun hs => absurd (Or.inr hs) hw⟩
theorem execBootReady_keeps (s : State) (h0 : s.Keeps K) : Kept K (execBootReady s) := by
  unfold execBootReady
  split
  · exact h0
  · extract_lets wake s1 s2 s3 s4 s5 s6
    have h1 : s1.Keeps K := by simp (maxDischargeDepth := 30) [s1, h0]
    clear_value s1
    have h2 : s2.Keeps K := by simp only [s2]; split <;> simp (maxDischargeDepth := 30) [h1]
    clear_value s2
    have h3 : s3.Keeps K := State.modPower_keeps _ _ (State.modFaults_keeps _ _ h2 (Faults.ready_keeps _ _ _ h2.faults))
    clear_value s3
    have h4 : s4.Keeps K := by simp only [s4]; split <;> simp [h3]
    clear_value s4
    have h5 : s5.Keeps K := by simp [s5, h4]
    clear_value s5
    have h6 : s6.Keeps K := by simp only [s6]; split <;> simp [h5]
    exact State.answerHeld_keeps _ h6

theorem execHostTlpWrap_keeps (p : PortNo) (t : Tlp) (s0 : State) (h0 : s0.Keeps K) : Kept K (execHostTlpWrap p t s0) := by
  unfold execHostTlpWrap
  try dsimp only
  repeat' (first | (simp +contextual (maxDischargeDepth := 30) [*]; done) | intro _ | split | refine (kept_next _).2 ?_ | refine require_keeps _ _ ?_)

theorem execTargetTlpWrap_keeps (p : PortNo) (inst : BitVec 12) (t : Tlp) (s : State) (h0 : s.Keeps K) : Kept K (execTargetTlpWrap p inst t s) := by
  unfold execTargetTlpWrap
  simp (maxDischargeDepth := 30) [h0]

theorem State.forwardCfg_keeps (s : State) (v : Nat) (fn : EmulatedFn) (t : Nat → Tlp) (h0 : s.Keeps K) {x : State} (h : State.forwardCfg s v fn t = some x) : x.Keeps K := by
  unfold State.forwardCfg at h; (repeat' split at h) <;> first | (cases h; done) | (cases h; simp (maxDischargeDepth := 30) [*]; done)

theorem execConfigEmulation_keeps (vh : VhNo) (fn : EmulatedFn) (reg : BitVec 12) (wr : Option (BitVec 32)) (poison : Bool) (s : State) (h0 : s.Keeps K) :
    Kept K (execConfigEmulation vh fn reg wr poison s) := by
  refine require_keeps _ _ ((kept_next _).2 ?_)
  split
  · split
    · exact State.forwardCfg_keeps _ _ _ _ h0 ‹_›
    · exact State.modParts_keeps _ _ (State.cfgAccess_keeps _ _ _ _ _ _ h0)
  · exact h0

theorem execSecondaryBusReset_keeps (vh : VhNo) (k : VdspNo) (s : State) (h0 : s.Keeps K) : Kept K (execSecondaryBusReset vh k s) := by
  unfold execSecondaryBusReset
  simp [h0]

theorem execHotResetReceive_keeps (p : PortNo) (s : State) (h0 : s.Keeps K) : Kept K (execHotResetReceive p s) := by
  unfold execHotResetReceive
  try dsimp only
  repeat' (first | (simp +contextual (maxDischargeDepth := 30) [*]; done) | intro _ | split | refine (kept_next _).2 ?_)

theorem execCompletionUnwrap_keeps (p : PortNo) (f : Frame) (s : State) (h0 : s.Keeps K) : Kept K (execCompletionUnwrap p f s) := by
  unfold execCompletionUnwrap
  try dsimp only
  repeat' (first | (simp +contextual (maxDischargeDepth := 30) [*]; done) | intro _ | split | refine (kept_next _).2 ?_ | refine require_keeps _ _ ?_)

theorem State.tick_sound (s : State) (h : s.Sound) : s.tick.Sound := by
  unfold State.tick
  refine ⟨h.1, ?_, h.2.2⟩
  split
  · exact FabricTime.advance_keeps (K := ([], s.part, 0)) _
  · exact h.2.1

end Sys2Proof.Machine
end

