-- ==== Sys2Proof/Laws/State.lean ====
section
/-!
SUPPORT. The state record: what each update of one part leaves, one lemma per part and update, and the parts that an event, a response and the lapses of TIMING leave.
-/

namespace Sys2Proof.Machine

@[simp] theorem State.modPort_pending (s : State) (p : Nat) (f : Port → Port) : (s.modPort p f).pending = s.pending := rfl
@[simp] theorem State.modPort_now (s : State) (p : Nat) (f : Port → Port) : (s.modPort p f).now = s.now := rfl
@[simp] theorem State.modPort_free (s : State) (p : Nat) (f : Port → Port) : (s.modPort p f).free = s.free := rfl
@[simp] theorem State.modPort_part (s : State) (p : Nat) (f : Port → Port) : (s.modPort p f).part = s.part := rfl
@[simp] theorem State.modPort_mgmt (s : State) (p : Nat) (f : Port → Port) : (s.modPort p f).mgmt = s.mgmt := rfl
@[simp] theorem State.modPort_lanes (s : State) (p : Nat) (f : Port → Port) : (s.modPort p f).lanes = s.lanes := rfl
@[simp] theorem State.modPort_links (s : State) (p : Nat) (f : Port → Port) : (s.modPort p f).links = s.links := rfl
@[simp] theorem State.modPort_fabric (s : State) (p : Nat) (f : Port → Port) : (s.modPort p f).fabric = s.fabric := rfl
@[simp] theorem State.modPort_car (s : State) (p : Nat) (f : Port → Port) : (s.modPort p f).car = s.car := rfl
@[simp] theorem State.modPort_sched (s : State) (p : Nat) (f : Port → Port) : (s.modPort p f).sched = s.sched := rfl
@[simp] theorem State.modPort_parts (s : State) (p : Nat) (f : Port → Port) : (s.modPort p f).parts = s.parts := rfl
@[simp] theorem State.modPort_jug (s : State) (p : Nat) (f : Port → Port) : (s.modPort p f).jug = s.jug := rfl
@[simp] theorem State.modPort_pwA (s : State) (p : Nat) (f : Port → Port) : (s.modPort p f).pwA = s.pwA := rfl
@[simp] theorem State.modPort_pwB (s : State) (p : Nat) (f : Port → Port) : (s.modPort p f).pwB = s.pwB := rfl
@[simp] theorem State.modPort_sideband (s : State) (p : Nat) (f : Port → Port) : (s.modPort p f).sideband = s.sideband := rfl
@[simp] theorem State.modPort_slots (s : State) (p : Nat) (f : Port → Port) : (s.modPort p f).slots = s.slots := rfl
@[simp] theorem State.modPort_faults (s : State) (p : Nat) (f : Port → Port) : (s.modPort p f).faults = s.faults := rfl
@[simp] theorem State.modPort_bist (s : State) (p : Nat) (f : Port → Port) : (s.modPort p f).bist = s.bist := rfl
@[simp] theorem State.modPort_power (s : State) (p : Nat) (f : Port → Port) : (s.modPort p f).power = s.power := rfl

@[simp] theorem State.modLane_pending (s : State) (n : Nat) (f : Lane → Lane) : (s.modLane n f).pending = s.pending := rfl
@[simp] theorem State.modLane_now (s : State) (n : Nat) (f : Lane → Lane) : (s.modLane n f).now = s.now := rfl
@[simp] theorem State.modLane_free (s : State) (n : Nat) (f : Lane → Lane) : (s.modLane n f).free = s.free := rfl
@[simp] theorem State.modLane_part (s : State) (n : Nat) (f : Lane → Lane) : (s.modLane n f).part = s.part := rfl
@[simp] theorem State.modLane_mgmt (s : State) (n : Nat) (f : Lane → Lane) : (s.modLane n f).mgmt = s.mgmt := rfl
@[simp] theorem State.modLane_ports (s : State) (n : Nat) (f : Lane → Lane) : (s.modLane n f).ports = s.ports := rfl
@[simp] theorem State.modLane_links (s : State) (n : Nat) (f : Lane → Lane) : (s.modLane n f).links = s.links := rfl
@[simp] theorem State.modLane_fabric (s : State) (n : Nat) (f : Lane → Lane) : (s.modLane n f).fabric = s.fabric := rfl
@[simp] theorem State.modLane_car (s : State) (n : Nat) (f : Lane → Lane) : (s.modLane n f).car = s.car := rfl
@[simp] theorem State.modLane_sched (s : State) (n : Nat) (f : Lane → Lane) : (s.modLane n f).sched = s.sched := rfl
@[simp] theorem State.modLane_parts (s : State) (n : Nat) (f : Lane → Lane) : (s.modLane n f).parts = s.parts := rfl
@[simp] theorem State.modLane_jug (s : State) (n : Nat) (f : Lane → Lane) : (s.modLane n f).jug = s.jug := rfl
@[simp] theorem State.modLane_pwA (s : State) (n : Nat) (f : Lane → Lane) : (s.modLane n f).pwA = s.pwA := rfl
@[simp] theorem State.modLane_pwB (s : State) (n : Nat) (f : Lane → Lane) : (s.modLane n f).pwB = s.pwB := rfl
@[simp] theorem State.modLane_sideband (s : State) (n : Nat) (f : Lane → Lane) : (s.modLane n f).sideband = s.sideband := rfl
@[simp] theorem State.modLane_slots (s : State) (n : Nat) (f : Lane → Lane) : (s.modLane n f).slots = s.slots := rfl
@[simp] theorem State.modLane_faults (s : State) (n : Nat) (f : Lane → Lane) : (s.modLane n f).faults = s.faults := rfl
@[simp] theorem State.modLane_bist (s : State) (n : Nat) (f : Lane → Lane) : (s.modLane n f).bist = s.bist := rfl
@[simp] theorem State.modLane_power (s : State) (n : Nat) (f : Lane → Lane) : (s.modLane n f).power = s.power := rfl

@[simp] theorem State.modLink_pending (s : State) (p : Nat) (f : Link → Link) : (s.modLink p f).pending = s.pending := rfl
@[simp] theorem State.modLink_now (s : State) (p : Nat) (f : Link → Link) : (s.modLink p f).now = s.now := rfl
@[simp] theorem State.modLink_free (s : State) (p : Nat) (f : Link → Link) : (s.modLink p f).free = s.free := rfl
@[simp] theorem State.modLink_part (s : State) (p : Nat) (f : Link → Link) : (s.modLink p f).part = s.part := rfl
@[simp] theorem State.modLink_mgmt (s : State) (p : Nat) (f : Link → Link) : (s.modLink p f).mgmt = s.mgmt := rfl
@[simp] theorem State.modLink_ports (s : State) (p : Nat) (f : Link → Link) : (s.modLink p f).ports = s.ports := rfl
@[simp] theorem State.modLink_lanes (s : State) (p : Nat) (f : Link → Link) : (s.modLink p f).lanes = s.lanes := rfl
@[simp] theorem State.modLink_fabric (s : State) (p : Nat) (f : Link → Link) : (s.modLink p f).fabric = s.fabric := rfl
@[simp] theorem State.modLink_car (s : State) (p : Nat) (f : Link → Link) : (s.modLink p f).car = s.car := rfl
@[simp] theorem State.modLink_sched (s : State) (p : Nat) (f : Link → Link) : (s.modLink p f).sched = s.sched := rfl
@[simp] theorem State.modLink_parts (s : State) (p : Nat) (f : Link → Link) : (s.modLink p f).parts = s.parts := rfl
@[simp] theorem State.modLink_jug (s : State) (p : Nat) (f : Link → Link) : (s.modLink p f).jug = s.jug := rfl
@[simp] theorem State.modLink_pwA (s : State) (p : Nat) (f : Link → Link) : (s.modLink p f).pwA = s.pwA := rfl
@[simp] theorem State.modLink_pwB (s : State) (p : Nat) (f : Link → Link) : (s.modLink p f).pwB = s.pwB := rfl
@[simp] theorem State.modLink_sideband (s : State) (p : Nat) (f : Link → Link) : (s.modLink p f).sideband = s.sideband := rfl
@[simp] theorem State.modLink_slots (s : State) (p : Nat) (f : Link → Link) : (s.modLink p f).slots = s.slots := rfl
@[simp] theorem State.modLink_faults (s : State) (p : Nat) (f : Link → Link) : (s.modLink p f).faults = s.faults := rfl
@[simp] theorem State.modLink_bist (s : State) (p : Nat) (f : Link → Link) : (s.modLink p f).bist = s.bist := rfl
@[simp] theorem State.modLink_power (s : State) (p : Nat) (f : Link → Link) : (s.modLink p f).power = s.power := rfl

@[simp] theorem State.countLink_pending (s : State) (p : Nat) (f : LinkCounters → LinkCounters) : (s.countLink p f).pending = s.pending := rfl
@[simp] theorem State.countLink_now (s : State) (p : Nat) (f : LinkCounters → LinkCounters) : (s.countLink p f).now = s.now := rfl
@[simp] theorem State.countLink_free (s : State) (p : Nat) (f : LinkCounters → LinkCounters) : (s.countLink p f).free = s.free := rfl
@[simp] theorem State.countLink_part (s : State) (p : Nat) (f : LinkCounters → LinkCounters) : (s.countLink p f).part = s.part := rfl
@[simp] theorem State.countLink_mgmt (s : State) (p : Nat) (f : LinkCounters → LinkCounters) : (s.countLink p f).mgmt = s.mgmt := rfl
@[simp] theorem State.countLink_ports (s : State) (p : Nat) (f : LinkCounters → LinkCounters) : (s.countLink p f).ports = s.ports := rfl
@[simp] theorem State.countLink_lanes (s : State) (p : Nat) (f : LinkCounters → LinkCounters) : (s.countLink p f).lanes = s.lanes := rfl
@[simp] theorem State.countLink_fabric (s : State) (p : Nat) (f : LinkCounters → LinkCounters) : (s.countLink p f).fabric = s.fabric := rfl
@[simp] theorem State.countLink_car (s : State) (p : Nat) (f : LinkCounters → LinkCounters) : (s.countLink p f).car = s.car := rfl
@[simp] theorem State.countLink_sched (s : State) (p : Nat) (f : LinkCounters → LinkCounters) : (s.countLink p f).sched = s.sched := rfl
@[simp] theorem State.countLink_parts (s : State) (p : Nat) (f : LinkCounters → LinkCounters) : (s.countLink p f).parts = s.parts := rfl
@[simp] theorem State.countLink_jug (s : State) (p : Nat) (f : LinkCounters → LinkCounters) : (s.countLink p f).jug = s.jug := rfl
@[simp] theorem State.countLink_pwA (s : State) (p : Nat) (f : LinkCounters → LinkCounters) : (s.countLink p f).pwA = s.pwA := rfl
@[simp] theorem State.countLink_pwB (s : State) (p : Nat) (f : LinkCounters → LinkCounters) : (s.countLink p f).pwB = s.pwB := rfl
@[simp] theorem State.countLink_sideband (s : State) (p : Nat) (f : LinkCounters → LinkCounters) : (s.countLink p f).sideband = s.sideband := rfl
@[simp] theorem State.countLink_slots (s : State) (p : Nat) (f : LinkCounters → LinkCounters) : (s.countLink p f).slots = s.slots := rfl
@[simp] theorem State.countLink_faults (s : State) (p : Nat) (f : LinkCounters → LinkCounters) : (s.countLink p f).faults = s.faults := rfl
@[simp] theorem State.countLink_bist (s : State) (p : Nat) (f : LinkCounters → LinkCounters) : (s.countLink p f).bist = s.bist := rfl
@[simp] theorem State.countLink_power (s : State) (p : Nat) (f : LinkCounters → LinkCounters) : (s.countLink p f).power = s.power := rfl

@[simp] theorem State.setMbox_pending (s : State) (n : Nat) (m : Mailbox) : (s.setMbox n m).pending = s.pending := rfl
@[simp] theorem State.setMbox_now (s : State) (n : Nat) (m : Mailbox) : (s.setMbox n m).now = s.now := rfl
@[simp] theorem State.setMbox_free (s : State) (n : Nat) (m : Mailbox) : (s.setMbox n m).free = s.free := rfl
@[simp] theorem State.setMbox_part (s : State) (n : Nat) (m : Mailbox) : (s.setMbox n m).part = s.part := rfl
@[simp] theorem State.setMbox_ports (s : State) (n : Nat) (m : Mailbox) : (s.setMbox n m).ports = s.ports := rfl
@[simp] theorem State.setMbox_lanes (s : State) (n : Nat) (m : Mailbox) : (s.setMbox n m).lanes = s.lanes := rfl
@[simp] theorem State.setMbox_links (s : State) (n : Nat) (m : Mailbox) : (s.setMbox n m).links = s.links := rfl
@[simp] theorem State.setMbox_fabric (s : State) (n : Nat) (m : Mailbox) : (s.setMbox n m).fabric = s.fabric := rfl
@[simp] theorem State.setMbox_car (s : State) (n : Nat) (m : Mailbox) : (s.setMbox n m).car = s.car := rfl
@[simp] theorem State.setMbox_sched (s : State) (n : Nat) (m : Mailbox) : (s.setMbox n m).sched = s.sched := rfl
@[simp] theorem State.setMbox_parts (s : State) (n : Nat) (m : Mailbox) : (s.setMbox n m).parts = s.parts := rfl
@[simp] theorem State.setMbox_jug (s : State) (n : Nat) (m : Mailbox) : (s.setMbox n m).jug = s.jug := rfl
@[simp] theorem State.setMbox_pwA (s : State) (n : Nat) (m : Mailbox) : (s.setMbox n m).pwA = s.pwA := rfl
@[simp] theorem State.setMbox_pwB (s : State) (n : Nat) (m : Mailbox) : (s.setMbox n m).pwB = s.pwB := rfl
@[simp] theorem State.setMbox_sideband (s : State) (n : Nat) (m : Mailbox) : (s.setMbox n m).sideband = s.sideband := rfl
@[simp] theorem State.setMbox_slots (s : State) (n : Nat) (m : Mailbox) : (s.setMbox n m).slots = s.slots := rfl
@[simp] theorem State.setMbox_faults (s : State) (n : Nat) (m : Mailbox) : (s.setMbox n m).faults = s.faults := rfl
@[simp] theorem State.setMbox_bist (s : State) (n : Nat) (m : Mailbox) : (s.setMbox n m).bist = s.bist := rfl
@[simp] theorem State.setMbox_power (s : State) (n : Nat) (m : Mailbox) : (s.setMbox n m).power = s.power := rfl

@[simp] theorem State.modMbox_pending (s : State) (n : Nat) (f : Mailbox → Mailbox) : (s.modMbox n f).pending = s.pending := rfl
@[simp] theorem State.modMbox_now (s : State) (n : Nat) (f : Mailbox → Mailbox) : (s.modMbox n f).now = s.now := rfl
@[simp] theorem State.modMbox_free (s : State) (n : Nat) (f : Mailbox → Mailbox) : (s.modMbox n f).free = s.free := rfl
@[simp] theorem State.modMbox_part (s : State) (n : Nat) (f : Mailbox → Mailbox) : (s.modMbox n f).part = s.part := rfl
@[simp] theorem State.modMbox_ports (s : State) (n : Nat) (f : Mailbox → Mailbox) : (s.modMbox n f).ports = s.ports := rfl
@[simp] theorem State.modMbox_lanes (s : State) (n : Nat) (f : Mailbox → Mailbox) : (s.modMbox n f).lanes = s.lanes := rfl
@[simp] theorem State.modMbox_links (s : State) (n : Nat) (f : Mailbox → Mailbox) : (s.modMbox n f).links = s.links := rfl
@[simp] theorem State.modMbox_fabric (s : State) (n : Nat) (f : Mailbox → Mailbox) : (s.modMbox n f).fabric = s.fabric := rfl
@[simp] theorem State.modMbox_car (s : State) (n : Nat) (f : Mailbox → Mailbox) : (s.modMbox n f).car = s.car := rfl
@[simp] theorem State.modMbox_sched (s : State) (n : Nat) (f : Mailbox → Mailbox) : (s.modMbox n f).sched = s.sched := rfl
@[simp] theorem State.modMbox_parts (s : State) (n : Nat) (f : Mailbox → Mailbox) : (s.modMbox n f).parts = s.parts := rfl
@[simp] theorem State.modMbox_jug (s : State) (n : Nat) (f : Mailbox → Mailbox) : (s.modMbox n f).jug = s.jug := rfl
@[simp] theorem State.modMbox_pwA (s : State) (n : Nat) (f : Mailbox → Mailbox) : (s.modMbox n f).pwA = s.pwA := rfl
@[simp] theorem State.modMbox_pwB (s : State) (n : Nat) (f : Mailbox → Mailbox) : (s.modMbox n f).pwB = s.pwB := rfl
@[simp] theorem State.modMbox_sideband (s : State) (n : Nat) (f : Mailbox → Mailbox) : (s.modMbox n f).sideband = s.sideband := rfl
@[simp] theorem State.modMbox_slots (s : State) (n : Nat) (f : Mailbox → Mailbox) : (s.modMbox n f).slots = s.slots := rfl
@[simp] theorem State.modMbox_faults (s : State) (n : Nat) (f : Mailbox → Mailbox) : (s.modMbox n f).faults = s.faults := rfl
@[simp] theorem State.modMbox_bist (s : State) (n : Nat) (f : Mailbox → Mailbox) : (s.modMbox n f).bist = s.bist := rfl
@[simp] theorem State.modMbox_power (s : State) (n : Nat) (f : Mailbox → Mailbox) : (s.modMbox n f).power = s.power := rfl

@[simp] theorem State.modMgmt_pending (s : State) (f : Mgmt → Mgmt) : (s.modMgmt f).pending = s.pending := rfl
@[simp] theorem State.modMgmt_now (s : State) (f : Mgmt → Mgmt) : (s.modMgmt f).now = s.now := rfl
@[simp] theorem State.modMgmt_free (s : State) (f : Mgmt → Mgmt) : (s.modMgmt f).free = s.free := rfl
@[simp] theorem State.modMgmt_part (s : State) (f : Mgmt → Mgmt) : (s.modMgmt f).part = s.part := rfl
@[simp] theorem State.modMgmt_ports (s : State) (f : Mgmt → Mgmt) : (s.modMgmt f).ports = s.ports := rfl
@[simp] theorem State.modMgmt_lanes (s : State) (f : Mgmt → Mgmt) : (s.modMgmt f).lanes = s.lanes := rfl
@[simp] theorem State.modMgmt_links (s : State) (f : Mgmt → Mgmt) : (s.modMgmt f).links = s.links := rfl
@[simp] theorem State.modMgmt_fabric (s : State) (f : Mgmt → Mgmt) : (s.modMgmt f).fabric = s.fabric := rfl
@[simp] theorem State.modMgmt_car (s : State) (f : Mgmt → Mgmt) : (s.modMgmt f).car = s.car := rfl
@[simp] theorem State.modMgmt_sched (s : State) (f : Mgmt → Mgmt) : (s.modMgmt f).sched = s.sched := rfl
@[simp] theorem State.modMgmt_parts (s : State) (f : Mgmt → Mgmt) : (s.modMgmt f).parts = s.parts := rfl
@[simp] theorem State.modMgmt_jug (s : State) (f : Mgmt → Mgmt) : (s.modMgmt f).jug = s.jug := rfl
@[simp] theorem State.modMgmt_pwA (s : State) (f : Mgmt → Mgmt) : (s.modMgmt f).pwA = s.pwA := rfl
@[simp] theorem State.modMgmt_pwB (s : State) (f : Mgmt → Mgmt) : (s.modMgmt f).pwB = s.pwB := rfl
@[simp] theorem State.modMgmt_sideband (s : State) (f : Mgmt → Mgmt) : (s.modMgmt f).sideband = s.sideband := rfl
@[simp] theorem State.modMgmt_slots (s : State) (f : Mgmt → Mgmt) : (s.modMgmt f).slots = s.slots := rfl
@[simp] theorem State.modMgmt_faults (s : State) (f : Mgmt → Mgmt) : (s.modMgmt f).faults = s.faults := rfl
@[simp] theorem State.modMgmt_bist (s : State) (f : Mgmt → Mgmt) : (s.modMgmt f).bist = s.bist := rfl
@[simp] theorem State.modMgmt_power (s : State) (f : Mgmt → Mgmt) : (s.modMgmt f).power = s.power := rfl

@[simp] theorem State.modFab_pending (s : State) (f : Fabric → Fabric) : (s.modFab f).pending = s.pending := rfl
@[simp] theorem State.modFab_now (s : State) (f : Fabric → Fabric) : (s.modFab f).now = s.now := rfl
@[simp] theorem State.modFab_free (s : State) (f : Fabric → Fabric) : (s.modFab f).free = s.free := rfl
@[simp] theorem State.modFab_part (s : State) (f : Fabric → Fabric) : (s.modFab f).part = s.part := rfl
@[simp] theorem State.modFab_mgmt (s : State) (f : Fabric → Fabric) : (s.modFab f).mgmt = s.mgmt := rfl
@[simp] theorem State.modFab_ports (s : State) (f : Fabric → Fabric) : (s.modFab f).ports = s.ports := rfl
@[simp] theorem State.modFab_lanes (s : State) (f : Fabric → Fabric) : (s.modFab f).lanes = s.lanes := rfl
@[simp] theorem State.modFab_links (s : State) (f : Fabric → Fabric) : (s.modFab f).links = s.links := rfl
@[simp] theorem State.modFab_car (s : State) (f : Fabric → Fabric) : (s.modFab f).car = s.car := rfl
@[simp] theorem State.modFab_sched (s : State) (f : Fabric → Fabric) : (s.modFab f).sched = s.sched := rfl
@[simp] theorem State.modFab_parts (s : State) (f : Fabric → Fabric) : (s.modFab f).parts = s.parts := rfl
@[simp] theorem State.modFab_jug (s : State) (f : Fabric → Fabric) : (s.modFab f).jug = s.jug := rfl
@[simp] theorem State.modFab_pwA (s : State) (f : Fabric → Fabric) : (s.modFab f).pwA = s.pwA := rfl
@[simp] theorem State.modFab_pwB (s : State) (f : Fabric → Fabric) : (s.modFab f).pwB = s.pwB := rfl
@[simp] theorem State.modFab_sideband (s : State) (f : Fabric → Fabric) : (s.modFab f).sideband = s.sideband := rfl
@[simp] theorem State.modFab_slots (s : State) (f : Fabric → Fabric) : (s.modFab f).slots = s.slots := rfl
@[simp] theorem State.modFab_faults (s : State) (f : Fabric → Fabric) : (s.modFab f).faults = s.faults := rfl
@[simp] theorem State.modFab_bist (s : State) (f : Fabric → Fabric) : (s.modFab f).bist = s.bist := rfl
@[simp] theorem State.modFab_power (s : State) (f : Fabric → Fabric) : (s.modFab f).power = s.power := rfl

@[simp] theorem State.modCar_pending (s : State) (f : Carousel → Carousel) : (s.modCar f).pending = s.pending := rfl
@[simp] theorem State.modCar_now (s : State) (f : Carousel → Carousel) : (s.modCar f).now = s.now := rfl
@[simp] theorem State.modCar_free (s : State) (f : Carousel → Carousel) : (s.modCar f).free = s.free := rfl
@[simp] theorem State.modCar_part (s : State) (f : Carousel → Carousel) : (s.modCar f).part = s.part := rfl
@[simp] theorem State.modCar_mgmt (s : State) (f : Carousel → Carousel) : (s.modCar f).mgmt = s.mgmt := rfl
@[simp] theorem State.modCar_ports (s : State) (f : Carousel → Carousel) : (s.modCar f).ports = s.ports := rfl
@[simp] theorem State.modCar_lanes (s : State) (f : Carousel → Carousel) : (s.modCar f).lanes = s.lanes := rfl
@[simp] theorem State.modCar_links (s : State) (f : Carousel → Carousel) : (s.modCar f).links = s.links := rfl
@[simp] theorem State.modCar_fabric (s : State) (f : Carousel → Carousel) : (s.modCar f).fabric = s.fabric := rfl
@[simp] theorem State.modCar_sched (s : State) (f : Carousel → Carousel) : (s.modCar f).sched = s.sched := rfl
@[simp] theorem State.modCar_parts (s : State) (f : Carousel → Carousel) : (s.modCar f).parts = s.parts := rfl
@[simp] theorem State.modCar_jug (s : State) (f : Carousel → Carousel) : (s.modCar f).jug = s.jug := rfl
@[simp] theorem State.modCar_pwA (s : State) (f : Carousel → Carousel) : (s.modCar f).pwA = s.pwA := rfl
@[simp] theorem State.modCar_pwB (s : State) (f : Carousel → Carousel) : (s.modCar f).pwB = s.pwB := rfl
@[simp] theorem State.modCar_sideband (s : State) (f : Carousel → Carousel) : (s.modCar f).sideband = s.sideband := rfl
@[simp] theorem State.modCar_slots (s : State) (f : Carousel → Carousel) : (s.modCar f).slots = s.slots := rfl
@[simp] theorem State.modCar_faults (s : State) (f : Carousel → Carousel) : (s.modCar f).faults = s.faults := rfl
@[simp] theorem State.modCar_bist (s : State) (f : Carousel → Carousel) : (s.modCar f).bist = s.bist := rfl
@[simp] theorem State.modCar_power (s : State) (f : Carousel → Carousel) : (s.modCar f).power = s.power := rfl

@[simp] theorem State.modFaults_pending (s : State) (f : Faults → Faults) : (s.modFaults f).pending = s.pending := rfl
@[simp] theorem State.modFaults_now (s : State) (f : Faults → Faults) : (s.modFaults f).now = s.now := rfl
@[simp] theorem State.modFaults_free (s : State) (f : Faults → Faults) : (s.modFaults f).free = s.free := rfl
@[simp] theorem State.modFaults_part (s : State) (f : Faults → Faults) : (s.modFaults f).part = s.part := rfl
@[simp] theorem State.modFaults_mgmt (s : State) (f : Faults → Faults) : (s.modFaults f).mgmt = s.mgmt := rfl
@[simp] theorem State.modFaults_ports (s : State) (f : Faults → Faults) : (s.modFaults f).ports = s.ports := rfl
@[simp] theorem State.modFaults_lanes (s : State) (f : Faults → Faults) : (s.modFaults f).lanes = s.lanes := rfl
@[simp] theorem State.modFaults_links (s : State) (f : Faults → Faults) : (s.modFaults f).links = s.links := rfl
@[simp] theorem State.modFaults_fabric (s : State) (f : Faults → Faults) : (s.modFaults f).fabric = s.fabric := rfl
@[simp] theorem State.modFaults_car (s : State) (f : Faults → Faults) : (s.modFaults f).car = s.car := rfl
@[simp] theorem State.modFaults_sched (s : State) (f : Faults → Faults) : (s.modFaults f).sched = s.sched := rfl
@[simp] theorem State.modFaults_parts (s : State) (f : Faults → Faults) : (s.modFaults f).parts = s.parts := rfl
@[simp] theorem State.modFaults_jug (s : State) (f : Faults → Faults) : (s.modFaults f).jug = s.jug := rfl
@[simp] theorem State.modFaults_pwA (s : State) (f : Faults → Faults) : (s.modFaults f).pwA = s.pwA := rfl
@[simp] theorem State.modFaults_pwB (s : State) (f : Faults → Faults) : (s.modFaults f).pwB = s.pwB := rfl
@[simp] theorem State.modFaults_sideband (s : State) (f : Faults → Faults) : (s.modFaults f).sideband = s.sideband := rfl
@[simp] theorem State.modFaults_slots (s : State) (f : Faults → Faults) : (s.modFaults f).slots = s.slots := rfl
@[simp] theorem State.modFaults_bist (s : State) (f : Faults → Faults) : (s.modFaults f).bist = s.bist := rfl
@[simp] theorem State.modFaults_power (s : State) (f : Faults → Faults) : (s.modFaults f).power = s.power := rfl

@[simp] theorem State.modPower_pending (s : State) (f : Power → Power) : (s.modPower f).pending = s.pending := rfl
@[simp] theorem State.modPower_now (s : State) (f : Power → Power) : (s.modPower f).now = s.now := rfl
@[simp] theorem State.modPower_free (s : State) (f : Power → Power) : (s.modPower f).free = s.free := rfl
@[simp] theorem State.modPower_part (s : State) (f : Power → Power) : (s.modPower f).part = s.part := rfl
@[simp] theorem State.modPower_mgmt (s : State) (f : Power → Power) : (s.modPower f).mgmt = s.mgmt := rfl
@[simp] theorem State.modPower_ports (s : State) (f : Power → Power) : (s.modPower f).ports = s.ports := rfl
@[simp] theorem State.modPower_lanes (s : State) (f : Power → Power) : (s.modPower f).lanes = s.lanes := rfl
@[simp] theorem State.modPower_links (s : State) (f : Power → Power) : (s.modPower f).links = s.links := rfl
@[simp] theorem State.modPower_fabric (s : State) (f : Power → Power) : (s.modPower f).fabric = s.fabric := rfl
@[simp] theorem State.modPower_car (s : State) (f : Power → Power) : (s.modPower f).car = s.car := rfl
@[simp] theorem State.modPower_sched (s : State) (f : Power → Power) : (s.modPower f).sched = s.sched := rfl
@[simp] theorem State.modPower_parts (s : State) (f : Power → Power) : (s.modPower f).parts = s.parts := rfl
@[simp] theorem State.modPower_jug (s : State) (f : Power → Power) : (s.modPower f).jug = s.jug := rfl
@[simp] theorem State.modPower_pwA (s : State) (f : Power → Power) : (s.modPower f).pwA = s.pwA := rfl
@[simp] theorem State.modPower_pwB (s : State) (f : Power → Power) : (s.modPower f).pwB = s.pwB := rfl
@[simp] theorem State.modPower_sideband (s : State) (f : Power → Power) : (s.modPower f).sideband = s.sideband := rfl
@[simp] theorem State.modPower_slots (s : State) (f : Power → Power) : (s.modPower f).slots = s.slots := rfl
@[simp] theorem State.modPower_faults (s : State) (f : Power → Power) : (s.modPower f).faults = s.faults := rfl
@[simp] theorem State.modPower_bist (s : State) (f : Power → Power) : (s.modPower f).bist = s.bist := rfl

@[simp] theorem State.modSlots_pending (s : State) (f : Slots → Slots) : (s.modSlots f).pending = s.pending := rfl
@[simp] theorem State.modSlots_now (s : State) (f : Slots → Slots) : (s.modSlots f).now = s.now := rfl
@[simp] theorem State.modSlots_free (s : State) (f : Slots → Slots) : (s.modSlots f).free = s.free := rfl
@[simp] theorem State.modSlots_part (s : State) (f : Slots → Slots) : (s.modSlots f).part = s.part := rfl
@[simp] theorem State.modSlots_mgmt (s : State) (f : Slots → Slots) : (s.modSlots f).mgmt = s.mgmt := rfl
@[simp] theorem State.modSlots_ports (s : State) (f : Slots → Slots) : (s.modSlots f).ports = s.ports := rfl
@[simp] theorem State.modSlots_lanes (s : State) (f : Slots → Slots) : (s.modSlots f).lanes = s.lanes := rfl
@[simp] theorem State.modSlots_links (s : State) (f : Slots → Slots) : (s.modSlots f).links = s.links := rfl
@[simp] theorem State.modSlots_fabric (s : State) (f : Slots → Slots) : (s.modSlots f).fabric = s.fabric := rfl
@[simp] theorem State.modSlots_car (s : State) (f : Slots → Slots) : (s.modSlots f).car = s.car := rfl
@[simp] theorem State.modSlots_sched (s : State) (f : Slots → Slots) : (s.modSlots f).sched = s.sched := rfl
@[simp] theorem State.modSlots_parts (s : State) (f : Slots → Slots) : (s.modSlots f).parts = s.parts := rfl
@[simp] theorem State.modSlots_jug (s : State) (f : Slots → Slots) : (s.modSlots f).jug = s.jug := rfl
@[simp] theorem State.modSlots_pwA (s : State) (f : Slots → Slots) : (s.modSlots f).pwA = s.pwA := rfl
@[simp] theorem State.modSlots_pwB (s : State) (f : Slots → Slots) : (s.modSlots f).pwB = s.pwB := rfl
@[simp] theorem State.modSlots_sideband (s : State) (f : Slots → Slots) : (s.modSlots f).sideband = s.sideband := rfl
@[simp] theorem State.modSlots_faults (s : State) (f : Slots → Slots) : (s.modSlots f).faults = s.faults := rfl
@[simp] theorem State.modSlots_bist (s : State) (f : Slots → Slots) : (s.modSlots f).bist = s.bist := rfl
@[simp] theorem State.modSlots_power (s : State) (f : Slots → Slots) : (s.modSlots f).power = s.power := rfl

@[simp] theorem State.modBist_pending (s : State) (f : Bist → Bist) : (s.modBist f).pending = s.pending := rfl
@[simp] theorem State.modBist_now (s : State) (f : Bist → Bist) : (s.modBist f).now = s.now := rfl
@[simp] theorem State.modBist_free (s : State) (f : Bist → Bist) : (s.modBist f).free = s.free := rfl
@[simp] theorem State.modBist_part (s : State) (f : Bist → Bist) : (s.modBist f).part = s.part := rfl
@[simp] theorem State.modBist_mgmt (s : State) (f : Bist → Bist) : (s.modBist f).mgmt = s.mgmt := rfl
@[simp] theorem State.modBist_ports (s : State) (f : Bist → Bist) : (s.modBist f).ports = s.ports := rfl
@[simp] theorem State.modBist_lanes (s : State) (f : Bist → Bist) : (s.modBist f).lanes = s.lanes := rfl
@[simp] theorem State.modBist_links (s : State) (f : Bist → Bist) : (s.modBist f).links = s.links := rfl
@[simp] theorem State.modBist_fabric (s : State) (f : Bist → Bist) : (s.modBist f).fabric = s.fabric := rfl
@[simp] theorem State.modBist_car (s : State) (f : Bist → Bist) : (s.modBist f).car = s.car := rfl
@[simp] theorem State.modBist_sched (s : State) (f : Bist → Bist) : (s.modBist f).sched = s.sched := rfl
@[simp] theorem State.modBist_parts (s : State) (f : Bist → Bist) : (s.modBist f).parts = s.parts := rfl
@[simp] theorem State.modBist_jug (s : State) (f : Bist → Bist) : (s.modBist f).jug = s.jug := rfl
@[simp] theorem State.modBist_pwA (s : State) (f : Bist → Bist) : (s.modBist f).pwA = s.pwA := rfl
@[simp] theorem State.modBist_pwB (s : State) (f : Bist → Bist) : (s.modBist f).pwB = s.pwB := rfl
@[simp] theorem State.modBist_sideband (s : State) (f : Bist → Bist) : (s.modBist f).sideband = s.sideband := rfl
@[simp] theorem State.modBist_slots (s : State) (f : Bist → Bist) : (s.modBist f).slots = s.slots := rfl
@[simp] theorem State.modBist_faults (s : State) (f : Bist → Bist) : (s.modBist f).faults = s.faults := rfl
@[simp] theorem State.modBist_power (s : State) (f : Bist → Bist) : (s.modBist f).power = s.power := rfl

@[simp] theorem State.modParts_pending (s : State) (f : Partitions → Partitions) : (s.modParts f).pending = s.pending := rfl
@[simp] theorem State.modParts_now (s : State) (f : Partitions → Partitions) : (s.modParts f).now = s.now := rfl
@[simp] theorem State.modParts_free (s : State) (f : Partitions → Partitions) : (s.modParts f).free = s.free := rfl
@[simp] theorem State.modParts_part (s : State) (f : Partitions → Partitions) : (s.modParts f).part = s.part := rfl
@[simp] theorem State.modParts_mgmt (s : State) (f : Partitions → Partitions) : (s.modParts f).mgmt = s.mgmt := rfl
@[simp] theorem State.modParts_ports (s : State) (f : Partitions → Partitions) : (s.modParts f).ports = s.ports := rfl
@[simp] theorem State.modParts_lanes (s : State) (f : Partitions → Partitions) : (s.modParts f).lanes = s.lanes := rfl
@[simp] theorem State.modParts_links (s : State) (f : Partitions → Partitions) : (s.modParts f).links = s.links := rfl
@[simp] theorem State.modParts_fabric (s : State) (f : Partitions → Partitions) : (s.modParts f).fabric = s.fabric := rfl
@[simp] theorem State.modParts_car (s : State) (f : Partitions → Partitions) : (s.modParts f).car = s.car := rfl
@[simp] theorem State.modParts_sched (s : State) (f : Partitions → Partitions) : (s.modParts f).sched = s.sched := rfl
@[simp] theorem State.modParts_jug (s : State) (f : Partitions → Partitions) : (s.modParts f).jug = s.jug := rfl
@[simp] theorem State.modParts_pwA (s : State) (f : Partitions → Partitions) : (s.modParts f).pwA = s.pwA := rfl
@[simp] theorem State.modParts_pwB (s : State) (f : Partitions → Partitions) : (s.modParts f).pwB = s.pwB := rfl
@[simp] theorem State.modParts_sideband (s : State) (f : Partitions → Partitions) : (s.modParts f).sideband = s.sideband := rfl
@[simp] theorem State.modParts_slots (s : State) (f : Partitions → Partitions) : (s.modParts f).slots = s.slots := rfl
@[simp] theorem State.modParts_faults (s : State) (f : Partitions → Partitions) : (s.modParts f).faults = s.faults := rfl
@[simp] theorem State.modParts_bist (s : State) (f : Partitions → Partitions) : (s.modParts f).bist = s.bist := rfl
@[simp] theorem State.modParts_power (s : State) (f : Partitions → Partitions) : (s.modParts f).power = s.power := rfl

@[simp] theorem State.modJug_pending (s : State) (f : Jugglers → Jugglers) : (s.modJug f).pending = s.pending := rfl
@[simp] theorem State.modJug_now (s : State) (f : Jugglers → Jugglers) : (s.modJug f).now = s.now := rfl
@[simp] theorem State.modJug_free (s : State) (f : Jugglers → Jugglers) : (s.modJug f).free = s.free := rfl
@[simp] theorem State.modJug_part (s : State) (f : Jugglers → Jugglers) : (s.modJug f).part = s.part := rfl
@[simp] theorem State.modJug_mgmt (s : State) (f : Jugglers → Jugglers) : (s.modJug f).mgmt = s.mgmt := rfl
@[simp] theorem State.modJug_ports (s : State) (f : Jugglers → Jugglers) : (s.modJug f).ports = s.ports := rfl
@[simp] theorem State.modJug_lanes (s : State) (f : Jugglers → Jugglers) : (s.modJug f).lanes = s.lanes := rfl
@[simp] theorem State.modJug_links (s : State) (f : Jugglers → Jugglers) : (s.modJug f).links = s.links := rfl
@[simp] theorem State.modJug_fabric (s : State) (f : Jugglers → Jugglers) : (s.modJug f).fabric = s.fabric := rfl
@[simp] theorem State.modJug_car (s : State) (f : Jugglers → Jugglers) : (s.modJug f).car = s.car := rfl
@[simp] theorem State.modJug_sched (s : State) (f : Jugglers → Jugglers) : (s.modJug f).sched = s.sched := rfl
@[simp] theorem State.modJug_parts (s : State) (f : Jugglers → Jugglers) : (s.modJug f).parts = s.parts := rfl
@[simp] theorem State.modJug_pwA (s : State) (f : Jugglers → Jugglers) : (s.modJug f).pwA = s.pwA := rfl
@[simp] theorem State.modJug_pwB (s : State) (f : Jugglers → Jugglers) : (s.modJug f).pwB = s.pwB := rfl
@[simp] theorem State.modJug_sideband (s : State) (f : Jugglers → Jugglers) : (s.modJug f).sideband = s.sideband := rfl
@[simp] theorem State.modJug_slots (s : State) (f : Jugglers → Jugglers) : (s.modJug f).slots = s.slots := rfl
@[simp] theorem State.modJug_faults (s : State) (f : Jugglers → Jugglers) : (s.modJug f).faults = s.faults := rfl
@[simp] theorem State.modJug_bist (s : State) (f : Jugglers → Jugglers) : (s.modJug f).bist = s.bist := rfl
@[simp] theorem State.modJug_power (s : State) (f : Jugglers → Jugglers) : (s.modJug f).power = s.power := rfl

@[simp] theorem State.modSched_pending (s : State) (p : Nat) (f : Sched → Sched) : (s.modSched p f).pending = s.pending := rfl
@[simp] theorem State.modSched_now (s : State) (p : Nat) (f : Sched → Sched) : (s.modSched p f).now = s.now := rfl
@[simp] theorem State.modSched_free (s : State) (p : Nat) (f : Sched → Sched) : (s.modSched p f).free = s.free := rfl
@[simp] theorem State.modSched_part (s : State) (p : Nat) (f : Sched → Sched) : (s.modSched p f).part = s.part := rfl
@[simp] theorem State.modSched_mgmt (s : State) (p : Nat) (f : Sched → Sched) : (s.modSched p f).mgmt = s.mgmt := rfl
@[simp] theorem State.modSched_ports (s : State) (p : Nat) (f : Sched → Sched) : (s.modSched p f).ports = s.ports := rfl
@[simp] theorem State.modSched_lanes (s : State) (p : Nat) (f : Sched → Sched) : (s.modSched p f).lanes = s.lanes := rfl
@[simp] theorem State.modSched_links (s : State) (p : Nat) (f : Sched → Sched) : (s.modSched p f).links = s.links := rfl
@[simp] theorem State.modSched_fabric (s : State) (p : Nat) (f : Sched → Sched) : (s.modSched p f).fabric = s.fabric := rfl
@[simp] theorem State.modSched_car (s : State) (p : Nat) (f : Sched → Sched) : (s.modSched p f).car = s.car := rfl
@[simp] theorem State.modSched_parts (s : State) (p : Nat) (f : Sched → Sched) : (s.modSched p f).parts = s.parts := rfl
@[simp] theorem State.modSched_jug (s : State) (p : Nat) (f : Sched → Sched) : (s.modSched p f).jug = s.jug := rfl
@[simp] theorem State.modSched_pwA (s : State) (p : Nat) (f : Sched → Sched) : (s.modSched p f).pwA = s.pwA := rfl
@[simp] theorem State.modSched_pwB (s : State) (p : Nat) (f : Sched → Sched) : (s.modSched p f).pwB = s.pwB := rfl
@[simp] theorem State.modSched_sideband (s : State) (p : Nat) (f : Sched → Sched) : (s.modSched p f).sideband = s.sideband := rfl
@[simp] theorem State.modSched_slots (s : State) (p : Nat) (f : Sched → Sched) : (s.modSched p f).slots = s.slots := rfl
@[simp] theorem State.modSched_faults (s : State) (p : Nat) (f : Sched → Sched) : (s.modSched p f).faults = s.faults := rfl
@[simp] theorem State.modSched_bist (s : State) (p : Nat) (f : Sched → Sched) : (s.modSched p f).bist = s.bist := rfl
@[simp] theorem State.modSched_power (s : State) (p : Nat) (f : Sched → Sched) : (s.modSched p f).power = s.power := rfl

@[simp] theorem State.modJuggler_pending (s : State) (j : Nat) (f : Juggler → Juggler) : (s.modJuggler j f).pending = s.pending := rfl
@[simp] theorem State.modJuggler_now (s : State) (j : Nat) (f : Juggler → Juggler) : (s.modJuggler j f).now = s.now := rfl
@[simp] theorem State.modJuggler_free (s : State) (j : Nat) (f : Juggler → Juggler) : (s.modJuggler j f).free = s.free := rfl
@[simp] theorem State.modJuggler_part (s : State) (j : Nat) (f : Juggler → Juggler) : (s.modJuggler j f).part = s.part := rfl
@[simp] theorem State.modJuggler_mgmt (s : State) (j : Nat) (f : Juggler → Juggler) : (s.modJuggler j f).mgmt = s.mgmt := rfl
@[simp] theorem State.modJuggler_ports (s : State) (j : Nat) (f : Juggler → Juggler) : (s.modJuggler j f).ports = s.ports := rfl
@[simp] theorem State.modJuggler_lanes (s : State) (j : Nat) (f : Juggler → Juggler) : (s.modJuggler j f).lanes = s.lanes := rfl
@[simp] theorem State.modJuggler_links (s : State) (j : Nat) (f : Juggler → Juggler) : (s.modJuggler j f).links = s.links := rfl
@[simp] theorem State.modJuggler_fabric (s : State) (j : Nat) (f : Juggler → Juggler) : (s.modJuggler j f).fabric = s.fabric := rfl
@[simp] theorem State.modJuggler_car (s : State) (j : Nat) (f : Juggler → Juggler) : (s.modJuggler j f).car = s.car := rfl
@[simp] theorem State.modJuggler_sched (s : State) (j : Nat) (f : Juggler → Juggler) : (s.modJuggler j f).sched = s.sched := rfl
@[simp] theorem State.modJuggler_parts (s : State) (j : Nat) (f : Juggler → Juggler) : (s.modJuggler j f).parts = s.parts := rfl
@[simp] theorem State.modJuggler_pwA (s : State) (j : Nat) (f : Juggler → Juggler) : (s.modJuggler j f).pwA = s.pwA := rfl
@[simp] theorem State.modJuggler_pwB (s : State) (j : Nat) (f : Juggler → Juggler) : (s.modJuggler j f).pwB = s.pwB := rfl
@[simp] theorem State.modJuggler_sideband (s : State) (j : Nat) (f : Juggler → Juggler) : (s.modJuggler j f).sideband = s.sideband := rfl
@[simp] theorem State.modJuggler_slots (s : State) (j : Nat) (f : Juggler → Juggler) : (s.modJuggler j f).slots = s.slots := rfl
@[simp] theorem State.modJuggler_faults (s : State) (j : Nat) (f : Juggler → Juggler) : (s.modJuggler j f).faults = s.faults := rfl
@[simp] theorem State.modJuggler_bist (s : State) (j : Nat) (f : Juggler → Juggler) : (s.modJuggler j f).bist = s.bist := rfl
@[simp] theorem State.modJuggler_power (s : State) (j : Nat) (f : Juggler → Juggler) : (s.modJuggler j f).power = s.power := rfl

@[simp] theorem State.modChan_pending (s : State) (c : Nat) (f : Chan → Chan) : (s.modChan c f).pending = s.pending := rfl
@[simp] theorem State.modChan_now (s : State) (c : Nat) (f : Chan → Chan) : (s.modChan c f).now = s.now := rfl
@[simp] theorem State.modChan_free (s : State) (c : Nat) (f : Chan → Chan) : (s.modChan c f).free = s.free := rfl
@[simp] theorem State.modChan_part (s : State) (c : Nat) (f : Chan → Chan) : (s.modChan c f).part = s.part := rfl
@[simp] theorem State.modChan_mgmt (s : State) (c : Nat) (f : Chan → Chan) : (s.modChan c f).mgmt = s.mgmt := rfl
@[simp] theorem State.modChan_ports (s : State) (c : Nat) (f : Chan → Chan) : (s.modChan c f).ports = s.ports := rfl
@[simp] theorem State.modChan_lanes (s : State) (c : Nat) (f : Chan → Chan) : (s.modChan c f).lanes = s.lanes := rfl
@[simp] theorem State.modChan_links (s : State) (c : Nat) (f : Chan → Chan) : (s.modChan c f).links = s.links := rfl
@[simp] theorem State.modChan_fabric (s : State) (c : Nat) (f : Chan → Chan) : (s.modChan c f).fabric = s.fabric := rfl
@[simp] theorem State.modChan_car (s : State) (c : Nat) (f : Chan → Chan) : (s.modChan c f).car = s.car := rfl
@[simp] theorem State.modChan_sched (s : State) (c : Nat) (f : Chan → Chan) : (s.modChan c f).sched = s.sched := rfl
@[simp] theorem State.modChan_parts (s : State) (c : Nat) (f : Chan → Chan) : (s.modChan c f).parts = s.parts := rfl
@[simp] theorem State.modChan_jug (s : State) (c : Nat) (f : Chan → Chan) : (s.modChan c f).jug = s.jug := rfl
@[simp] theorem State.modChan_pwA (s : State) (c : Nat) (f : Chan → Chan) : (s.modChan c f).pwA = s.pwA := rfl
@[simp] theorem State.modChan_pwB (s : State) (c : Nat) (f : Chan → Chan) : (s.modChan c f).pwB = s.pwB := rfl
@[simp] theorem State.modChan_sideband (s : State) (c : Nat) (f : Chan → Chan) : (s.modChan c f).sideband = s.sideband := rfl
@[simp] theorem State.modChan_faults (s : State) (c : Nat) (f : Chan → Chan) : (s.modChan c f).faults = s.faults := rfl
@[simp] theorem State.modChan_bist (s : State) (c : Nat) (f : Chan → Chan) : (s.modChan c f).bist = s.bist := rfl
@[simp] theorem State.modChan_power (s : State) (c : Nat) (f : Chan → Chan) : (s.modChan c f).power = s.power := rfl

@[simp] theorem State.modMid_pending (s : State) (m : Nat) (f : MidBuf → MidBuf) : (s.modMid m f).pending = s.pending := rfl
@[simp] theorem State.modMid_now (s : State) (m : Nat) (f : MidBuf → MidBuf) : (s.modMid m f).now = s.now := rfl
@[simp] theorem State.modMid_free (s : State) (m : Nat) (f : MidBuf → MidBuf) : (s.modMid m f).free = s.free := rfl
@[simp] theorem State.modMid_part (s : State) (m : Nat) (f : MidBuf → MidBuf) : (s.modMid m f).part = s.part := rfl
@[simp] theorem State.modMid_mgmt (s : State) (m : Nat) (f : MidBuf → MidBuf) : (s.modMid m f).mgmt = s.mgmt := rfl
@[simp] theorem State.modMid_ports (s : State) (m : Nat) (f : MidBuf → MidBuf) : (s.modMid m f).ports = s.ports := rfl
@[simp] theorem State.modMid_lanes (s : State) (m : Nat) (f : MidBuf → MidBuf) : (s.modMid m f).lanes = s.lanes := rfl
@[simp] theorem State.modMid_links (s : State) (m : Nat) (f : MidBuf → MidBuf) : (s.modMid m f).links = s.links := rfl
@[simp] theorem State.modMid_fabric (s : State) (m : Nat) (f : MidBuf → MidBuf) : (s.modMid m f).fabric = s.fabric := rfl
@[simp] theorem State.modMid_sched (s : State) (m : Nat) (f : MidBuf → MidBuf) : (s.modMid m f).sched = s.sched := rfl
@[simp] theorem State.modMid_parts (s : State) (m : Nat) (f : MidBuf → MidBuf) : (s.modMid m f).parts = s.parts := rfl
@[simp] theorem State.modMid_jug (s : State) (m : Nat) (f : MidBuf → MidBuf) : (s.modMid m f).jug = s.jug := rfl
@[simp] theorem State.modMid_pwA (s : State) (m : Nat) (f : MidBuf → MidBuf) : (s.modMid m f).pwA = s.pwA := rfl
@[simp] theorem State.modMid_pwB (s : State) (m : Nat) (f : MidBuf → MidBuf) : (s.modMid m f).pwB = s.pwB := rfl
@[simp] theorem State.modMid_sideband (s : State) (m : Nat) (f : MidBuf → MidBuf) : (s.modMid m f).sideband = s.sideband := rfl
@[simp] theorem State.modMid_slots (s : State) (m : Nat) (f : MidBuf → MidBuf) : (s.modMid m f).slots = s.slots := rfl
@[simp] theorem State.modMid_faults (s : State) (m : Nat) (f : MidBuf → MidBuf) : (s.modMid m f).faults = s.faults := rfl
@[simp] theorem State.modMid_bist (s : State) (m : Nat) (f : MidBuf → MidBuf) : (s.modMid m f).bist = s.bist := rfl
@[simp] theorem State.modMid_power (s : State) (m : Nat) (f : MidBuf → MidBuf) : (s.modMid m f).power = s.power := rfl

@[simp] theorem State.setFrame_pending (s : State) (u : Nat) (r : Option FrameRec) : (s.setFrame u r).pending = s.pending := rfl
@[simp] theorem State.setFrame_now (s : State) (u : Nat) (r : Option FrameRec) : (s.setFrame u r).now = s.now := rfl
@[simp] theorem State.setFrame_free (s : State) (u : Nat) (r : Option FrameRec) : (s.setFrame u r).free = s.free := rfl
@[simp] theorem State.setFrame_part (s : State) (u : Nat) (r : Option FrameRec) : (s.setFrame u r).part = s.part := rfl
@[simp] theorem State.setFrame_mgmt (s : State) (u : Nat) (r : Option FrameRec) : (s.setFrame u r).mgmt = s.mgmt := rfl
@[simp] theorem State.setFrame_ports (s : State) (u : Nat) (r : Option FrameRec) : (s.setFrame u r).ports = s.ports := rfl
@[simp] theorem State.setFrame_lanes (s : State) (u : Nat) (r : Option FrameRec) : (s.setFrame u r).lanes = s.lanes := rfl
@[simp] theorem State.setFrame_links (s : State) (u : Nat) (r : Option FrameRec) : (s.setFrame u r).links = s.links := rfl
@[simp] theorem State.setFrame_fabric (s : State) (u : Nat) (r : Option FrameRec) : (s.setFrame u r).fabric = s.fabric := rfl
@[simp] theorem State.setFrame_sched (s : State) (u : Nat) (r : Option FrameRec) : (s.setFrame u r).sched = s.sched := rfl
@[simp] theorem State.setFrame_parts (s : State) (u : Nat) (r : Option FrameRec) : (s.setFrame u r).parts = s.parts := rfl
@[simp] theorem State.setFrame_jug (s : State) (u : Nat) (r : Option FrameRec) : (s.setFrame u r).jug = s.jug := rfl
@[simp] theorem State.setFrame_pwA (s : State) (u : Nat) (r : Option FrameRec) : (s.setFrame u r).pwA = s.pwA := rfl
@[simp] theorem State.setFrame_pwB (s : State) (u : Nat) (r : Option FrameRec) : (s.setFrame u r).pwB = s.pwB := rfl
@[simp] theorem State.setFrame_sideband (s : State) (u : Nat) (r : Option FrameRec) : (s.setFrame u r).sideband = s.sideband := rfl
@[simp] theorem State.setFrame_slots (s : State) (u : Nat) (r : Option FrameRec) : (s.setFrame u r).slots = s.slots := rfl
@[simp] theorem State.setFrame_faults (s : State) (u : Nat) (r : Option FrameRec) : (s.setFrame u r).faults = s.faults := rfl
@[simp] theorem State.setFrame_bist (s : State) (u : Nat) (r : Option FrameRec) : (s.setFrame u r).bist = s.bist := rfl
@[simp] theorem State.setFrame_power (s : State) (u : Nat) (r : Option FrameRec) : (s.setFrame u r).power = s.power := rfl

@[simp] theorem State.countFab_pending (s : State) (q : Nat) (f : FabricCounters → FabricCounters) : (s.countFab q f).pending = s.pending := rfl
@[simp] theorem State.countFab_now (s : State) (q : Nat) (f : FabricCounters → FabricCounters) : (s.countFab q f).now = s.now := rfl
@[simp] theorem State.countFab_free (s : State) (q : Nat) (f : FabricCounters → FabricCounters) : (s.countFab q f).free = s.free := rfl
@[simp] theorem State.countFab_part (s : State) (q : Nat) (f : FabricCounters → FabricCounters) : (s.countFab q f).part = s.part := rfl
@[simp] theorem State.countFab_mgmt (s : State) (q : Nat) (f : FabricCounters → FabricCounters) : (s.countFab q f).mgmt = s.mgmt := rfl
@[simp] theorem State.countFab_ports (s : State) (q : Nat) (f : FabricCounters → FabricCounters) : (s.countFab q f).ports = s.ports := rfl
@[simp] theorem State.countFab_lanes (s : State) (q : Nat) (f : FabricCounters → FabricCounters) : (s.countFab q f).lanes = s.lanes := rfl
@[simp] theorem State.countFab_links (s : State) (q : Nat) (f : FabricCounters → FabricCounters) : (s.countFab q f).links = s.links := rfl
@[simp] theorem State.countFab_car (s : State) (q : Nat) (f : FabricCounters → FabricCounters) : (s.countFab q f).car = s.car := rfl
@[simp] theorem State.countFab_sched (s : State) (q : Nat) (f : FabricCounters → FabricCounters) : (s.countFab q f).sched = s.sched := rfl
@[simp] theorem State.countFab_parts (s : State) (q : Nat) (f : FabricCounters → FabricCounters) : (s.countFab q f).parts = s.parts := rfl
@[simp] theorem State.countFab_jug (s : State) (q : Nat) (f : FabricCounters → FabricCounters) : (s.countFab q f).jug = s.jug := rfl
@[simp] theorem State.countFab_pwA (s : State) (q : Nat) (f : FabricCounters → FabricCounters) : (s.countFab q f).pwA = s.pwA := rfl
@[simp] theorem State.countFab_pwB (s : State) (q : Nat) (f : FabricCounters → FabricCounters) : (s.countFab q f).pwB = s.pwB := rfl
@[simp] theorem State.countFab_sideband (s : State) (q : Nat) (f : FabricCounters → FabricCounters) : (s.countFab q f).sideband = s.sideband := rfl
@[simp] theorem State.countFab_slots (s : State) (q : Nat) (f : FabricCounters → FabricCounters) : (s.countFab q f).slots = s.slots := rfl
@[simp] theorem State.countFab_faults (s : State) (q : Nat) (f : FabricCounters → FabricCounters) : (s.countFab q f).faults = s.faults := rfl
@[simp] theorem State.countFab_bist (s : State) (q : Nat) (f : FabricCounters → FabricCounters) : (s.countFab q f).bist = s.bist := rfl
@[simp] theorem State.countFab_power (s : State) (q : Nat) (f : FabricCounters → FabricCounters) : (s.countFab q f).power = s.power := rfl

@[simp] theorem State.countCar_pending (s : State) (q : Nat) (f : CarouselCounters → CarouselCounters) : (s.countCar q f).pending = s.pending := rfl
@[simp] theorem State.countCar_now (s : State) (q : Nat) (f : CarouselCounters → CarouselCounters) : (s.countCar q f).now = s.now := rfl
@[simp] theorem State.countCar_free (s : State) (q : Nat) (f : CarouselCounters → CarouselCounters) : (s.countCar q f).free = s.free := rfl
@[simp] theorem State.countCar_part (s : State) (q : Nat) (f : CarouselCounters → CarouselCounters) : (s.countCar q f).part = s.part := rfl
@[simp] theorem State.countCar_mgmt (s : State) (q : Nat) (f : CarouselCounters → CarouselCounters) : (s.countCar q f).mgmt = s.mgmt := rfl
@[simp] theorem State.countCar_ports (s : State) (q : Nat) (f : CarouselCounters → CarouselCounters) : (s.countCar q f).ports = s.ports := rfl
@[simp] theorem State.countCar_lanes (s : State) (q : Nat) (f : CarouselCounters → CarouselCounters) : (s.countCar q f).lanes = s.lanes := rfl
@[simp] theorem State.countCar_links (s : State) (q : Nat) (f : CarouselCounters → CarouselCounters) : (s.countCar q f).links = s.links := rfl
@[simp] theorem State.countCar_fabric (s : State) (q : Nat) (f : CarouselCounters → CarouselCounters) : (s.countCar q f).fabric = s.fabric := rfl
@[simp] theorem State.countCar_sched (s : State) (q : Nat) (f : CarouselCounters → CarouselCounters) : (s.countCar q f).sched = s.sched := rfl
@[simp] theorem State.countCar_parts (s : State) (q : Nat) (f : CarouselCounters → CarouselCounters) : (s.countCar q f).parts = s.parts := rfl
@[simp] theorem State.countCar_jug (s : State) (q : Nat) (f : CarouselCounters → CarouselCounters) : (s.countCar q f).jug = s.jug := rfl
@[simp] theorem State.countCar_pwA (s : State) (q : Nat) (f : CarouselCounters → CarouselCounters) : (s.countCar q f).pwA = s.pwA := rfl
@[simp] theorem State.countCar_pwB (s : State) (q : Nat) (f : CarouselCounters → CarouselCounters) : (s.countCar q f).pwB = s.pwB := rfl
@[simp] theorem State.countCar_sideband (s : State) (q : Nat) (f : CarouselCounters → CarouselCounters) : (s.countCar q f).sideband = s.sideband := rfl
@[simp] theorem State.countCar_slots (s : State) (q : Nat) (f : CarouselCounters → CarouselCounters) : (s.countCar q f).slots = s.slots := rfl
@[simp] theorem State.countCar_faults (s : State) (q : Nat) (f : CarouselCounters → CarouselCounters) : (s.countCar q f).faults = s.faults := rfl
@[simp] theorem State.countCar_bist (s : State) (q : Nat) (f : CarouselCounters → CarouselCounters) : (s.countCar q f).bist = s.bist := rfl
@[simp] theorem State.countCar_power (s : State) (q : Nat) (f : CarouselCounters → CarouselCounters) : (s.countCar q f).power = s.power := rfl

@[simp] theorem State.countPart_pending (s : State) (q : Nat) (f : PartCounters → PartCounters) : (s.countPart q f).pending = s.pending := rfl
@[simp] theorem State.countPart_now (s : State) (q : Nat) (f : PartCounters → PartCounters) : (s.countPart q f).now = s.now := rfl
@[simp] theorem State.countPart_free (s : State) (q : Nat) (f : PartCounters → PartCounters) : (s.countPart q f).free = s.free := rfl
@[simp] theorem State.countPart_part (s : State) (q : Nat) (f : PartCounters → PartCounters) : (s.countPart q f).part = s.part := rfl
@[simp] theorem State.countPart_mgmt (s : State) (q : Nat) (f : PartCounters → PartCounters) : (s.countPart q f).mgmt = s.mgmt := rfl
@[simp] theorem State.countPart_ports (s : State) (q : Nat) (f : PartCounters → PartCounters) : (s.countPart q f).ports = s.ports := rfl
@[simp] theorem State.countPart_lanes (s : State) (q : Nat) (f : PartCounters → PartCounters) : (s.countPart q f).lanes = s.lanes := rfl
@[simp] theorem State.countPart_links (s : State) (q : Nat) (f : PartCounters → PartCounters) : (s.countPart q f).links = s.links := rfl
@[simp] theorem State.countPart_fabric (s : State) (q : Nat) (f : PartCounters → PartCounters) : (s.countPart q f).fabric = s.fabric := rfl
@[simp] theorem State.countPart_car (s : State) (q : Nat) (f : PartCounters → PartCounters) : (s.countPart q f).car = s.car := rfl
@[simp] theorem State.countPart_sched (s : State) (q : Nat) (f : PartCounters → PartCounters) : (s.countPart q f).sched = s.sched := rfl
@[simp] theorem State.countPart_jug (s : State) (q : Nat) (f : PartCounters → PartCounters) : (s.countPart q f).jug = s.jug := rfl
@[simp] theorem State.countPart_pwA (s : State) (q : Nat) (f : PartCounters → PartCounters) : (s.countPart q f).pwA = s.pwA := rfl
@[simp] theorem State.countPart_pwB (s : State) (q : Nat) (f : PartCounters → PartCounters) : (s.countPart q f).pwB = s.pwB := rfl
@[simp] theorem State.countPart_sideband (s : State) (q : Nat) (f : PartCounters → PartCounters) : (s.countPart q f).sideband = s.sideband := rfl
@[simp] theorem State.countPart_slots (s : State) (q : Nat) (f : PartCounters → PartCounters) : (s.countPart q f).slots = s.slots := rfl
@[simp] theorem State.countPart_faults (s : State) (q : Nat) (f : PartCounters → PartCounters) : (s.countPart q f).faults = s.faults := rfl
@[simp] theorem State.countPart_bist (s : State) (q : Nat) (f : PartCounters → PartCounters) : (s.countPart q f).bist = s.bist := rfl
@[simp] theorem State.countPart_power (s : State) (q : Nat) (f : PartCounters → PartCounters) : (s.countPart q f).power = s.power := rfl

@[simp] theorem State.modSource_pending (s : State) (c : BitVec 12) (f : Source → Source) : (s.modSource c f).pending = s.pending := rfl
@[simp] theorem State.modSource_now (s : State) (c : BitVec 12) (f : Source → Source) : (s.modSource c f).now = s.now := rfl
@[simp] theorem State.modSource_free (s : State) (c : BitVec 12) (f : Source → Source) : (s.modSource c f).free = s.free := rfl
@[simp] theorem State.modSource_part (s : State) (c : BitVec 12) (f : Source → Source) : (s.modSource c f).part = s.part := rfl
@[simp] theorem State.modSource_mgmt (s : State) (c : BitVec 12) (f : Source → Source) : (s.modSource c f).mgmt = s.mgmt := rfl
@[simp] theorem State.modSource_ports (s : State) (c : BitVec 12) (f : Source → Source) : (s.modSource c f).ports = s.ports := rfl
@[simp] theorem State.modSource_lanes (s : State) (c : BitVec 12) (f : Source → Source) : (s.modSource c f).lanes = s.lanes := rfl
@[simp] theorem State.modSource_links (s : State) (c : BitVec 12) (f : Source → Source) : (s.modSource c f).links = s.links := rfl
@[simp] theorem State.modSource_fabric (s : State) (c : BitVec 12) (f : Source → Source) : (s.modSource c f).fabric = s.fabric := rfl
@[simp] theorem State.modSource_car (s : State) (c : BitVec 12) (f : Source → Source) : (s.modSource c f).car = s.car := rfl
@[simp] theorem State.modSource_sched (s : State) (c : BitVec 12) (f : Source → Source) : (s.modSource c f).sched = s.sched := rfl
@[simp] theorem State.modSource_parts (s : State) (c : BitVec 12) (f : Source → Source) : (s.modSource c f).parts = s.parts := rfl
@[simp] theorem State.modSource_jug (s : State) (c : BitVec 12) (f : Source → Source) : (s.modSource c f).jug = s.jug := rfl
@[simp] theorem State.modSource_pwA (s : State) (c : BitVec 12) (f : Source → Source) : (s.modSource c f).pwA = s.pwA := rfl
@[simp] theorem State.modSource_pwB (s : State) (c : BitVec 12) (f : Source → Source) : (s.modSource c f).pwB = s.pwB := rfl
@[simp] theorem State.modSource_sideband (s : State) (c : BitVec 12) (f : Source → Source) : (s.modSource c f).sideband = s.sideband := rfl
@[simp] theorem State.modSource_slots (s : State) (c : BitVec 12) (f : Source → Source) : (s.modSource c f).slots = s.slots := rfl
@[simp] theorem State.modSource_bist (s : State) (c : BitVec 12) (f : Source → Source) : (s.modSource c f).bist = s.bist := rfl
@[simp] theorem State.modSource_power (s : State) (c : BitVec 12) (f : Source → Source) : (s.modSource c f).power = s.power := rfl

@[simp] theorem State.modWaiting_pending (s : State) (i v : Nat) (f : List Nat → List Nat) : (s.modWaiting i v f).pending = s.pending := rfl
@[simp] theorem State.modWaiting_now (s : State) (i v : Nat) (f : List Nat → List Nat) : (s.modWaiting i v f).now = s.now := rfl
@[simp] theorem State.modWaiting_free (s : State) (i v : Nat) (f : List Nat → List Nat) : (s.modWaiting i v f).free = s.free := rfl
@[simp] theorem State.modWaiting_part (s : State) (i v : Nat) (f : List Nat → List Nat) : (s.modWaiting i v f).part = s.part := rfl
@[simp] theorem State.modWaiting_mgmt (s : State) (i v : Nat) (f : List Nat → List Nat) : (s.modWaiting i v f).mgmt = s.mgmt := rfl
@[simp] theorem State.modWaiting_ports (s : State) (i v : Nat) (f : List Nat → List Nat) : (s.modWaiting i v f).ports = s.ports := rfl
@[simp] theorem State.modWaiting_lanes (s : State) (i v : Nat) (f : List Nat → List Nat) : (s.modWaiting i v f).lanes = s.lanes := rfl
@[simp] theorem State.modWaiting_links (s : State) (i v : Nat) (f : List Nat → List Nat) : (s.modWaiting i v f).links = s.links := rfl
@[simp] theorem State.modWaiting_fabric (s : State) (i v : Nat) (f : List Nat → List Nat) : (s.modWaiting i v f).fabric = s.fabric := rfl
@[simp] theorem State.modWaiting_sched (s : State) (i v : Nat) (f : List Nat → List Nat) : (s.modWaiting i v f).sched = s.sched := rfl
@[simp] theorem State.modWaiting_parts (s : State) (i v : Nat) (f : List Nat → List Nat) : (s.modWaiting i v f).parts = s.parts := rfl
@[simp] theorem State.modWaiting_jug (s : State) (i v : Nat) (f : List Nat → List Nat) : (s.modWaiting i v f).jug = s.jug := rfl
@[simp] theorem State.modWaiting_pwA (s : State) (i v : Nat) (f : List Nat → List Nat) : (s.modWaiting i v f).pwA = s.pwA := rfl
@[simp] theorem State.modWaiting_pwB (s : State) (i v : Nat) (f : List Nat → List Nat) : (s.modWaiting i v f).pwB = s.pwB := rfl
@[simp] theorem State.modWaiting_sideband (s : State) (i v : Nat) (f : List Nat → List Nat) : (s.modWaiting i v f).sideband = s.sideband := rfl
@[simp] theorem State.modWaiting_slots (s : State) (i v : Nat) (f : List Nat → List Nat) : (s.modWaiting i v f).slots = s.slots := rfl
@[simp] theorem State.modWaiting_faults (s : State) (i v : Nat) (f : List Nat → List Nat) : (s.modWaiting i v f).faults = s.faults := rfl
@[simp] theorem State.modWaiting_bist (s : State) (i v : Nat) (f : List Nat → List Nat) : (s.modWaiting i v f).bist = s.bist := rfl
@[simp] theorem State.modWaiting_power (s : State) (i v : Nat) (f : List Nat → List Nat) : (s.modWaiting i v f).power = s.power := rfl

@[simp] theorem State.inject_pending (s : State) (q : Nat) (x : Frame) : (s.inject q x).pending = s.pending := rfl
@[simp] theorem State.inject_now (s : State) (q : Nat) (x : Frame) : (s.inject q x).now = s.now := rfl
@[simp] theorem State.inject_free (s : State) (q : Nat) (x : Frame) : (s.inject q x).free = s.free := rfl
@[simp] theorem State.inject_part (s : State) (q : Nat) (x : Frame) : (s.inject q x).part = s.part := rfl
@[simp] theorem State.inject_mgmt (s : State) (q : Nat) (x : Frame) : (s.inject q x).mgmt = s.mgmt := rfl
@[simp] theorem State.inject_ports (s : State) (q : Nat) (x : Frame) : (s.inject q x).ports = s.ports := rfl
@[simp] theorem State.inject_lanes (s : State) (q : Nat) (x : Frame) : (s.inject q x).lanes = s.lanes := rfl
@[simp] theorem State.inject_links (s : State) (q : Nat) (x : Frame) : (s.inject q x).links = s.links := rfl
@[simp] theorem State.inject_fabric (s : State) (q : Nat) (x : Frame) : (s.inject q x).fabric = s.fabric := rfl
@[simp] theorem State.inject_sched (s : State) (q : Nat) (x : Frame) : (s.inject q x).sched = s.sched := rfl
@[simp] theorem State.inject_parts (s : State) (q : Nat) (x : Frame) : (s.inject q x).parts = s.parts := rfl
@[simp] theorem State.inject_jug (s : State) (q : Nat) (x : Frame) : (s.inject q x).jug = s.jug := rfl
@[simp] theorem State.inject_pwA (s : State) (q : Nat) (x : Frame) : (s.inject q x).pwA = s.pwA := rfl
@[simp] theorem State.inject_pwB (s : State) (q : Nat) (x : Frame) : (s.inject q x).pwB = s.pwB := rfl
@[simp] theorem State.inject_sideband (s : State) (q : Nat) (x : Frame) : (s.inject q x).sideband = s.sideband := rfl
@[simp] theorem State.inject_slots (s : State) (q : Nat) (x : Frame) : (s.inject q x).slots = s.slots := rfl
@[simp] theorem State.inject_faults (s : State) (q : Nat) (x : Frame) : (s.inject q x).faults = s.faults := rfl
@[simp] theorem State.inject_bist (s : State) (q : Nat) (x : Frame) : (s.inject q x).bist = s.bist := rfl
@[simp] theorem State.inject_power (s : State) (q : Nat) (x : Frame) : (s.inject q x).power = s.power := rfl

@[simp] theorem State.notify_pending (s : State) (n : Nat) : (s.notify n).pending = s.pending := rfl
@[simp] theorem State.notify_now (s : State) (n : Nat) : (s.notify n).now = s.now := rfl
@[simp] theorem State.notify_free (s : State) (n : Nat) : (s.notify n).free = s.free := rfl
@[simp] theorem State.notify_part (s : State) (n : Nat) : (s.notify n).part = s.part := rfl
@[simp] theorem State.notify_mgmt (s : State) (n : Nat) : (s.notify n).mgmt = s.mgmt := rfl
@[simp] theorem State.notify_ports (s : State) (n : Nat) : (s.notify n).ports = s.ports := rfl
@[simp] theorem State.notify_lanes (s : State) (n : Nat) : (s.notify n).lanes = s.lanes := rfl
@[simp] theorem State.notify_links (s : State) (n : Nat) : (s.notify n).links = s.links := rfl
@[simp] theorem State.notify_fabric (s : State) (n : Nat) : (s.notify n).fabric = s.fabric := rfl
@[simp] theorem State.notify_sched (s : State) (n : Nat) : (s.notify n).sched = s.sched := rfl
@[simp] theorem State.notify_parts (s : State) (n : Nat) : (s.notify n).parts = s.parts := rfl
@[simp] theorem State.notify_jug (s : State) (n : Nat) : (s.notify n).jug = s.jug := rfl
@[simp] theorem State.notify_pwA (s : State) (n : Nat) : (s.notify n).pwA = s.pwA := rfl
@[simp] theorem State.notify_pwB (s : State) (n : Nat) : (s.notify n).pwB = s.pwB := rfl
@[simp] theorem State.notify_sideband (s : State) (n : Nat) : (s.notify n).sideband = s.sideband := rfl
@[simp] theorem State.notify_slots (s : State) (n : Nat) : (s.notify n).slots = s.slots := rfl
@[simp] theorem State.notify_faults (s : State) (n : Nat) : (s.notify n).faults = s.faults := rfl
@[simp] theorem State.notify_bist (s : State) (n : Nat) : (s.notify n).bist = s.bist := rfl
@[simp] theorem State.notify_power (s : State) (n : Nat) : (s.notify n).power = s.power := rfl

@[simp] theorem State.renewLease_pending (s : State) (n : Nat) (t : BitVec 32) : (s.renewLease n t).pending = s.pending := rfl
@[simp] theorem State.renewLease_now (s : State) (n : Nat) (t : BitVec 32) : (s.renewLease n t).now = s.now := rfl
@[simp] theorem State.renewLease_free (s : State) (n : Nat) (t : BitVec 32) : (s.renewLease n t).free = s.free := rfl
@[simp] theorem State.renewLease_part (s : State) (n : Nat) (t : BitVec 32) : (s.renewLease n t).part = s.part := rfl
@[simp] theorem State.renewLease_ports (s : State) (n : Nat) (t : BitVec 32) : (s.renewLease n t).ports = s.ports := rfl
@[simp] theorem State.renewLease_lanes (s : State) (n : Nat) (t : BitVec 32) : (s.renewLease n t).lanes = s.lanes := rfl
@[simp] theorem State.renewLease_links (s : State) (n : Nat) (t : BitVec 32) : (s.renewLease n t).links = s.links := rfl
@[simp] theorem State.renewLease_fabric (s : State) (n : Nat) (t : BitVec 32) : (s.renewLease n t).fabric = s.fabric := rfl
@[simp] theorem State.renewLease_car (s : State) (n : Nat) (t : BitVec 32) : (s.renewLease n t).car = s.car := rfl
@[simp] theorem State.renewLease_sched (s : State) (n : Nat) (t : BitVec 32) : (s.renewLease n t).sched = s.sched := rfl
@[simp] theorem State.renewLease_parts (s : State) (n : Nat) (t : BitVec 32) : (s.renewLease n t).parts = s.parts := rfl
@[simp] theorem State.renewLease_jug (s : State) (n : Nat) (t : BitVec 32) : (s.renewLease n t).jug = s.jug := rfl
@[simp] theorem State.renewLease_pwA (s : State) (n : Nat) (t : BitVec 32) : (s.renewLease n t).pwA = s.pwA := rfl
@[simp] theorem State.renewLease_pwB (s : State) (n : Nat) (t : BitVec 32) : (s.renewLease n t).pwB = s.pwB := rfl
@[simp] theorem State.renewLease_sideband (s : State) (n : Nat) (t : BitVec 32) : (s.renewLease n t).sideband = s.sideband := rfl
@[simp] theorem State.renewLease_slots (s : State) (n : Nat) (t : BitVec 32) : (s.renewLease n t).slots = s.slots := rfl
@[simp] theorem State.renewLease_faults (s : State) (n : Nat) (t : BitVec 32) : (s.renewLease n t).faults = s.faults := rfl
@[simp] theorem State.renewLease_bist (s : State) (n : Nat) (t : BitVec 32) : (s.renewLease n t).bist = s.bist := rfl
@[simp] theorem State.renewLease_power (s : State) (n : Nat) (t : BitVec 32) : (s.renewLease n t).power = s.power := rfl

@[simp] theorem State.begun_pending (s : State) (n : Nat) : (s.begun n).pending = s.pending := rfl
@[simp] theorem State.begun_now (s : State) (n : Nat) : (s.begun n).now = s.now := rfl
@[simp] theorem State.begun_free (s : State) (n : Nat) : (s.begun n).free = s.free := rfl
@[simp] theorem State.begun_part (s : State) (n : Nat) : (s.begun n).part = s.part := rfl
@[simp] theorem State.begun_ports (s : State) (n : Nat) : (s.begun n).ports = s.ports := rfl
@[simp] theorem State.begun_lanes (s : State) (n : Nat) : (s.begun n).lanes = s.lanes := rfl
@[simp] theorem State.begun_links (s : State) (n : Nat) : (s.begun n).links = s.links := rfl
@[simp] theorem State.begun_fabric (s : State) (n : Nat) : (s.begun n).fabric = s.fabric := rfl
@[simp] theorem State.begun_car (s : State) (n : Nat) : (s.begun n).car = s.car := rfl
@[simp] theorem State.begun_sched (s : State) (n : Nat) : (s.begun n).sched = s.sched := rfl
@[simp] theorem State.begun_parts (s : State) (n : Nat) : (s.begun n).parts = s.parts := rfl
@[simp] theorem State.begun_jug (s : State) (n : Nat) : (s.begun n).jug = s.jug := rfl
@[simp] theorem State.begun_pwA (s : State) (n : Nat) : (s.begun n).pwA = s.pwA := rfl
@[simp] theorem State.begun_pwB (s : State) (n : Nat) : (s.begun n).pwB = s.pwB := rfl
@[simp] theorem State.begun_sideband (s : State) (n : Nat) : (s.begun n).sideband = s.sideband := rfl
@[simp] theorem State.begun_slots (s : State) (n : Nat) : (s.begun n).slots = s.slots := rfl
@[simp] theorem State.begun_faults (s : State) (n : Nat) : (s.begun n).faults = s.faults := rfl
@[simp] theorem State.begun_bist (s : State) (n : Nat) : (s.begun n).bist = s.bist := rfl
@[simp] theorem State.begun_power (s : State) (n : Nat) : (s.begun n).power = s.power := rfl

/-! ### Reading the unit that was written -/

theorem State.port_modPort_self (s : State) (p : Nat) (f : Port → Port) (h : f (s.port p) ≠ {}) : (s.modPort p f).port p = f (s.port p) :=
  Tab.get_put_self_of_ne h _ _
theorem State.port_modPort_other (s : State) {j p : Nat} (f : Port → Port) (h : j ≠ p) : (s.modPort p f).port j = s.port j :=
  Tab.get_put_other _ _ _ _ h
theorem State.lane_modLane_self (s : State) (n : Nat) (f : Lane → Lane) (h : f (s.lane n) ≠ {}) : (s.modLane n f).lane n = f (s.lane n) :=
  Tab.get_put_self_of_ne h _ _
theorem State.lane_modLane_other (s : State) {j n : Nat} (f : Lane → Lane) (h : j ≠ n) : (s.modLane n f).lane j = s.lane j :=
  Tab.get_put_other _ _ _ _ h
theorem State.link_modLink_self (s : State) (p : Nat) (f : Link → Link) (h : f (s.link p) ≠ {}) : (s.modLink p f).link p = f (s.link p) :=
  Tab.get_put_self_of_ne h _ _
theorem State.link_modLink_other (s : State) {j p : Nat} (f : Link → Link) (h : j ≠ p) : (s.modLink p f).link j = s.link j :=
  Tab.get_put_other _ _ _ _ h
theorem State.juggler_modJuggler_self (s : State) (j : Nat) (f : Juggler → Juggler) (h : f (s.juggler j) ≠ {}) : (s.modJuggler j f).juggler j = f (s.juggler j) :=
  Tab.get_put_self_of_ne h _ _
theorem State.juggler_modJuggler_other (s : State) {i j : Nat} (f : Juggler → Juggler) (h : i ≠ j) : (s.modJuggler j f).juggler i = s.juggler i :=
  Tab.get_put_other _ _ _ _ h
theorem State.chan_modChan_self (s : State) (c : Nat) (f : Chan → Chan) (h : f (s.chan c) ≠ {}) : (s.modChan c f).chan c = f (s.chan c) :=
  Tab.get_put_self_of_ne h _ _
theorem State.chan_modChan_other (s : State) {j c : Nat} (f : Chan → Chan) (h : j ≠ c) : (s.modChan c f).chan j = s.chan j :=
  Tab.get_put_other _ _ _ _ h
theorem State.schedOf_modSched_self (s : State) (p : Nat) (f : Sched → Sched) (h : f (s.schedOf p) ≠ {}) : (s.modSched p f).schedOf p = f (s.schedOf p) :=
  Tab.get_put_self_of_ne h _ _
theorem State.schedOf_modSched_other (s : State) {j p : Nat} (f : Sched → Sched) (h : j ≠ p) : (s.modSched p f).schedOf j = s.schedOf j :=
  Tab.get_put_other _ _ _ _ h
theorem State.mid_modMid_self (s : State) (m : Nat) (f : MidBuf → MidBuf) (h : f (s.mid m) ≠ {}) : (s.modMid m f).mid m = f (s.mid m) :=
  Tab.get_put_self_of_ne h _ _
theorem State.mid_modMid_other (s : State) {j m : Nat} (f : MidBuf → MidBuf) (h : j ≠ m) : (s.modMid m f).mid j = s.mid j :=
  Tab.get_put_other _ _ _ _ h

/-! ### Events, responses and lapses touch the Ringmaster, the frames in the device and the lapses told -/

/-- `t` agrees with `s` outside the Ringmaster and the Carousel. -/
def State.Within (s t : State) : Prop := t = { s with mgmt := t.mgmt, car := t.car }

theorem State.Within.refl (s : State) : s.Within s := rfl
theorem State.Within.trans {s t u : State} (h : s.Within t) (h' : t.Within u) : s.Within u := by
  unfold State.Within at *
  rw [h] at h'
  exact h'

theorem State.Within.pending {s t : State} (h : s.Within t) : t.pending = s.pending := by rw [h]
theorem State.Within.now {s t : State} (h : s.Within t) : t.now = s.now := by rw [h]
theorem State.Within.free {s t : State} (h : s.Within t) : t.free = s.free := by rw [h]
theorem State.Within.part {s t : State} (h : s.Within t) : t.part = s.part := by rw [h]
theorem State.Within.ports {s t : State} (h : s.Within t) : t.ports = s.ports := by rw [h]
theorem State.Within.lanes {s t : State} (h : s.Within t) : t.lanes = s.lanes := by rw [h]
theorem State.Within.links {s t : State} (h : s.Within t) : t.links = s.links := by rw [h]
theorem State.Within.fabric {s t : State} (h : s.Within t) : t.fabric = s.fabric := by rw [h]
theorem State.Within.sched {s t : State} (h : s.Within t) : t.sched = s.sched := by rw [h]
theorem State.Within.parts {s t : State} (h : s.Within t) : t.parts = s.parts := by rw [h]
theorem State.Within.jug {s t : State} (h : s.Within t) : t.jug = s.jug := by rw [h]
theorem State.Within.pwA {s t : State} (h : s.Within t) : t.pwA = s.pwA := by rw [h]
theorem State.Within.pwB {s t : State} (h : s.Within t) : t.pwB = s.pwB := by rw [h]
theorem State.Within.sideband {s t : State} (h : s.Within t) : t.sideband = s.sideband := by rw [h]
theorem State.Within.slots {s t : State} (h : s.Within t) : t.slots = s.slots := by rw [h]
theorem State.Within.faults {s t : State} (h : s.Within t) : t.faults = s.faults := by rw [h]
theorem State.Within.bist {s t : State} (h : s.Within t) : t.bist = s.bist := by rw [h]
theorem State.Within.power {s t : State} (h : s.Within t) : t.power = s.power := by rw [h]

theorem State.within_modMbox (s : State) (n : Nat) (f : Mailbox → Mailbox) : s.Within (s.modMbox n f) := rfl
theorem State.within_modMgmt (s : State) (f : Mgmt → Mgmt) : s.Within (s.modMgmt f) := rfl
theorem State.within_inject (s : State) (q : Nat) (x : Frame) : s.Within (s.inject q x) := rfl
theorem State.within_notify (s : State) (n : Nat) : s.Within (s.notify n) := rfl
theorem State.within_remoteFrame (s : State) (g : Geid) (p : BitVec 8) (l : List Byte) : s.Within (s.remoteFrame g p l) := rfl

theorem State.within_foldl {α : Type} (l : List α) (f : State → α → State) (hf : ∀ (t : State) (x : α), t.Within (f t x)) (s : State) : s.Within (l.foldl f s) := by
  induction l generalizing s with
  | nil => rfl
  | cons x r ih => exact (hf s x).trans (ih _)

theorem State.within_ite {s a b : State} (c : Prop) [Decidable c] (ha : s.Within a) (hb : s.Within b) : s.Within (if c then a else b) := by
  split
  · exact ha
  · exact hb

/-- A delivered event touches the mailbox, and sends notifications and copies (R384, R386, R389). -/
theorem State.within_deliver (s : State) (e : EvEntry) (n : Nat) : s.Within (s.deliver e n) := by
  unfold State.deliver
  extract_lets m copied s1
  have h : s.Within copied := State.within_ite _ (State.within_remoteFrame _ _ _ _) rfl
  have h1 : s.Within s1 := h.trans (State.within_modMbox _ _ _)
  exact State.within_ite _ (h.trans (State.within_modMbox _ _ _)) (State.within_ite _ (h1.trans (State.within_notify _ _)) h1)

/-- An event touches the event log and the mailboxes, and sends notifications and copies (R383). -/
theorem State.within_raiseTo (s : State) (c : BitVec 16) (d : List Byte) (o : List (BitVec 8)) (pick : Nat → Bool) : s.Within (s.raiseTo c d o pick) := by
  unfold State.raiseTo
  extract_lets e s1
  have h1 : s.Within s1 := State.within_modMgmt _ _
  exact State.within_ite _ (h1.trans (State.within_foldl _ _ (fun t n => State.within_deliver t e n) _)) h1

theorem State.within_raise (s : State) (c : BitVec 16) (d : List (Nat × Nat)) (o : List (BitVec 8)) : s.Within (s.raise c d o) :=
  State.within_raiseTo _ _ _ _ _

/-- A response touches the mailbox, and sends the notification and a remote answer (R374, R386, R389). -/
theorem State.within_respond (s : State) (n : Nat) (r : List Byte) (x : Option StoredResp) : s.Within (s.respond n r x) := by
  unfold State.respond
  extract_lets m s1 s2
  have h1 : s.Within s1 := State.within_modMbox _ _ _
  have h2 : s.Within s2 := State.within_ite _ (h1.trans (State.within_notify _ _)) h1
  split
  · exact h2
  · exact h2.trans (State.within_remoteFrame _ _ _ _)

theorem State.within_complete (s : State) (n : Nat) (h : CmdHdr) (st d : Nat) (l : List Byte) : s.Within (s.complete n h st d l) :=
  State.within_respond _ _ _ _

@[simp] theorem State.raise_pending (s : State) (c : BitVec 16) (d : List (Nat × Nat)) (o : List (BitVec 8)) : (s.raise c d o).pending = s.pending :=
  (State.within_raise s c d o).pending
@[simp] theorem State.raise_now (s : State) (c : BitVec 16) (d : List (Nat × Nat)) (o : List (BitVec 8)) : (s.raise c d o).now = s.now :=
  (State.within_raise s c d o).now
@[simp] theorem State.raise_free (s : State) (c : BitVec 16) (d : List (Nat × Nat)) (o : List (BitVec 8)) : (s.raise c d o).free = s.free :=
  (State.within_raise s c d o).free
@[simp] theorem State.raise_part (s : State) (c : BitVec 16) (d : List (Nat × Nat)) (o : List (BitVec 8)) : (s.raise c d o).part = s.part :=
  (State.within_raise s c d o).part
@[simp] theorem State.raise_ports (s : State) (c : BitVec 16) (d : List (Nat × Nat)) (o : List (BitVec 8)) : (s.raise c d o).ports = s.ports :=
  (State.within_raise s c d o).ports
@[simp] theorem State.raise_lanes (s : State) (c : BitVec 16) (d : List (Nat × Nat)) (o : List (BitVec 8)) : (s.raise c d o).lanes = s.lanes :=
  (State.within_raise s c d o).lanes
@[simp] theorem State.raise_links (s : State) (c : BitVec 16) (d : List (Nat × Nat)) (o : List (BitVec 8)) : (s.raise c d o).links = s.links :=
  (State.within_raise s c d o).links
@[simp] theorem State.raise_fabric (s : State) (c : BitVec 16) (d : List (Nat × Nat)) (o : List (BitVec 8)) : (s.raise c d o).fabric = s.fabric :=
  (State.within_raise s c d o).fabric
@[simp] theorem State.raise_sched (s : State) (c : BitVec 16) (d : List (Nat × Nat)) (o : List (BitVec 8)) : (s.raise c d o).sched = s.sched :=
  (State.within_raise s c d o).sched
@[simp] theorem State.raise_parts (s : State) (c : BitVec 16) (d : List (Nat × Nat)) (o : List (BitVec 8)) : (s.raise c d o).parts = s.parts :=
  (State.within_raise s c d o).parts
@[simp] theorem State.raise_jug (s : State) (c : BitVec 16) (d : List (Nat × Nat)) (o : List (BitVec 8)) : (s.raise c d o).jug = s.jug :=
  (State.within_raise s c d o).jug
@[simp] theorem State.raise_pwA (s : State) (c : BitVec 16) (d : List (Nat × Nat)) (o : List (BitVec 8)) : (s.raise c d o).pwA = s.pwA :=
  (State.within_raise s c d o).pwA
@[simp] theorem State.raise_pwB (s : State) (c : BitVec 16) (d : List (Nat × Nat)) (o : List (BitVec 8)) : (s.raise c d o).pwB = s.pwB :=
  (State.within_raise s c d o).pwB
@[simp] theorem State.raise_sideband (s : State) (c : BitVec 16) (d : List (Nat × Nat)) (o : List (BitVec 8)) : (s.raise c d o).sideband = s.sideband :=
  (State.within_raise s c d o).sideband
@[simp] theorem State.raise_slots (s : State) (c : BitVec 16) (d : List (Nat × Nat)) (o : List (BitVec 8)) : (s.raise c d o).slots = s.slots :=
  (State.within_raise s c d o).slots
@[simp] theorem State.raise_faults (s : State) (c : BitVec 16) (d : List (Nat × Nat)) (o : List (BitVec 8)) : (s.raise c d o).faults = s.faults :=
  (State.within_raise s c d o).faults
@[simp] theorem State.raise_bist (s : State) (c : BitVec 16) (d : List (Nat × Nat)) (o : List (BitVec 8)) : (s.raise c d o).bist = s.bist :=
  (State.within_raise s c d o).bist
@[simp] theorem State.raise_power (s : State) (c : BitVec 16) (d : List (Nat × Nat)) (o : List (BitVec 8)) : (s.raise c d o).power = s.power :=
  (State.within_raise s c d o).power
@[simp] theorem State.complete_pending (s : State) (n : Nat) (h : CmdHdr) (st d : Nat) (l : List Byte) : (s.complete n h st d l).pending = s.pending :=
  (State.within_complete s n h st d l).pending
@[simp] theorem State.complete_now (s : State) (n : Nat) (h : CmdHdr) (st d : Nat) (l : List Byte) : (s.complete n h st d l).now = s.now :=
  (State.within_complete s n h st d l).now
@[simp] theorem State.complete_free (s : State) (n : Nat) (h : CmdHdr) (st d : Nat) (l : List Byte) : (s.complete n h st d l).free = s.free :=
  (State.within_complete s n h st d l).free
@[simp] theorem State.complete_part (s : State) (n : Nat) (h : CmdHdr) (st d : Nat) (l : List Byte) : (s.complete n h st d l).part = s.part :=
  (State.within_complete s n h st d l).part
@[simp] theorem State.complete_ports (s : State) (n : Nat) (h : CmdHdr) (st d : Nat) (l : List Byte) : (s.complete n h st d l).ports = s.ports :=
  (State.within_complete s n h st d l).ports
@[simp] theorem State.complete_lanes (s : State) (n : Nat) (h : CmdHdr) (st d : Nat) (l : List Byte) : (s.complete n h st d l).lanes = s.lanes :=
  (State.within_complete s n h st d l).lanes
@[simp] theorem State.complete_links (s : State) (n : Nat) (h : CmdHdr) (st d : Nat) (l : List Byte) : (s.complete n h st d l).links = s.links :=
  (State.within_complete s n h st d l).links
@[simp] theorem State.complete_fabric (s : State) (n : Nat) (h : CmdHdr) (st d : Nat) (l : List Byte) : (s.complete n h st d l).fabric = s.fabric :=
  (State.within_complete s n h st d l).fabric
@[simp] theorem State.complete_sched (s : State) (n : Nat) (h : CmdHdr) (st d : Nat) (l : List Byte) : (s.complete n h st d l).sched = s.sched :=
  (State.within_complete s n h st d l).sched
@[simp] theorem State.complete_parts (s : State) (n : Nat) (h : CmdHdr) (st d : Nat) (l : List Byte) : (s.complete n h st d l).parts = s.parts :=
  (State.within_complete s n h st d l).parts
@[simp] theorem State.complete_jug (s : State) (n : Nat) (h : CmdHdr) (st d : Nat) (l : List Byte) : (s.complete n h st d l).jug = s.jug :=
  (State.within_complete s n h st d l).jug
@[simp] theorem State.complete_pwA (s : State) (n : Nat) (h : CmdHdr) (st d : Nat) (l : List Byte) : (s.complete n h st d l).pwA = s.pwA :=
  (State.within_complete s n h st d l).pwA
@[simp] theorem State.complete_pwB (s : State) (n : Nat) (h : CmdHdr) (st d : Nat) (l : List Byte) : (s.complete n h st d l).pwB = s.pwB :=
  (State.within_complete s n h st d l).pwB
@[simp] theorem State.complete_sideband (s : State) (n : Nat) (h : CmdHdr) (st d : Nat) (l : List Byte) : (s.complete n h st d l).sideband = s.sideband :=
  (State.within_complete s n h st d l).sideband
@[simp] theorem State.complete_slots (s : State) (n : Nat) (h : CmdHdr) (st d : Nat) (l : List Byte) : (s.complete n h st d l).slots = s.slots :=
  (State.within_complete s n h st d l).slots
@[simp] theorem State.complete_faults (s : State) (n : Nat) (h : CmdHdr) (st d : Nat) (l : List Byte) : (s.complete n h st d l).faults = s.faults :=
  (State.within_complete s n h st d l).faults
@[simp] theorem State.complete_bist (s : State) (n : Nat) (h : CmdHdr) (st d : Nat) (l : List Byte) : (s.complete n h st d l).bist = s.bist :=
  (State.within_complete s n h st d l).bist
@[simp] theorem State.complete_power (s : State) (n : Nat) (h : CmdHdr) (st d : Nat) (l : List Byte) : (s.complete n h st d l).power = s.power :=
  (State.within_complete s n h st d l).power

/-- `t` agrees with `s` outside the Ringmaster, the Carousel and the lapses of TIMING. -/
def State.Near (s t : State) : Prop := t = { s with mgmt := t.mgmt, car := t.car, parts := t.parts }

theorem State.Near.trans {s t u : State} (h : s.Near t) (h' : t.Near u) : s.Near u := by
  unfold State.Near at *
  rw [h] at h'
  exact h'

theorem State.Within.near {s t : State} (h : s.Within t) : s.Near t := by
  have hp := h.parts
  unfold State.Within at h
  unfold State.Near
  rw [hp]
  exact h

/-- The lapses of TIMING touch what events touch, and the lapses told (R272). -/
theorem State.checkLapses_near (s : State) : s.Near s.checkLapses := by
  have h : ∀ (l : List Nat) (g : State → Nat → State) (t : State), (∀ (u : State) (n : Nat), u.Near (g u n)) → t.Near (l.foldl g t) := by
    intro l g t hg
    induction l generalizing t with
    | nil => rfl
    | cons x r ih => exact (hg t x).trans (ih _)
  refine h _ _ s fun u n => ?_
  dsimp only
  split
  · rfl
  · exact State.Near.trans (t := u.modParts _) rfl (State.within_raise _ _ _ _).near

@[simp] theorem State.checkLapses_pending (s : State) : s.checkLapses.pending = s.pending := by rw [State.checkLapses_near s]
@[simp] theorem State.checkLapses_now (s : State) : s.checkLapses.now = s.now := by rw [State.checkLapses_near s]
@[simp] theorem State.checkLapses_free (s : State) : s.checkLapses.free = s.free := by rw [State.checkLapses_near s]
@[simp] theorem State.checkLapses_part (s : State) : s.checkLapses.part = s.part := by rw [State.checkLapses_near s]
@[simp] theorem State.checkLapses_ports (s : State) : s.checkLapses.ports = s.ports := by rw [State.checkLapses_near s]
@[simp] theorem State.checkLapses_lanes (s : State) : s.checkLapses.lanes = s.lanes := by rw [State.checkLapses_near s]
@[simp] theorem State.checkLapses_links (s : State) : s.checkLapses.links = s.links := by rw [State.checkLapses_near s]
@[simp] theorem State.checkLapses_fabric (s : State) : s.checkLapses.fabric = s.fabric := by rw [State.checkLapses_near s]
@[simp] theorem State.checkLapses_sched (s : State) : s.checkLapses.sched = s.sched := by rw [State.checkLapses_near s]
@[simp] theorem State.checkLapses_jug (s : State) : s.checkLapses.jug = s.jug := by rw [State.checkLapses_near s]
@[simp] theorem State.checkLapses_pwA (s : State) : s.checkLapses.pwA = s.pwA := by rw [State.checkLapses_near s]
@[simp] theorem State.checkLapses_pwB (s : State) : s.checkLapses.pwB = s.pwB := by rw [State.checkLapses_near s]
@[simp] theorem State.checkLapses_sideband (s : State) : s.checkLapses.sideband = s.sideband := by rw [State.checkLapses_near s]
@[simp] theorem State.checkLapses_slots (s : State) : s.checkLapses.slots = s.slots := by rw [State.checkLapses_near s]
@[simp] theorem State.checkLapses_faults (s : State) : s.checkLapses.faults = s.faults := by rw [State.checkLapses_near s]
@[simp] theorem State.checkLapses_bist (s : State) : s.checkLapses.bist = s.bist := by rw [State.checkLapses_near s]
@[simp] theorem State.checkLapses_power (s : State) : s.checkLapses.power = s.power := by rw [State.checkLapses_near s]
@[simp] theorem State.ended_pending (s t : State) (n : Nat) (l : List Byte) : (s.ended t n l).pending = t.pending := by simp [State.ended]
@[simp] theorem State.ended_now (s t : State) (n : Nat) (l : List Byte) : (s.ended t n l).now = t.now := by simp [State.ended]
@[simp] theorem State.ended_free (s t : State) (n : Nat) (l : List Byte) : (s.ended t n l).free = t.free := by simp [State.ended]
@[simp] theorem State.ended_part (s t : State) (n : Nat) (l : List Byte) : (s.ended t n l).part = t.part := by simp [State.ended]
@[simp] theorem State.ended_ports (s t : State) (n : Nat) (l : List Byte) : (s.ended t n l).ports = t.ports := by simp [State.ended]
@[simp] theorem State.ended_lanes (s t : State) (n : Nat) (l : List Byte) : (s.ended t n l).lanes = t.lanes := by simp [State.ended]
@[simp] theorem State.ended_links (s t : State) (n : Nat) (l : List Byte) : (s.ended t n l).links = t.links := by simp [State.ended]
@[simp] theorem State.ended_fabric (s t : State) (n : Nat) (l : List Byte) : (s.ended t n l).fabric = t.fabric := by simp [State.ended]
@[simp] theorem State.ended_sched (s t : State) (n : Nat) (l : List Byte) : (s.ended t n l).sched = t.sched := by simp [State.ended]
@[simp] theorem State.ended_jug (s t : State) (n : Nat) (l : List Byte) : (s.ended t n l).jug = t.jug := by simp [State.ended]
@[simp] theorem State.ended_pwA (s t : State) (n : Nat) (l : List Byte) : (s.ended t n l).pwA = t.pwA := by simp [State.ended]
@[simp] theorem State.ended_pwB (s t : State) (n : Nat) (l : List Byte) : (s.ended t n l).pwB = t.pwB := by simp [State.ended]
@[simp] theorem State.ended_sideband (s t : State) (n : Nat) (l : List Byte) : (s.ended t n l).sideband = t.sideband := by simp [State.ended]
@[simp] theorem State.ended_slots (s t : State) (n : Nat) (l : List Byte) : (s.ended t n l).slots = t.slots := by simp [State.ended]
@[simp] theorem State.ended_faults (s t : State) (n : Nat) (l : List Byte) : (s.ended t n l).faults = t.faults := by simp [State.ended]
@[simp] theorem State.ended_bist (s t : State) (n : Nat) (l : List Byte) : (s.ended t n l).bist = t.bist := by simp [State.ended]
@[simp] theorem State.ended_power (s t : State) (n : Nat) (l : List Byte) : (s.ended t n l).power = t.power := by simp [State.ended]

end Sys2Proof.Machine
end

