-- ==== Sys2Proof/Laws/Mailbox.lean ====
section
/-!
SUPPORT. What the mailbox protocol leaves in the mailboxes: a response, a renewed lease and a delivered event, and what they leave alone.
-/

namespace Sys2Proof.Machine

/-- A mailbox that DONE is set of differs from one after cold reset. -/
theorem mailbox_ne_default_of_done {n : Nat} {m : Mailbox} (h : m.done = true) : m ≠ mbDefault n := by
  intro he
  subst he
  simp only [mbDefault] at h
  split at h <;> simp at h

/-- A mailbox after a response. -/
def Mailbox.answered (m : Mailbox) (resp : List Byte) (store : Option StoredResp) : Mailbox :=
  { m with resp := cellsWrite [] 0 resp, busy := false, done := true, remote := none,
           stored := match store with | none => m.stored | some r => some r }

/-- What a mailbox holds after a response: RESP, BUSY 0 and DONE 1, and the response stored where one is (R374, R378). -/
theorem State.mbox_respond (s : State) (n : Nat) (resp : List Byte) (store : Option StoredResp) :
    (s.respond n resp store).mbox n = (s.mbox n).answered resp store := by
  have h1 : ∀ m : Mailbox, m.done = true → (s.setMbox n m).mbox n = m := fun m h => Tab.get_put_self_of_ne (mailbox_ne_default_of_done h) _ _
  have h2 : ∀ t u : State, t.mgmt = u.mgmt → t.mbox n = u.mbox n := fun t u h => by simp only [State.mbox, h]
  rw [← h1 ((s.mbox n).answered resp store) rfl]
  apply h2
  unfold State.respond
  extract_lets m s1 s2
  have h3 : s2.mgmt = s1.mgmt := by
    simp only [s2]
    split <;> rfl
  split
  · exact h3
  · exact h3

/-- A response leaves every other mailbox. -/
theorem State.mbox_respond_other (s : State) {j n : Nat} (resp : List Byte) (store : Option StoredResp) (h : j ≠ n) :
    (s.respond n resp store).mbox j = s.mbox j := by
  have h2 : ∀ t u : State, t.mgmt = u.mgmt → t.mbox j = u.mbox j := fun t u h => by simp only [State.mbox, h]
  rw [← State.mbox_setMbox_other s (n := n) ((s.mbox n).answered resp store) h]
  apply h2
  unfold State.respond
  extract_lets m s1 s2
  have h3 : s2.mgmt = s1.mgmt := by
    simp only [s2]
    split <;> rfl
  split
  · exact h3
  · exact h3

/-- Completing a command leaves every other mailbox. -/
theorem State.mbox_complete_other (s : State) {j n : Nat} (h : CmdHdr) (status detail : Nat) (payload : List Byte) (hj : j ≠ n) :
    (s.complete n h status detail payload).mbox j = s.mbox j := State.mbox_respond_other _ _ _ hj

theorem State.AlikeOutside.refl (s : State) : s.AlikeOutside s := rfl
theorem State.AlikeOutside.trans {s t u : State} (h : s.AlikeOutside t) (h' : t.AlikeOutside u) : s.AlikeOutside u := by
  unfold State.AlikeOutside at *
  rw [h] at h'
  exact h'

/-- A response changes only its mailbox and the frames in the Carousel. -/
theorem State.alike_respond (s : State) (n : Nat) (resp : List Byte) (store : Option StoredResp) : s.AlikeOutside (s.respond n resp store) := by
  unfold State.respond
  extract_lets m s1 s2
  have h1 : s.AlikeOutside s1 := rfl
  have h2 : s.AlikeOutside s2 := by
    simp only [s2]
    split
    · exact h1.trans rfl
    · exact h1
  split
  · exact h2
  · exact h2.trans rfl

/-- Completing a command changes only its mailbox and the frames in the Carousel. -/
theorem State.alike_complete (s : State) (n : Nat) (h : CmdHdr) (status detail : Nat) (payload : List Byte) :
    s.AlikeOutside (s.complete n h status detail payload) := State.alike_respond _ _ _ _

/-- Renewing a lease changes only its mailbox. -/
theorem State.alike_renewLease (s : State) (n : Nat) (t : BitVec 32) : s.AlikeOutside (s.renewLease n t) := rfl

/-- Renewing the lease of one mailbox leaves every other one. -/
theorem State.mbox_renewLease_other (s : State) {j n : Nat} (t : BitVec 32) (h : j ≠ n) : (s.renewLease n t).mbox j = s.mbox j :=
  State.mbox_setMbox_other _ _ h

/-- The entries of a queue differ in number from an empty one. -/
theorem mailbox_ne_default_of_queued {n : Nat} {m : Mailbox} (h : m.evqTail ≠ m.evqHead) : m ≠ mbDefault n := by
  intro he
  subst he
  apply h
  simp only [mbDefault]
  split <;> rfl

/-- The mailbox of a delivered event, where the queue has room (R383). -/
theorem State.mbox_deliver_room (s : State) (n : Nat) (e : EvEntry) (h : (s.mbox n).queued < 63) :
    (s.deliver e n).mbox n = { s.mbox n with
      evq := Tab.put {} (s.mbox n).evq (s.mbox n).evqTail.toNat e, evqTail := (s.mbox n).evqTail + 1 } := by
  have h2 : ∀ t u : State, t.mgmt = u.mgmt → t.mbox n = u.mbox n := fun t u h => by simp only [State.mbox, h]
  have hq : (s.mbox n).evqTail + 1 ≠ (s.mbox n).evqHead := by
    intro he
    simp only [Mailbox.queued, ← he] at h
    have : (s.mbox n).evqTail - ((s.mbox n).evqTail + 1) = 63 := by bv_omega
    rw [this] at h
    exact absurd h (by decide)
  have h1 := Tab.get_put_self_of_ne (d := mbDefault n)
    (mailbox_ne_default_of_queued (m := { s.mbox n with
      evq := Tab.put {} (s.mbox n).evq (s.mbox n).evqTail.toNat e, evqTail := (s.mbox n).evqTail + 1 }) hq) s.mgmt.mbox n
  refine Eq.trans (h2 _ (s.setMbox n { s.mbox n with
      evq := Tab.put {} (s.mbox n).evq (s.mbox n).evqTail.toNat e, evqTail := (s.mbox n).evqTail + 1 }) ?_) h1
  unfold State.deliver
  extract_lets m copied s1
  rw [if_neg (show ¬(s.mbox n).queued = 63 by omega)]
  have hc : copied.mgmt = s.mgmt := by
    simp only [copied]
    split <;> rfl
  have h3 : s1.mgmt = (s.setMbox n { s.mbox n with
      evq := Tab.put {} (s.mbox n).evq (s.mbox n).evqTail.toNat e, evqTail := (s.mbox n).evqTail + 1 }).mgmt := by
    simp only [s1, State.modMbox, State.setMbox, State.mbox, hc]
  split
  · exact h3
  · exact h3

/-- The mailboxes after an event that finds the queue of one full (R384). -/
theorem State.mgmt_deliver_full (s : State) (n : Nat) (e : EvEntry) (h : (s.mbox n).queued = 63) :
    (s.deliver e n).mgmt = (s.setMbox n { s.mbox n with evqOverflow := true, evqLost := inc16 (s.mbox n).evqLost }).mgmt := by
  unfold State.deliver
  extract_lets m copied s1
  rw [if_pos h]
  have hc : copied.mgmt = s.mgmt := by
    simp only [copied]
    split <;> rfl
  simp only [State.modMbox, State.setMbox, State.mbox, hc]
  rfl

/-- The mailbox of an event that finds the queue full (R384). -/
theorem State.mbox_deliver_full (s : State) (n : Nat) (e : EvEntry) (h : (s.mbox n).queued = 63) :
    (s.deliver e n).mbox n = { s.mbox n with evqOverflow := true, evqLost := inc16 (s.mbox n).evqLost } := by
  have hd : ({ s.mbox n with evqOverflow := true, evqLost := inc16 (s.mbox n).evqLost } : Mailbox) ≠ mbDefault n := by
    intro he
    have := congrArg Mailbox.evqOverflow he
    simp only [mbDefault] at this
    split at this <;> simp at this
  have h1 := Tab.get_put_self_of_ne hd s.mgmt.mbox n
  unfold State.mbox
  rw [State.mgmt_deliver_full s n e h]
  exact h1

/-- An event for one mailbox leaves every other one. -/
theorem State.mbox_deliver_full_other (s : State) {j n : Nat} (e : EvEntry) (h : (s.mbox n).queued = 63) (hj : j ≠ n) :
    (s.deliver e n).mbox j = s.mbox j := by
  unfold State.mbox
  rw [State.mgmt_deliver_full s n e h]
  exact Tab.get_put_other _ _ _ _ hj

/-- A delivered event leaves the event log. -/
theorem State.log_deliver (s : State) (e : EvEntry) (n : Nat) : (s.deliver e n).mgmt.log = s.mgmt.log := by
  unfold State.deliver
  extract_lets m copied s1
  have hc : copied.mgmt.log = s.mgmt.log := by
    simp only [copied]
    split <;> rfl
  repeat' split
  all_goals exact hc

end Sys2Proof.Machine
end

