-- ==== Sys2Proof/Laws/Operands.lean ====
section
/-!
SUPPORT. Laws of the operand forms: byte strings and the numbers that they spell, fields of structures, and cells that hold byte strings.
-/

namespace Sys2Proof.Machine

/-! ### Byte strings -/

@[simp] theorem bytesOf_length (n v : Nat) : (bytesOf n v).length = n := by simp [bytesOf]

theorem natOf_append (l : List Byte) (b : Byte) : natOf (l ++ [b]) = natOf l + b.toNat * 256 ^ l.length := by
  induction l with
  | nil => simp [natOf]
  | cons a r ih =>
    simp only [List.cons_append, natOf, ih, List.length_cons, Nat.pow_succ]
    rw [Nat.mul_add, ← Nat.add_assoc]
    congr 1
    rw [Nat.mul_comm (256 ^ r.length) 256, Nat.mul_left_comm]

/-- The number that the `n` low bytes of a number spell. -/
theorem natOf_bytesOf (n v : Nat) : natOf (bytesOf n v) = v % 256 ^ n := by
  induction n with
  | zero => simp [bytesOf, natOf, Nat.mod_one]
  | succ n ih =>
    have hb : bytesOf (n + 1) v = bytesOf n v ++ [BitVec.ofNat 8 (v >>> (8 * n))] := by simp [bytesOf, List.range_succ]
    have hp : (2 : Nat) ^ (8 * n) = 256 ^ n := by rw [Nat.pow_mul]
    rw [hb, natOf_append, ih, bytesOf_length, BitVec.toNat_ofNat, Nat.shiftRight_eq_div_pow, hp, show (2 : Nat) ^ 8 = 256 by decide,
      Nat.pow_succ 256 n, Nat.mod_mul, Nat.mul_comm (v / 256 ^ n % 256)]

/-! ### Fields -/

/-- A field above the first of a structure is a field of the rest. -/
theorem fbv_packBits_cons (v w : Nat) (r : List (Nat × Nat)) (lo k : Nat) (h : w ≤ lo) : fbv (packBits ((v, w) :: r)) lo k = fbv (packBits r) (lo - w) k := by
  have hs : packBits ((v, w) :: r) >>> lo = packBits r >>> (lo - w) := by
    have hl : lo = w + (lo - w) := by omega
    conv_lhs => rw [hl]
    rw [Nat.shiftRight_add, packBits, Nat.shiftRight_eq_div_pow _ w, Nat.add_mul_div_left _ _ (Nat.two_pow_pos w),
      Nat.div_eq_of_lt (Nat.mod_lt _ (Nat.two_pow_pos w)), Nat.zero_add]
  simp only [fbv, hs]

/-- The first field of a structure. -/
theorem fbv_packBits_head (v w : Nat) (r : List (Nat × Nat)) : fbv (packBits ((v, w) :: r)) 0 w = BitVec.ofNat w v := by
  apply BitVec.eq_of_toNat_eq
  simp [fbv, packBits, Nat.add_mul_mod_self_left]

/-- A field is the number of the bit vector that it spells. -/
theorem fld_eq_fbv (v lo k : Nat) : fld v lo k = (fbv v lo k).toNat := by simp [fld, fbv]

/-- A number field above the first of a structure is a field of the rest. -/
theorem fld_packBits_cons (v w : Nat) (r : List (Nat × Nat)) (lo k : Nat) (h : w ≤ lo) : fld (packBits ((v, w) :: r)) lo k = fld (packBits r) (lo - w) k := by
  rw [fld_eq_fbv, fbv_packBits_cons _ _ _ _ _ h, ← fld_eq_fbv]

/-- The first number field of a structure. -/
theorem fld_packBits_head (v w : Nat) (r : List (Nat × Nat)) : fld (packBits ((v, w) :: r)) 0 w = v % 2 ^ w := by
  rw [fld_eq_fbv, fbv_packBits_head, BitVec.toNat_ofNat]

/-- The first flag of a structure. -/
theorem bitOf_packBits_head (b : Bool) (r : List (Nat × Nat)) : bitOf (packBits ((b2n b, 1) :: r)) 0 = b := by
  cases b <;> simp [bitOf, packBits, b2n, Nat.testBit_zero]

/-- A flag above the first field of a structure is a flag of the rest. -/
theorem bitOf_packBits_cons (v w : Nat) (r : List (Nat × Nat)) (lo : Nat) (h : w ≤ lo) : bitOf (packBits ((v, w) :: r)) lo = bitOf (packBits r) (lo - w) := by
  have hl : lo = w + (lo - w) := by omega
  conv_lhs => rw [hl]
  rw [bitOf, ← Nat.testBit_shiftRight, packBits, Nat.shiftRight_eq_div_pow, Nat.add_mul_div_left _ _ (Nat.two_pow_pos w),
    Nat.div_eq_of_lt (Nat.mod_lt _ (Nat.two_pow_pos w)), Nat.zero_add, bitOf]

/-- A structure is below the power of two of its widths. -/
theorem packBits_lt (l : List (Nat × Nat)) : packBits l < 2 ^ (l.map Prod.snd).sum := by
  induction l with
  | nil => simp [packBits]
  | cons e r ih =>
    obtain ⟨v, w⟩ := e
    simp only [packBits, List.map_cons, List.sum_cons, Nat.pow_add]
    have hv := Nat.mod_lt v (Nat.two_pow_pos w)
    have := Nat.mul_le_mul_left (2 ^ w) (Nat.succ_le_of_lt ih)
    rw [Nat.mul_succ] at this
    omega

/-! ### Cells -/

/-- Writing bytes keeps the canonical form. -/
theorem cellsWrite_wf (m : List Host.Cell) (a : Nat) (l : List Byte) (h : Tab.wf 0 m = true) : Tab.wf 0 (cellsWrite m a l) = true := by
  induction l generalizing m a with
  | nil => exact h
  | cons b r ih => exact ih _ _ (Tab.wf_put 0 b a h)

/-- Bytes below those written stay. -/
theorem get_cellsWrite_below (m : List Host.Cell) (a : Nat) (l : List Byte) {j : Nat} (h : j < a) : Tab.get 0 (cellsWrite m a l) j = Tab.get 0 m j := by
  induction l generalizing m a with
  | nil => rfl
  | cons b r ih => exact (ih _ _ (by omega)).trans (Tab.get_put_other 0 0 b m (by omega))

/-- Bytes above those written stay. -/
theorem get_cellsWrite_above (m : List Host.Cell) (a : Nat) (l : List Byte) {j : Nat} (h : a + l.length ≤ j) : Tab.get 0 (cellsWrite m a l) j = Tab.get 0 m j := by
  induction l generalizing m a with
  | nil => rfl
  | cons b r ih =>
    simp only [List.length_cons] at h
    exact (ih _ _ (by omega)).trans (Tab.get_put_other 0 0 b m (by omega))

/-- A byte that is written is read back. -/
theorem get_cellsWrite (m : List Host.Cell) (a : Nat) (l : List Byte) (hm : Tab.wf 0 m = true) {i : Nat} (h : i < l.length) :
    Tab.get 0 (cellsWrite m a l) (a + i) = l[i] := by
  induction l generalizing m a i with
  | nil => simp at h
  | cons b r ih =>
    cases i with
    | zero =>
      rw [Nat.add_zero]
      exact (get_cellsWrite_below (Tab.put 0 m a b) (a + 1) r (by omega)).trans (Tab.get_put_self 0 b a hm)
    | succ i =>
      have := ih (Tab.put 0 m a b) (a + 1) (Tab.wf_put 0 b a hm) (i := i) (by simpa using h)
      rw [show a + 1 + i = a + (i + 1) by omega] at this
      exact this

/-- A part of a byte string that is written is read back. -/
theorem cellsRead_cellsWrite (l : List Byte) (a n : Nat) (h : a + n ≤ l.length) : cellsRead (cellsWrite [] 0 l) a n = (l.drop a).take n := by
  apply List.ext_getElem
  · simp [cellsRead]; omega
  · intro i h1 h2
    have hi : i < n := by simpa [cellsRead] using h1
    have := get_cellsWrite [] 0 l rfl (i := a + i) (by omega)
    rw [Nat.zero_add] at this
    simpa [cellsRead] using this

/-- The number in a byte more. -/
theorem natOf_map_range (f g : Nat → Byte) (n j : Nat) (hg : g j = 0) (hf : ∀ i, i ≠ j → f i = g i) :
    natOf ((List.range n).map f) = natOf ((List.range n).map g) + if j < n then (f j).toNat * 256 ^ j else 0 := by
  induction n with
  | zero => simp [natOf]
  | succ n ih =>
    rw [List.range_succ, List.map_append, List.map_append, List.map_singleton, List.map_singleton, natOf_append, natOf_append, ih]
    simp only [List.length_map, List.length_range]
    by_cases hj : j = n
    · subst hj
      simp [hg]
    · rw [hf n (Ne.symm hj)]
      by_cases hlt : j < n
      · rw [if_pos hlt, if_pos (by omega)]; omega
      · rw [if_neg hlt, if_neg (by omega)]; omega

/-- The number in cells that are in canonical form is the number that their bytes spell. -/
theorem cellsNat_eq (m : List Host.Cell) (a n : Nat) (h : Tab.wf 0 m = true) : cellsNat m a n = natOf (cellsRead m a n) := by
  have key : ∀ (m : List Host.Cell) (acc : Nat), Tab.wf 0 m = true →
      m.foldl (fun acc c => if a ≤ c.1 ∧ c.1 < a + n then acc + c.2.toNat * 2 ^ (8 * (c.1 - a)) else acc) acc = acc + natOf (cellsRead m a n) := by
    intro m
    induction m with
    | nil =>
      intro acc _
      have h0 := natOf_bytesOf n 0
      have hr : cellsRead [] a n = bytesOf n 0 := by simp [cellsRead, bytesOf]
      rw [hr, h0, Nat.zero_mod]
      rfl
    | cons e r ih =>
      obtain ⟨k, v⟩ := e
      intro acc hm
      simp only [Tab.wf, Bool.and_eq_true, decide_eq_true_eq] at hm
      rw [List.foldl_cons, ih _ hm.2]
      by_cases hk : a ≤ k
      · have hn := natOf_map_range (fun i => Tab.get 0 ((k, v) :: r) (a + i)) (fun i => Tab.get 0 r (a + i)) n (k - a)
          (by rw [show a + (k - a) = k by omega]; exact Tab.get_of_above 0 hm.1.1) (fun i hi => by simp only [Tab.get]; rw [if_neg (by omega)])
        have hv : Tab.get 0 ((k, v) :: r) (a + (k - a)) = v := by rw [show a + (k - a) = k by omega]; simp [Tab.get]
        simp only [hv] at hn
        simp only [cellsRead, hn, Nat.pow_mul, show (2 : Nat) ^ 8 = 256 by decide]
        by_cases hlt : k < a + n
        · rw [if_pos ⟨hk, hlt⟩, if_pos (by omega)]; omega
        · rw [if_neg (fun h => hlt h.2), if_neg (by omega)]; omega
      · have hr : cellsRead ((k, v) :: r) a n = cellsRead r a n := by
          simp only [cellsRead]
          apply List.map_congr_left
          intro i _
          simp only [Tab.get]
          rw [if_neg (by omega)]
        rw [hr, if_neg (fun h => hk h.1)]
  have := key m 0 h
  rw [Nat.zero_add] at this
  exact this

end Sys2Proof.Machine
end

