-- ==== Sys2Proof/Tests/Slice0.lean ====
section
/-!
SUPPORT. Tests: what WellFormed refuses, and for each statement with hypotheses a state and operands that meet them.
-/

namespace Sys2Proof.Tests

set_option linter.unusedVariables false

open Sys2Proof.Machine

/-- A machine in stage READY whose mailbox `mb` holds a command of an open session, with a payload of `len` bytes, and whatever `f` adds. -/
def held (mb op len pl : Nat) (f : State → State) : State :=
  f { State.reset with
    mgmt := { available := true, stage := stageReady,
              mbox := [(mb, { mbDefault mb with
                busy := true, session := some { token := 1, lease := 60, leaseEnd := 60000000000 },
                cmd := cellsWrite [] 0 (bytesOf 16 (op + len * 2 ^ 32 + 2 ^ 64) ++ bytesOf len pl) })] } }

/-- One configured port. -/
def onePort (p : Nat) (x : Port) (s : State) : State := { s with ports := [(p, { x with configured := true })] }


/-- Instance 1 of the shared endpoint on port 0, owned by partition 0. -/
def anInst : InstRec := { owner := 0, log2 := 12, base := 0, buffer := 18, credits := 1, meter := none, mover := 1, xlate := 4, firstXlate := 0 }

/-- A shared endpoint on port 0 with that instance in state `g`. -/
def oneInst (g : InstState) (s : State) : State :=
  { onePort 0 { width := 4 } s with
    fabric := { tables := { policy := { shared := [(0, some ⟨4, 0, 0, 0⟩)], inst := [(1, some anInst)] } } }
    parts := { insts := [(1, { state := g })] } }

/-- An exchange record of a partner that offers Quad Sleep. -/
def anExchange : ExchangeRec :=
  { ver := 1, kind := 1, width := 4, geid := 0, vcMask := 0xFF, credit := List.replicate 8 64, features := 4, depth := 16, uid := 0, portNum := 0, peerSeen := true }

/-- A machine in stage READY with its core die on, whose mailboxes are served. -/
def awake : State :=
  { State.reset with mgmt := { available := true, stage := stageReady }, power := { State.reset.power with started := true, coreOn := true } }

/-- Mailbox 5 belongs to partition 7. -/
def tenant5 : State := { awake with mgmt := { awake.mgmt with mbox := [(5, { mbDefault 5 with owner := 7 })] } }
/-- Partition 7 reads the event queue of that mailbox, or writes its EVQ_HEAD. -/
def pageRead : Frame := { hdr := { type := tyMemRead, part := 7, addr := 0x10000 + 5 * 0x4000 + 0x3000, tw := 32 } }
def pageWrite : Frame := { hdr := { type := tyMemWrite, part := 7, addr := 0x10000 + 5 * 0x4000 + 0x2010, length := 8 }, payload := bytesOf 8 1 }
/-- A remote command for that mailbox. -/
def remoteReq : Frame := { hdr := { part := 7, length := 32 }, payload := bytesOf 32 5 }

/-- A quad-wide port 0. -/
def portAt (x : Port) : State := onePort 0 { x with width := 4 } awake
/-- A lane with FEC lock and a marker. -/
def aLane : Lane := { fecLock := true, marker := some 0 }

/-- A record of another switch, and a port to it. -/
def aRecord : LinkStateRec := { sw := 9, uid := 77, seq := 1, nbrs := [] }
def neighbour : State := { portAt { stage := .active } with fabric := { partners := [(0, { kind := 1 })] } }
/-- An exchange of time messages. -/
def aTimeMsg : TimeMsg := { t1 := 0, t2 := 10, t3 := 20, t4 := 30, timeNs := 1000, gmPrio := 1, gmId := 9, hops := 0 }

/-- A whole frame on VC0 of port 0 that lookup has passed. -/
def aFrame : FrameRec := { frame := { hdr := {} }, src := 0, vc := 0, born := 0, place := .lookedUp }
/-- Frame 0 at the head of VC0 of port 0. -/
def waitingFrame (r : FrameRec) : State := { awake with car := { awake.car with frames := [(0, some r)], waiting := [(0, [0])] } }
def noInstRoom : State :=
  { waitingFrame { aFrame with fromInst := some (0, 1) } with
    fabric := { tables := { policy := { shared := [(0, some ⟨4, 0, 0, 0⟩)], inst := [(1, some { anInst with buffer := 0 })] } } } }
def noVoqRoom : State := { waitingFrame aFrame with car := { (waitingFrame aFrame).car with voqLimit := [(0, some 0)] } }
/-- A cell of frame 0 at output 0. -/
def aCell : Cell := { uid := 0, out := 0, egress := 0, src := 0, vc := 0, first := true, last := true, cidx := 0, cseq := 0, prevMid := 0, inc := 0, born := 0 }
def arrived (f : State → State) : State := f { portAt { stage := .active } with car := { awake.car with frames := [(0, some aFrame)], arrivals := [(0, [aCell])] } }
/-- A PCI Express port with frame 0 in its merge queue. -/
def mqAtZero : State :=
  { portAt { pcie := true, stage := .pcieL0 } with
    car := { awake.car with frames := [(0, some aFrame)] }
    sched := { awake.sched with ports := [(0, { queues := [(9, { frames := [0] })] })] } }
def peakSpent : State := { portAt { pcie := true, stage := .pcieL0 } with sched := { awake.sched with ports := [(0, { portPeak := { rate := 1, level := -1 } })] } }
def aGate : GateList := { cycle := 2000, entries := [(1, 1000), (2, 1000)] }

/-- A running descriptor ring of the instance, a tag of Juggler 0 in use by it, and a completion that does not end its request. -/
def theRing : MoverRing := { inst := 1, state := .running }
def aRing : State := { oneInst .active awake with jug := { awake.jug with rings := [(0, some theRing)] } }
def aMoverTag : State :=
  { awake with
    jug := { awake.jug with engines := [(0, { tags := [(0, some { ring := 0, read := .flush 0 })] })] }
    fabric := { tags := [(tagKey (awake.geid 3) 0, some { dst := 0, cls := 0, partition := 0 })] } }
def partCpl : Frame := { hdr := { type := tyCompletion, tw := 64 } }
/-- The instance after RESET_REQ of a forced reset. -/
def resetting : State :=
  { oneInst .resetting awake with parts := { insts := [(1, { state := .resetting, forced := true, icb := { resetReq := true } })] } }
/-- A PCI Express port with its link up, and a hierarchy of one vDSP at it. -/
def tlpPortAt (up : Bool) : State := portAt { pcie := true, upstream := up, stage := .pcieL0 }
def hostPort : State := { tlpPortAt true with fabric := { tables := { policy := { vh := [(0, some { port := 0, vdsps := 1 })] } } } }
def aTlp : Tlp := { kind := .memRead, len := 4 }
/-- A shared port. -/
def sharedUp : State := { portAt { stage := .active } with fabric := { tables := { policy := { trust := [(0, 2)] } } } }
/-- A vDSP whose target stands in slot 2. -/
def slotted : State :=
  { portAt {} with fabric := { tables := { endpoint := [(16, some (.port 0 0))], policy := { bind := [(0, some (.endpoint 16))] } }, switchId := 0, partners := [(0, { slot := 2 })] } }
def queuedCpl : State := { tlpPortAt true with car := { awake.car with frames := [(0, some { aFrame with frame := partCpl, place := .queued })] } }
def aCplTlp : Tlp := { kind := .completion, hdrDw := 3 }
def tlpCpl : Frame := { hdr := { type := tyPcie, subtype := 2, length := 12 }, tlp := some aCplTlp }
def tagAtPort : State := { tlpPortAt true with fabric := { tags := [(0, some { dst := 0, cls := 0, partition := 0 })] } }

/-- A fence of Patchwork A, a live port A of one personality, with a window onto its bus, and what it may hold. -/
def aPwFence : Fence := { unit := pwUnit .a, source := 0, error := 0 }
def pwWrite (n : Nat) : Frame := { hdr := { type := tyMemWrite, length := BitVec.ofNat 13 n }, payload := bytesOf n 0 }
def pwRecordOf (n : Nat) : PwRecord := { frame := pwWrite n, born := 0, op := .write, window := 0, off := 0, len := n, data := bytesOf n 0, beat := 3, block := true }
def pwCas : Frame := { hdr := { type := tyAtomic, subtype := 3, length := 16 }, payload := bytesOf 16 0 }
def pwCasRecord : PwRecord := { frame := pwCas, born := 0, op := .rmw 3, window := 0, off := 0, len := 16, data := bytesOf 16 0, beat := 3, block := true }
def pwRead : Frame := { hdr := { type := tyMemRead, tw := 4 } }
def pwReadRecord : PwRecord := { frame := pwRead, born := 0, op := .read, window := 0, off := 0, len := 4, data := [], beat := 3, block := true }
def outWindow : PwWindow := { valid := true, sizeLog2 := 16 }
def pwLiveState (e : Personality) : State := { awake with pwA := { personality := e } }
def pwWindowed (e : Personality) : State := { awake with pwA := { personality := e, windows := [(0, outWindow)] } }
def pwStored : State := { awake with pwA := { personality := .pci, windows := [(0, outWindow)], store := [pwRecordOf 4] } }
def aSeq : PwSeq := { record := pwRecordOf 4, win := {}, beats := [] }
def aPwEntry (g : InboundState) : PwEntry := { cycle := {}, window := 0, state := g }
def pwReading (e : Personality) (g : InboundState) : State := { awake with pwA := { personality := e, entries := [(3, some (aPwEntry g))] } }
def aBuffer : PwPrefetch := { window := 0, src := 0, partition := 0, addr := 0, busAddr := 0, data := [] }

/-- Channel 0 of slot power. -/
def chanAt (x : Chan) : State := { awake with slots := { chans := [(0, x)] } }

/-- Units, a test of one in phase `n`, a draining middle buffer under test, and a counting monitor. -/
def aUnit : UnitId := unitOf 1 0
def aMidUnit : UnitId := unitOf 5 3
def aTest (n : Nat) : BistRec := { unit := aUnit, result := BitVec.ofNat 3 n, active := true }
def testing (n : Nat) : State := { awake with bist := { awake.bist with records := [(aUnit.key, some (aTest n))] } }
def draining : State :=
  { awake with
    bist := { awake.bist with records := [(aMidUnit.key, some { unit := aMidUnit, result := 1, active := true })] }
    car := { awake.car with mids := [(3, { state := .draining })] } }
def counting (n : Nat) : State :=
  { awake with bist := { awake.bist with pmons := [(0, { counters := [(0, { ctl := BitVec.ofNat 32 (512 + 32768 * (n / 2)) })] })] } }
def fullSamples : State :=
  { awake with bist := { awake.bist with
      pmons := [(0, { counters := [(0, { ctl := BitVec.ofNat 32 (512 + 32768) })], samples := List.replicate 64 { cycles := 0, k := 0, event := 0, ctx := 0 } })] } }

/-- The core die off, with the rails at one point of their plan; and rising, with every rail enabled and none good. -/
def planned (p : RailPlan) : State := { State.reset with power := { State.reset.power with started := true, plan := p } }
def rising : State := { State.reset with power := { State.reset.power with started := true, plan := .up, en := [true, true, true, true, true] } }

/-- A machine in stage READY whose mailbox `mb` has no session and holds a command whose header starts with `v`. -/
def noSession (mb v : Nat) : State :=
  { State.reset with
    mgmt := { available := true, stage := stageReady,
              mbox := [(mb, { mbDefault mb with busy := true, cmd := cellsWrite [] 0 (bytesOf 16 v ++ [0, 0, 0, 0]) })] } }

/-- SYS_RESET again, after its response has been stored. -/
def storedOnce : State :=
  { held 0 0x0E02 1 0 id with
    mgmt := { available := true, stage := stageReady,
              mbox := [(0, { (held 0 0x0E02 1 0 id).mbox 0 with
                stored := some { opcode := 0x0E02, tag := 0, session := 1, resp := [(0, 2), (1, 14)] } })] } }

/-- MB0 with 63 entries in its event queue. -/
def fullQueue : State := { State.reset with mgmt := { mbox := [(0, { mbDefault 0 with evqTail := 63 })] } }

theorem witness_SystemCommandsAct_1 : ∃ (s : State) (mb : Mb) (pl : Nat), s.Admits { opcode := 0x0000, priv := false, open_ := true, recovery := true, stopped := true, query := true } mb pl ∧ breaksTiming (s.begun mb) ((s.begun mb)) = false :=
  ⟨(held 0 0x0000 0 (0) id), 0, 0, by unfold State.Admits; decide, by decide⟩

theorem witness_SystemCommandsAct_2 : ∃ (s : State) (mb : Mb) (pl : Nat), s.Admits { opcode := 0x0001, priv := true, len := fun _ => 1, fields := [(0, 7)] } mb pl ∧ s.puHome (fld pl 0 7) = true ∧ breaksTiming (s.begun mb) ((s.begun mb).modMgmt fun m => { m with homeRm := fld pl 0 7 }) = false :=
  ⟨(held 0 0x0001 1 (127) id), 0, 127, by unfold State.Admits; decide, by decide, by decide⟩

theorem witness_SystemCommandsAct_3 : ∃ (s : State) (mb : Mb) (pl : Nat) (p : Nat) (l : List Nat), s.Admits { opcode := 0x0002, priv := true, len := fun _ => 4, fields := [(0, 1), (1, 1), (2, 1), (3, 8), (11, 1), (16, 12)] } mb pl ∧ bitOf pl 0 = false ∧ bitOf pl 1 = true ∧ bitOf pl 2 = false ∧ s.portNamed (fld pl 3 8) (fld pl 11 1) = some p ∧ addTo 8 s.mgmt.portList p = some l ∧ breaksTiming (s.begun mb) ((s.begun mb).modMgmt fun m => { m with portList := l }) = false :=
  ⟨(held 0 0x0002 4 (2) (onePort 0 {})), 0, 2, 0, [0], by unfold State.Admits; decide, by decide, by decide, by decide, by decide, by decide, by decide⟩

theorem witness_SystemCommandsAct_4 : ∃ (s : State) (mb : Mb) (pl : Nat), s.Admits { opcode := 0x0002, priv := true, len := fun _ => 4, fields := [(0, 1), (1, 1), (2, 1), (3, 8), (11, 1), (16, 12)] } mb pl ∧ bitOf pl 0 = false ∧ bitOf pl 1 = false ∧ bitOf pl 2 = false ∧ breaksTiming (s.begun mb) ((s.begun mb).modMgmt fun m => { m with portList := s.mgmt.portList.filter fun x => decide (x ≠ 2 * fld pl 3 8 + fld pl 11 1) }) = false :=
  ⟨(held 0 0x0002 4 (0) id), 0, 0, by unfold State.Admits; decide, by decide, by decide, by decide, by decide⟩

theorem witness_SystemCommandsAct_5 : ∃ (s : State) (mb : Mb) (pl : Nat) (l : List (BitVec 12)), s.Admits { opcode := 0x0002, priv := true, len := fun _ => 4, fields := [(0, 1), (1, 1), (2, 1), (3, 8), (11, 1), (16, 12)] } mb pl ∧ bitOf pl 0 = true ∧ bitOf pl 1 = true ∧ bitOf pl 2 = false ∧ addTo 8 s.mgmt.switchList (fbv pl 16 12) = some l ∧ breaksTiming (s.begun mb) ((s.begun mb).modMgmt fun m => { m with switchList := l }) = false :=
  ⟨(held 0 0x0002 4 (0x0FFF0003) id), 0, 0x0FFF0003, [0xFFF], by unfold State.Admits; decide, by decide, by decide, by decide, by decide, by decide⟩

theorem witness_SystemCommandsAct_6 : ∃ (s : State) (mb : Mb) (pl : Nat), s.Admits { opcode := 0x0002, priv := true, len := fun _ => 4, fields := [(0, 1), (1, 1), (2, 1), (3, 8), (11, 1), (16, 12)] } mb pl ∧ bitOf pl 0 = true ∧ bitOf pl 1 = false ∧ bitOf pl 2 = true ∧ breaksTiming (s.begun mb) (((s.begun mb).modMgmt fun m => { m with switchList := s.mgmt.switchList.filter fun x => decide (x ≠ fbv pl 16 12) }).modMgmt fun m => m.writeDir fun d => { d with portList := m.portList, switchList := m.switchList }) = false :=
  ⟨(held 0 0x0002 4 (5) id), 0, 5, by unfold State.Admits; decide, by decide, by decide, by decide, by decide⟩

theorem witness_SystemCommandsAct_7 : ∃ (s : State) (mb : Mb) (pl : Nat) (l : List LogEntry), s.Admits { opcode := 0x0003, priv := true, stopped := true, query := true, len := fun _ => 3, fields := [(0, 16), (16, 7)], checks := fun pl => [(16, decide (fld pl 16 7 ≠ 0))] } mb pl ∧ (l = (s.mgmt.log.filter fun e => decide ((e.entry.eseq - fbv pl 0 16).toNat < 32768)).take (fld pl 16 7)) ∧ breaksTiming (s.begun mb) ((s.begun mb)) = false :=
  ⟨(held 0 0x0003 3 (0x7F0000) id), 0, 0x7F0000, [], by unfold State.Admits; decide, by decide, by decide⟩

theorem witness_SystemCommandsAct_8 : ∃ (s : State) (mb : Mb) (pl : Nat) (m : Mailbox), s.Admits { opcode := 0x0004, priv := false, open_ := true, query := true } mb pl ∧ m = (s.begun mb).mbox mb ∧ breaksTiming (s.begun mb) ((s.begun mb)) = false :=
  ⟨(held 0 0x0004 0 (0) id), 0, 0, (((held 0 0x0004 0 0 id).begun 0).mbox 0), by unfold State.Admits; decide, rfl, by decide⟩

theorem witness_SessionCommandsAct_1 : ∃ (s : State) (mb : Mb) (pl lease : Nat), s.Admits { opcode := 0x0100, priv := false, open_ := true, recovery := true, stopped := true, len := fun _ => 4, fields := [(0, 1), (16, 12)], checks := fun pl => [(16, decide (fld pl 16 12 ≤ 3600))] } mb pl ∧ ((s.mbox mb).session = none ∨ bitOf pl 0 = true) ∧ lease = (if fld pl 16 12 = 0 then 60 else fld pl 16 12) := ⟨held 0 0x0100 4 1 id, 0, 1, 60, by unfold State.Admits; decide, by decide, by decide⟩

theorem witness_SessionCommandsAct_2 : ∃ (s : State) (mb : Mb) (pl : Nat), s.Admits { opcode := 0x0101, priv := false, recovery := true, stopped := true } mb pl ∧ breaksTiming (s.begun mb) ((s.begun mb).endSession mb 1) = false :=
  ⟨(held 0 0x0101 0 (0) id), 0, 0, by unfold State.Admits; decide, by decide⟩

theorem witness_SessionCommandsAct_3 : ∃ (s : State) (mb : Mb) (pl : Nat), s.Admits { opcode := 0x0102, priv := false, stopped := true, len := fun _ => 2, fields := [(0, 16)] } mb pl ∧ breaksTiming (s.begun mb) ((s.begun mb).modMbox mb fun m => { m with subs := fbv pl 0 16 }) = false :=
  ⟨(held 0 0x0102 2 (0x1234) id), 0, 0x1234, by unfold State.Admits; decide, by decide⟩

theorem witness_SessionCommandsAct_4 : ∃ (s : State) (mb : Mb) (pl : Nat), s.Admits { opcode := 0x0103, priv := false, stopped := true, len := fun _ => 20, fields := [(0, 1), (1, 1), (2, 1), (12, 20), (64, 64), (128, 32)], checks := fun pl => [(64, decide (fld pl 64 2 = 0))] } mb pl ∧ breaksTiming (s.begun mb) ((s.begun mb).modMbox mb fun m => { m with notify := { enable := bitOf pl 0, onDone := bitOf pl 1, onEvent := bitOf pl 2, geid := fbv pl 12 20, addr := fbv pl 64 64, data := fbv pl 128 32 } }) = false :=
  ⟨(held 0 0x0103 20 (7) id), 0, 7, by unfold State.Admits; decide, by decide⟩

theorem witness_PortCommandsAct_1 : ∃ (s : State) (mb : Mb) (pl q sub w n : Nat) (quads : List Nat), s.Admits { opcode := 0x0200, priv := true, len := fun _ => 4, fields := [(0, 8), (8, 2), (10, 3), (13, 1), (14, 3), (17, 1), (18, 2), (20, 1)], checks := fun pl => let mode := fld pl 8 2; let w := fld pl 10 3; [(0, decide (fld pl 0 8 < 128)), (8, decide (mode ≠ 3)), (10, decide (w ≤ 4) && !(decide (mode = 0) && decide (w < 2)) && !(decide (mode = 2) && decide (w ≠ 0))), (13, !(bitOf pl 13) || (decide (mode = 1) && decide (w ≤ 1))), (14, decide (fld pl 14 3 ≤ 5) && (decide (mode = 1) || decide (fld pl 14 3 = 0))), (17, decide (mode = 1) || !bitOf pl 17), (18, decide (fld pl 18 2 ≠ 3) && (decide (mode = 1) || decide (fld pl 18 2 = 0))), (20, !(decide (mode = 2) && bitOf pl 20))] } mb pl ∧ q = fld pl 0 8 ∧ sub = fld pl 13 1 ∧ w = 2 ^ fld pl 10 3 ∧ n = (if w = 16 then 4 else if w = 8 then 2 else 1) ∧ quads = (List.range n).map (q + ·) ∧ fld pl 8 2 ≠ 2 ∧ q % n = 0 ∧ q + n ≤ 128 ∧ (sub = 1 → (s.port (2 * q)).configured = true ∧ (s.port (2 * q)).pcie = true ∧ (s.port (2 * q)).width ≤ 2) ∧ s.configureRefusal quads (s.portsIn quads) = none := ⟨held 0 0x0200 4 (124 + 4 * 1024) id, 0, 124 + 4 * 1024, 124, 0, 16, 4, [124, 125, 126, 127], by unfold State.Admits; decide, by decide⟩

theorem witness_PortCommandsAct_2 : ∃ (s : State) (mb : Mb) (pl : Nat) (p : Nat), s.Admits { opcode := 0x0200, priv := true, len := fun _ => 4, fields := [(0, 8), (8, 2), (10, 3), (13, 1), (14, 3), (17, 1), (18, 2), (20, 1)], checks := fun pl => let mode := fld pl 8 2; let w := fld pl 10 3; [(0, decide (fld pl 0 8 < 128)), (8, decide (mode ≠ 3)), (10, decide (w ≤ 4) && !(decide (mode = 0) && decide (w < 2)) && !(decide (mode = 2) && decide (w ≠ 0))), (13, !(bitOf pl 13) || (decide (mode = 1) && decide (w ≤ 1))), (14, decide (fld pl 14 3 ≤ 5) && (decide (mode = 1) || decide (fld pl 14 3 = 0))), (17, decide (mode = 1) || !bitOf pl 17), (18, decide (fld pl 18 2 ≠ 3) && (decide (mode = 1) || decide (fld pl 18 2 = 0))), (20, !(decide (mode = 2) && bitOf pl 20))] } mb pl ∧ fld pl 8 2 = 2 ∧ s.portNamed (fld pl 0 8) 0 = some p ∧ s.configureRefusal (s.quadsOf p) [p] = none ∧ (s.port (2 * fld pl 0 8 + 1)).configured = false ∧ breaksTiming (s.begun mb) ((s.begun mb).removePort p) = false :=
  ⟨(held 0 0x0200 4 (512 + 127) (onePort 254 { width := 4 })), 0, 512 + 127, 254, by unfold State.Admits; decide, by decide, by decide, by decide, by decide, by decide⟩

theorem witness_PortCommandsAct_3 : ∃ (s : State) (mb : Mb) (pl : Nat) (p : Nat), s.Admits { opcode := 0x0201, priv := true, len := fun _ => 2, fields := [(0, 8), (8, 1), (9, 2)] } mb pl ∧ s.portNamed (fld pl 0 8) (fld pl 8 1) = some p ∧ fld pl 9 2 = 0 ∧ (s.portHeld s.fenced p || s.portOff p || s.portHeld s.underTest p || s.portHeld s.marked p) = false ∧ breaksTiming (s.begun mb) (((s.begun mb).modPort p fun x => { x with failCount := 0, firstFail := true, waiting := false }).modPort p fun x => if x.stage = .disabled then { x with stage := if x.pcie then .pcieTraining else .detect, failCount := 0, firstFail := true, partials := 0, waiting := false, retrain := false, clockLost := false, loopback := 0 } else x) = false :=
  ⟨(held 0 0x0201 2 (0) (fun s => { onePort 0 { width := 4 } s with power := { quadOn := [(0, true)] } })), 0, 0, 0, by unfold State.Admits; decide, by decide, by decide, by decide, by decide⟩

theorem witness_PortCommandsAct_4 : ∃ (s : State) (mb : Mb) (pl : Nat) (p : Nat), s.Admits { opcode := 0x0201, priv := true, len := fun _ => 2, fields := [(0, 8), (8, 1), (9, 2)] } mb pl ∧ s.portNamed (fld pl 0 8) (fld pl 8 1) = some p ∧ fld pl 9 2 = 1 ∧ (s.port p).stage ≠ .disabled ∧ breaksTiming (s.begun mb) ((((s.begun mb).goDown p .disabled rsAdmin 0).modPort p fun x => { x with partials := 0, waiting := false, retrain := false, clockLost := false, waking := false, loopback := 0 }).modLanes p fun l => { l with genEn := false, chkEn := false, prbsSync := false }) = false :=
  ⟨(held 0 0x0201 2 (512) (onePort 0 { width := 4, stage := .detect })), 0, 512, 0, by unfold State.Admits; decide, by decide, by decide, by decide, by decide⟩

theorem witness_PortCommandsAct_5 : ∃ (s : State) (mb : Mb) (pl : Nat) (p : Nat), s.Admits { opcode := 0x0201, priv := true, len := fun _ => 2, fields := [(0, 8), (8, 1), (9, 2)] } mb pl ∧ s.portNamed (fld pl 0 8) (fld pl 8 1) = some p ∧ fld pl 9 2 = 2 ∧ (s.port p).stage = .active ∧ (s.portHeld s.fenced p || s.portOff p || s.portHeld s.underTest p || s.portHeld s.marked p) = false ∧ breaksTiming (s.begun mb) ((s.begun mb).retrain p rsAdmin) = false :=
  ⟨(held 0 0x0201 2 (1024) (fun s => { onePort 0 { width := 4, stage := .active } s with power := { quadOn := [(0, true)] } })), 0, 1024, 0, by unfold State.Admits; decide, by decide, by decide, by decide, by decide, by decide⟩

theorem witness_PortCommandsAct_6 : ∃ (s : State) (mb : Mb) (pl : Nat) (p : Nat), s.Admits { opcode := 0x0201, priv := true, len := fun _ => 2, fields := [(0, 8), (8, 1), (9, 2)] } mb pl ∧ s.portNamed (fld pl 0 8) (fld pl 8 1) = some p ∧ fld pl 9 2 = 3 ∧ (s.port p).stage = .active ∧ (s.portHeld s.fenced p || s.portOff p || s.portHeld s.underTest p || s.portHeld s.marked p) = false ∧ breaksTiming (s.begun mb) (((s.begun mb).goDown p .detect rsAdmin 0).modPort p fun x => { x with partials := 0, retrain := false, clockLost := false, waking := false }) = false :=
  ⟨(held 0 0x0201 2 (1536) (fun s => { onePort 0 { width := 4, stage := .active } s with power := { quadOn := [(0, true)] } })), 0, 1536, 0, by unfold State.Admits; decide, by decide, by decide, by decide, by decide, by decide⟩

theorem witness_PortCommandsAct_7 : ∃ (s : State) (mb : Mb) (pl : Nat) (p : Nat), s.Admits { opcode := 0x0202, priv := false, query := true, len := fun _ => 2, fields := [(0, 8), (8, 1)] } mb pl ∧ s.portNamed (fld pl 0 8) (fld pl 8 1) = some p ∧ s.mayName mb (s.portOwner p) = true ∧ breaksTiming (s.begun mb) ((s.begun mb)) = false :=
  ⟨(held 0 0x0202 2 (3) (onePort 6 { width := 4 })), 0, 3, 6, by unfold State.Admits; decide, by decide, by decide, by decide⟩

theorem witness_LaneCommandsAct_1 : ∃ (s : State) (mb : Mb) (pl : Nat), s.Admits { opcode := 0x0203, priv := false, query := true, len := fun _ => 2, fields := [(0, 9)] } mb pl ∧ privilegedMb mb = true ∧ breaksTiming (s.begun mb) ((s.begun mb)) = false :=
  ⟨(held 0 0x0203 2 (511) id), 0, 511, by unfold State.Admits; decide, by decide, by decide⟩

theorem witness_LaneCommandsAct_2 : ∃ (s : State) (mb : Mb) (pl : Nat) (p : Nat), s.Admits { opcode := 0x0203, priv := false, query := true, len := fun _ => 2, fields := [(0, 9)] } mb pl ∧ s.portOfLane (fld pl 0 9) = some p ∧ s.mayName mb (s.portOwner p) = true ∧ breaksTiming (s.begun mb) ((s.begun mb)) = false :=
  ⟨(held 5 0x0203 2 (3) (onePort 0 { width := 4 })), 5, 3, 0, by unfold State.Admits; decide, by decide, by decide, by decide⟩

theorem witness_LaneCommandsAct_3 : ∃ (s : State) (mb : Mb) (pl : Nat), s.Admits { opcode := 0x0204, priv := true, len := fun _ => 8, fields := [(0, 9), (9, 1), (16, 48)], checks := fun pl => (List.range 6).map fun k => (16 + 8 * k, !(bitOf pl 9) || (decide ((tapRange k).1 ≤ fldSigned pl (16 + 8 * k) 8) && decide (fldSigned pl (16 + 8 * k) 8 ≤ (tapRange k).2))) } mb pl ∧ s.pcieLane (fld pl 0 9) = false ∧ breaksTiming (s.begun mb) ((s.begun mb).modLane (fld pl 0 9) fun l => { l with fixed := if bitOf pl 9 then some [fldSigned pl 16 8, fldSigned pl 24 8, fldSigned pl 32 8, fldSigned pl 40 8, fldSigned pl 48 8, fldSigned pl 56 8] else none }) = false :=
  ⟨(held 0 0x0204 8 (511 + 512 + 64 * 2 ^ 40) id), 0, 511 + 512 + 64 * 2 ^ 40, by unfold State.Admits; decide, by decide, by decide⟩

theorem witness_LaneCommandsAct_4 : ∃ (s : State) (mb : Mb) (pl : Nat) (p : Nat), s.Admits { opcode := 0x0205, priv := true, len := fun _ => 2, fields := [(0, 9), (9, 1), (10, 2), (12, 1), (13, 1), (14, 1)], checks := fun pl => [(10, decide (fld pl 10 2 ≠ 3))] } mb pl ∧ s.portOfLane (fld pl 0 9) = some p ∧ fld pl 10 2 ≠ 0 ∧ (bitOf pl 12 || bitOf pl 13) = true ∧ bitOf pl 9 = false ∧ ((s.port p).pcie && bitOf pl 14) = false ∧ s.diagRefusal p = none ∧ breaksTiming (s.begun mb) (((s.begun mb).modLane (fld pl 0 9) fun l => { l with prbs := fbv pl 10 2, genEn := bitOf pl 12, chkEn := bitOf pl 13, precode := bitOf pl 14, prbsSync := false, prbsRun := 0, prbsHist := [] }).diagStage p) = false :=
  ⟨(held 0 0x0205 2 (1024 + 4096) (fun s => { onePort 0 { width := 4 } s with power := { quadOn := [(0, true)] } })), 0, 1024 + 4096, 0, by unfold State.Admits; decide, by decide, by decide, by decide, by decide, by decide, by decide, by decide⟩

theorem witness_LaneCommandsAct_5 : ∃ (s : State) (mb : Mb) (pl : Nat) (p : Nat), s.Admits { opcode := 0x0205, priv := true, len := fun _ => 2, fields := [(0, 9), (9, 1), (10, 2), (12, 1), (13, 1), (14, 1)], checks := fun pl => [(10, decide (fld pl 10 2 ≠ 3))] } mb pl ∧ s.portOfLane (fld pl 0 9) = some p ∧ fld pl 10 2 ≠ 0 ∧ (bitOf pl 12 || bitOf pl 13) = true ∧ bitOf pl 9 = true ∧ ((s.port p).pcie && bitOf pl 14) = false ∧ s.diagRefusal p = none ∧ breaksTiming (s.begun mb) (((s.begun mb).modLanes p fun l => { l with prbs := fbv pl 10 2, genEn := bitOf pl 12, chkEn := bitOf pl 13, precode := bitOf pl 14, prbsSync := false, prbsRun := 0, prbsHist := [] }).diagStage p) = false :=
  ⟨(held 0 0x0205 2 (512 + 1024 + 8192) (fun s => { onePort 0 { width := 4 } s with power := { quadOn := [(0, true)] } })), 0, 512 + 1024 + 8192, 0, by unfold State.Admits; decide, by decide, by decide, by decide, by decide, by decide, by decide, by decide⟩

theorem witness_LaneCommandsAct_6 : ∃ (s : State) (mb : Mb) (pl : Nat) (p : Nat), s.Admits { opcode := 0x0205, priv := true, len := fun _ => 2, fields := [(0, 9), (9, 1), (10, 2), (12, 1), (13, 1), (14, 1)], checks := fun pl => [(10, decide (fld pl 10 2 ≠ 3))] } mb pl ∧ s.portOfLane (fld pl 0 9) = some p ∧ fld pl 10 2 = 0 ∧ bitOf pl 9 = true ∧ (s.port p).stage = .test ∧ ((s.port p).pcie && bitOf pl 14) = false ∧ breaksTiming (s.begun mb) (((s.begun mb).modLanes p fun l => { l with prbs := 0, genEn := false, chkEn := false, precode := bitOf pl 14, prbsSync := false, prbsRun := 0, prbsHist := [] }).diagStage p) = false :=
  ⟨(held 0 0x0205 2 (512) (onePort 0 { width := 4, stage := .test })), 0, 512, 0, by unfold State.Admits; decide, by decide, by decide, by decide, by decide, by decide, by decide⟩

theorem witness_LaneCommandsAct_7 : ∃ (s : State) (mb : Mb) (pl : Nat) (p : Nat), s.Admits { opcode := 0x0206, priv := true, len := fun _ => 2, fields := [(0, 8), (8, 1), (9, 3)], checks := fun pl => [(9, decide (fld pl 9 3 ≤ 4))] } mb pl ∧ s.portNamed (fld pl 0 8) (fld pl 8 1) = some p ∧ fld pl 9 3 ≠ 0 ∧ (fld pl 9 3 = 3 → (s.port p).pcie = false) ∧ (fld pl 9 3 = 4 → (s.port p).pcie = true) ∧ s.diagRefusal p = none ∧ breaksTiming (s.begun mb) (((s.begun mb).modPort p fun x => { x with loopback := BitVec.ofNat 3 (fld pl 9 3) }).diagStage p) = false :=
  ⟨(held 0 0x0206 2 (3 * 512) (fun s => { onePort 0 { width := 4 } s with power := { quadOn := [(0, true)] } })), 0, 3 * 512, 0, by unfold State.Admits; decide, by decide, by decide, by decide, by decide, by decide, by decide⟩

theorem witness_LaneCommandsAct_8 : ∃ (s : State) (mb : Mb) (pl : Nat) (p : Nat), s.Admits { opcode := 0x0206, priv := true, len := fun _ => 2, fields := [(0, 8), (8, 1), (9, 3)], checks := fun pl => [(9, decide (fld pl 9 3 ≤ 4))] } mb pl ∧ s.portNamed (fld pl 0 8) (fld pl 8 1) = some p ∧ fld pl 9 3 = 0 ∧ (s.port p).stage = .loopback ∧ breaksTiming (s.begun mb) (((s.begun mb).modPort p fun x => { x with loopback := 0 }).diagStage p) = false :=
  ⟨(held 0 0x0206 2 (0) (onePort 0 { width := 4, stage := .loopback })), 0, 0, 0, by unfold State.Admits; decide, by decide, by decide, by decide, by decide⟩

theorem witness_LaneCommandsAct_9 : ∃ (s : State) (mb : Mb) (pl : Nat), s.Admits { opcode := 0x0207, priv := false, query := true, len := fun _ => 2, fields := [(0, 9), (9, 1)] } mb pl ∧ privilegedMb mb = true ∧ breaksTiming (s.begun mb) (if bitOf pl 9 then (s.begun mb).modLane (fld pl 0 9) fun l => { l with symErr := 0, bitErr := 0, cwCorr := 0, cwUncorr := 0 } else (s.begun mb)) = false :=
  ⟨(held 0 0x0207 2 (1023) id), 0, 1023, by unfold State.Admits; decide, by decide, by decide⟩

theorem witness_LaneCommandsAct_10 : ∃ (s : State) (mb : Mb) (pl : Nat), s.Admits { opcode := 0x0208, priv := true, len := fun _ => 8, fields := [(0, 9), (9, 1), (32, 32)] } mb pl ∧ breaksTiming (s.begun mb) (if bitOf pl 9 then (s.begun mb).each (List.range 512) fun t n => t.modLane n fun l => { l with threshold := fld pl 32 32 } else (s.begun mb).modLane (fld pl 0 9) fun l => { l with threshold := fld pl 32 32 }) = false :=
  ⟨(held 0 0x0208 8 (511 + 5 * 2 ^ 32) id), 0, 511 + 5 * 2 ^ 32, by unfold State.Admits; decide, by decide⟩

theorem witness_LinkCommandsAct_1 : ∃ (s : State) (mb : Mb) (pl : Nat) (p : Nat), s.Admits { opcode := 0x0300, priv := true, len := fun _ => 8, fields := [(0, 8), (8, 1), (16, 8), (24, 4), (28, 6), (48, 16)], checks := fun pl => [(16, decide (fld pl 16 8 = 0 ∨ 4 ≤ fld pl 16 8)), (28, decide (fld pl 28 6 ≤ 32)), (48, decide (fld pl 48 16 ≤ 60000))] } mb pl ∧ s.portNamed (fld pl 0 8) (fld pl 8 1) = some p ∧ ((s.port p).pcie && decide (fld pl 16 18 ≠ 0)) = false ∧ breaksTiming (s.begun mb) ((s.begun mb).modLink p fun l => { l with replayTimer := if fld pl 16 8 = 0 then l.replayTimer else fld pl 16 8, replayLimit := if fld pl 24 4 = 0 then l.replayLimit else fld pl 24 4, leakThresh := if fld pl 28 6 = 0 then l.leakThresh else fld pl 28 6, npExpiry := if fld pl 48 16 = 0 then l.npExpiry else fld pl 48 16 }) = false :=
  ⟨(held 0 0x0300 8 (5 * 2 ^ 16) (onePort 0 { width := 4 })), 0, 5 * 2 ^ 16, 0, by unfold State.Admits; decide, by decide, by decide, by decide⟩

theorem witness_LinkCommandsAct_2 : ∃ (s : State) (mb : Mb) (pl : Nat) (p : Nat) (pools : List Nat), s.Admits { opcode := 0x0301, priv := true, len := fun _ => 17, fields := [(0, 8), (8, 128)] } mb pl ∧ s.portNamed (fld pl 0 8) 0 = some p ∧ (s.port p).pcie = false ∧ (pools = (List.range 8).map fun v => fld pl (8 + 16 * v) 16) ∧ pools.sum ≤ 4096 * (s.port p).quads ∧ 18 ≤ nth 0 pools 6 ∧ 18 ≤ nth 0 pools 7 ∧ breaksTiming (s.begun mb) ((s.begun mb).modLink p fun l => { l with poolSet := some pools }) = false :=
  ⟨(held 0 0x0301 17 (18 * 2 ^ 104 + 4078 * 2 ^ 120) (onePort 0 { width := 4 })), 0, 18 * 2 ^ 104 + 4078 * 2 ^ 120, 0, [0, 0, 0, 0, 0, 0, 18, 4078], by unfold State.Admits; decide, by decide, by decide, by decide, by decide, by decide, by decide, by decide⟩

theorem witness_LinkCommandsAct_3 : ∃ (s : State) (mb : Mb) (pl : Nat) (p : Nat) (n : Nat) (l : Link), s.Admits { opcode := 0x0302, priv := false, query := true, len := fun _ => 2, fields := [(0, 8), (8, 1)] } mb pl ∧ s.portNamed (fld pl 0 8) (fld pl 8 1) = some p ∧ s.mayName mb (s.portOwner p) = true ∧ n = b2n !(s.port p).pcie ∧ l = s.link p ∧ breaksTiming (s.begun mb) ((s.begun mb)) = false :=
  ⟨(held 0 0x0302 2 (0) (onePort 0 { width := 4 })), 0, 0, 0, 1, {}, by unfold State.Admits; decide, by decide, by decide, by decide, by decide, by decide⟩

theorem witness_LinkCommandsAct_4 : ∃ (s : State) (mb : Mb) (pl : Nat) (p : Nat), s.Admits { opcode := 0x0303, priv := false, query := true, len := fun _ => 2, fields := [(0, 8), (8, 1), (9, 1)] } mb pl ∧ s.portNamed (fld pl 0 8) (fld pl 8 1) = some p ∧ s.mayName mb (s.portOwner p) = true ∧ breaksTiming (s.begun mb) (if bitOf pl 9 then (s.begun mb).countLink p fun _ => {} else (s.begun mb)) = false :=
  ⟨(held 0 0x0303 2 (512) (onePort 0 { width := 4 })), 0, 512, 0, by unfold State.Admits; decide, by decide, by decide, by decide⟩

theorem witness_LinkCommandsAct_5 : ∃ (s : State) (mb : Mb) (pl : Nat) (p : Nat), s.Admits { opcode := 0x0304, priv := true, len := fun _ => 3, fields := [(0, 8), (8, 3), (16, 8)], checks := fun pl => [(8, decide (fld pl 8 3 ≤ 3)), (16, decide (fld pl 16 8 ≠ 0))] } mb pl ∧ s.portNamed (fld pl 0 8) 0 = some p ∧ (s.port p).stage = .active ∧ breaksTiming (s.begun mb) ((s.begun mb).modLink p fun l => { l with inject := modAt l.inject (fld pl 8 3) (· + fld pl 16 8) }) = false :=
  ⟨(held 0 0x0304 3 (255 * 2 ^ 16 + 3 * 256) (onePort 0 { width := 4, stage := .active })), 0, 255 * 2 ^ 16 + 3 * 256, 0, by unfold State.Admits; decide, by decide, by decide, by decide⟩

set_option maxRecDepth 100000 in
theorem witness_TableCommandsAct_1 : ∃ (s : State) (mb : Mb) (pl : Nat), s.Admits { opcode := 0x0401, priv := true, len := fun pl => 4 + 4 * fld pl 12 8, fields := [(0, 12), (12, 8)] ++ (List.range 255).flatMap fun i => [(32 + 32 * i, 9), (48 + 32 * i, 8)], checks := fun pl => let n := fld pl 12 8; [(12, decide (1 ≤ n)), (0, decide (fld pl 0 12 + n ≤ 4096)), tailZero pl (32 + 32 * n)] ++ (List.range n).map fun i => (32 + 32 * i, decide (fld pl (32 + 32 * i) 2 ≠ 3)) } mb pl ∧ s.fabric.managed = true ∧ breaksTiming (s.begun mb) ((s.begun mb).modStaged fun w => { w with route := (List.range (fld pl 12 8)).foldl (fun t i => Tab.put none t (fld pl 0 12 + i) (some (RouteEntry.ofBits (fld pl (32 + 32 * i) 32)))) w.route }) = false :=
  ⟨(held 0 0x0401 12 (4094 + 2 * 4096 + (1 + 4 * 127) * 2 ^ 32 + (2 + 255 * 65536) * 2 ^ 64) (fun s => { s with fabric := { managed := true } })), 0, 4094 + 2 * 4096 + (1 + 4 * 127) * 2 ^ 32 + (2 + 255 * 65536) * 2 ^ 64, by unfold State.Admits; decide, by decide, by decide⟩

theorem witness_TableCommandsAct_2 : ∃ (s : State) (mb : Mb) (pl : Nat), s.Admits { opcode := 0x0402, priv := true, len := fun _ => 50, fields := [(0, 8), (8, 4), (16, 128), (144, 256)], checks := fun pl => ((List.range (fld pl 8 4 + 1)).map fun i => (16 + 8 * i, decide (fld pl (16 + 8 * i) 8 < 128))) ++ (List.range 64).map fun b => (144 + 4 * b, decide (fld pl (144 + 4 * b) 4 ≤ fld pl 8 4)) } mb pl ∧ s.fabric.managed = true ∧ breaksTiming (s.begun mb) ((s.begun mb).modStaged fun w => { w with group := Tab.put none w.group (fld pl 0 8) (some { members := (List.range (fld pl 8 4 + 1)).map fun i => fld pl (16 + 8 * i) 8, buckets := (List.range 64).map fun b => fld pl (144 + 4 * b) 4 }) }) = false :=
  ⟨(held 0 0x0402 50 (255 + 127 * 65536) (fun s => { s with fabric := { managed := true } })), 0, 255 + 127 * 65536, by unfold State.Admits; decide, by decide, by decide⟩

theorem witness_TableCommandsAct_3 : ∃ (s : State) (mb : Mb) (pl : Nat), s.Admits { opcode := 0x0403, priv := true, len := fun _ => 24, fields := [(0, 10), (10, 1), (11, 8), (19, 6), (32, 52), (96, 20), (116, 12), (128, 1), (140, 52)], checks := fun pl => [(19, !bitOf pl 10 || decide (12 ≤ fld pl 19 6)), (32, !bitOf pl 10 || decide (fld pl 32 52 * 4096 % 2 ^ fld pl 19 6 = 0))] } mb pl ∧ breaksTiming (s.begun mb) ((s.begun mb).modStaged fun w => { w with window := Tab.put none w.window (fld pl 0 10) (some { valid := bitOf pl 10, partition := fbv pl 11 8, sizeLog2 := fld pl 19 6, base := BitVec.ofNat 64 (fld pl 32 52 * 4096), target := fbv pl 96 20, inst := fbv pl 116 12, instValid := bitOf pl 128, targetBase := BitVec.ofNat 64 (fld pl 140 52 * 4096) }) }) = false :=
  ⟨(held 0 0x0403 24 (1023 + 1024 + 12 * 2 ^ 19) id), 0, 1023 + 1024 + 12 * 2 ^ 19, by unfold State.Admits; decide, by decide⟩

theorem witness_TableCommandsAct_4 : ∃ (s : State) (mb : Mb) (pl : Nat), s.Admits { opcode := 0x0404, priv := true, len := fun _ => 3, fields := [(0, 8), (8, 3), (11, 8), (19, 1), (20, 4)], checks := fun pl => [(0, decide (fld pl 0 8 ≠ 255)), (8, decide (fld pl 8 3 ≤ 2)), (11, decide (fld pl 8 3 = 1 → fld pl 11 8 < 128)), (20, decide (fld pl 8 3 = 2 → fld pl 20 4 < 4 ∧ (fld pl 0 8 < 4 → fld pl 20 4 = fld pl 0 8)))] } mb pl ∧ breaksTiming (s.begun mb) ((s.begun mb).modStaged fun w => { w with endpoint := Tab.put none w.endpoint (fld pl 0 8) (some (if fld pl 8 3 = 1 then .port (fld pl 11 8) (fld pl 19 1) else if fld pl 8 3 = 2 then .internal (fld pl 20 4) else .unassigned)) }) = false :=
  ⟨(held 0 0x0404 3 (254 + 256 + 127 * 2048) id), 0, 254 + 256 + 127 * 2048, by unfold State.Admits; decide, by decide⟩

theorem witness_TableCommandsAct_5 : ∃ (s : State) (mb : Mb) (pl : Nat) (k : TableKind) (l : List TableKind), s.Admits { opcode := 0x0405, priv := true, len := fun _ => 1, fields := [(0, 5)] } mb pl ∧ ((allTables.filter fun t => (fld pl 0 5).testBit t.code) = k :: l) ∧ s.busyTable (k :: l) = none ∧ breaksTiming (s.begun mb) ((s.begun mb).commit (k :: l)) = false :=
  ⟨(held 0 0x0405 1 (9) id), 0, 9, .route, [.window], by unfold State.Admits; decide, by decide, by decide, by decide⟩

theorem witness_TableCommandsAct_6 : ∃ (s : State) (mb : Mb) (pl : Nat), s.Admits { opcode := 0x0406, priv := true, len := fun _ => 1, fields := [(0, 5)] } mb pl ∧ breaksTiming (s.begun mb) ((s.begun mb).modStaged fun w => w.drop (allTables.filter fun t => (fld pl 0 5).testBit t.code)) = false :=
  ⟨(held 0 0x0406 1 (31) id), 0, 31, by unfold State.Admits; decide, by decide⟩

theorem witness_TableCommandsAct_7 : ∃ (s : State) (mb : Mb) (pl : Nat) (k : TableKind) (n : Nat), s.Admits { opcode := 0x0407, priv := true, len := fun _ => 1, fields := [(0, 3), (3, 2)], checks := fun pl => [(0, decide (fld pl 0 3 ≤ 4))] } mb pl ∧ k = nth .policy [.route, .group, .endpoint, .window, .policy] (fld pl 0 3) ∧ n = s.epochFrames k (fbv pl 3 2) ∧ breaksTiming (s.begun mb) (if n = 0 ∨ (k, fbv pl 3 2) ∈ s.fabric.waits then (s.begun mb) else (s.begun mb).modFab fun f => { f with waits := f.waits ++ [(k, fbv pl 3 2)] }) = false :=
  ⟨(held 0 0x0407 1 (4 + 24) id), 0, 4 + 24, .policy, 0, by unfold State.Admits; decide, by decide, by decide, by decide⟩

theorem witness_TableCommandsAct_8 : ∃ (s : State) (mb : Mb) (pl : Nat) (k : TableKind) (t : Tables), s.Admits { opcode := 0x0408, priv := true, query := true, len := fun _ => 3, fields := [(0, 3), (3, 1), (4, 12), (16, 8)], checks := fun pl => let (n, w) := tableSize (tableOf (fld pl 0 3)); [(0, decide (fld pl 0 3 < 4)), (4, decide (fld pl 0 3 = 4 ∨ fld pl 4 12 < n)), (16, decide (fld pl 4 12 + fld pl 16 8 ≤ n ∧ fld pl 16 8 * w ≤ 4080))] } mb pl ∧ k = nth .policy [.route, .group, .endpoint, .window, .policy] (fld pl 0 3) ∧ t = (if bitOf pl 3 then s.nextTables [k] else s.fabric.tables) ∧ breaksTiming (s.begun mb) ((s.begun mb)) = false :=
  ⟨(held 0 0x0408 3 (4095 * 16 + 65536) id), 0, 4095 * 16 + 65536, .route, {}, by unfold State.Admits; decide, by decide, by decide, by decide⟩

theorem witness_FabricCommandsAct_1 : ∃ (s : State) (mb : Mb) (pl : Nat) (mode : Nat), s.Admits { opcode := 0x0400, priv := true, len := fun _ => 12, fields := [(0, 12), (12, 1), (13, 2), (15, 1), (16, 10), (32, 16), (48, 16), (64, 1)], checks := fun pl => [(13, decide (fld pl 13 2 ≠ 3)), (15, !bitOf pl 15 || bitOf pl 12), (16, decide (fld pl 16 10 ≤ 1000)), (32, decide (fld pl 32 16 ≤ 60000))] } mb pl ∧ ((bitOf pl 12 && s.allPorts.any fun p => (s.port p).nativeUp) = false) ∧ mode = fld pl 13 2 ∧ breaksTiming (s.begun mb) ((if bitOf pl 15 then (if bitOf pl 12 then (s.begun mb).modFab fun f => { f with switchId := fbv pl 0 12, idDefault := false } else (s.begun mb)).modMgmt fun m => m.writeDir fun d => { d with savedSwitch := some (fbv pl 0 12) } else (if bitOf pl 12 then (s.begun mb).modFab fun f => { f with switchId := fbv pl 0 12, idDefault := false } else (s.begun mb))).modFab fun f => { f with managed := if mode = 0 then f.managed else decide (mode = 2), topoPending := if mode = 1 ∧ f.managed then true else f.topoPending, commitRetry := f.commitRetry && decide (mode ≠ 2), lifetimeMs := if fld pl 16 10 = 0 then f.lifetimeMs else fld pl 16 10, cplTimeoutMs := if fld pl 32 16 = 0 then f.cplTimeoutMs else fld pl 32 16, seedPending := if bitOf pl 64 then some (fbv pl 48 16) else f.seedPending }) = false :=
  ⟨(held 0 0x0400 12 (4096 + 4095 + 16384) id), 0, 4096 + 4095 + 16384, 2, by unfold State.Admits; decide, by decide, by decide, by decide⟩

theorem witness_FabricCommandsAct_2 : ∃ (s : State) (mb : Mb) (pl : Nat) (p : Nat), s.Admits { opcode := 0x0409, priv := false, query := true, len := fun _ => 2, fields := [(0, 8), (8, 1)] } mb pl ∧ s.portNamed (fld pl 0 8) (fld pl 8 1) = some p ∧ s.mayName mb (s.portOwner p) = true ∧ breaksTiming (s.begun mb) ((s.begun mb)) = false :=
  ⟨(held 0 0x0409 2 (0) (onePort 0 { width := 4 })), 0, 0, 0, by unfold State.Admits; decide, by decide, by decide, by decide⟩

theorem witness_FabricCommandsAct_3 : ∃ (s : State) (mb : Mb) (pl : Nat) (l : List (List Byte)), s.Admits { opcode := 0x040A, priv := true, query := true } mb pl ∧ (l = fitting 4076 (s.fabric.links.filterMap fun e => if e.1 = s.fabric.switchId.toNat then none else e.2.map fun r => linkRecBytes r.record)) ∧ breaksTiming (s.begun mb) ((s.begun mb)) = false :=
  ⟨(held 0 0x040A 0 (0) id), 0, 0, [], by unfold State.Admits; decide, by decide, by decide⟩

theorem witness_FabricCommandsAct_4 : ∃ (s : State) (mb : Mb) (pl : Nat), s.Admits { opcode := 0x040B, priv := true, len := fun _ => 12, fields := [(0, 8), (8, 1), (9, 1), (10, 48), (58, 8), (66, 1), (80, 16)] } mb pl ∧ bitOf pl 66 = false ∧ breaksTiming (s.begun mb) ((s.begun mb).modFab fun f => { f with time := { f.time with gmPriority := fbv pl 0 8, ppsInEn := bitOf pl 8, presetSec := if bitOf pl 9 then some (fbv pl 10 48) else f.time.presetSec } }) = false :=
  ⟨(held 0 0x040B 12 (255 + 256 + 512) id), 0, 255 + 256 + 512, by unfold State.Admits; decide, by decide, by decide⟩

theorem witness_FabricCommandsAct_5 : ∃ (s : State) (mb : Mb) (pl : Nat) (p : Nat), s.Admits { opcode := 0x040B, priv := true, len := fun _ => 12, fields := [(0, 8), (8, 1), (9, 1), (10, 48), (58, 8), (66, 1), (80, 16)] } mb pl ∧ bitOf pl 66 = true ∧ s.portNamed (fld pl 58 8) 0 = some p ∧ (s.port p).pcie = false ∧ breaksTiming (s.begun mb) (((s.begun mb).modTime fun t => { t with gmPriority := fbv pl 0 8, ppsInEn := bitOf pl 8, presetSec := if bitOf pl 9 then some (fbv pl 10 48) else t.presetSec }).modTime fun t => { t with asym := Tab.put 0 t.asym p (fldSigned pl 80 16) }) = false :=
  ⟨(held 0 0x040B 12 (2 ^ 66 + 2 ^ 95) (onePort 0 { width := 4 })), 0, 2 ^ 66 + 2 ^ 95, 0, by unfold State.Admits; decide, by decide, by decide, by decide, by decide⟩

theorem witness_FabricCommandsAct_6 : ∃ (s : State) (mb : Mb) (pl : Nat), s.Admits { opcode := 0x040C, priv := false, query := true } mb pl ∧ breaksTiming (s.begun mb) ((s.begun mb)) = false :=
  ⟨(held 0 0x040C 0 (0) id), 0, 0, by unfold State.Admits; decide, by decide⟩

theorem witness_FabricCommandsAct_7 : ∃ (s : State) (mb : Mb) (pl : Nat) (c : FabricCounters), s.Admits { opcode := 0x040D, priv := false, query := true, len := fun _ => 1, fields := [(0, 7), (7, 1)] } mb pl ∧ privilegedMb mb = true ∧ c = Tab.get {} s.fabric.counters (fld pl 0 7) ∧ breaksTiming (s.begun mb) (if bitOf pl 7 then (s.begun mb).countFab (fld pl 0 7) fun _ => {} else (s.begun mb)) = false :=
  ⟨(held 0 0x040D 1 (255) id), 0, 255, {}, by unfold State.Admits; decide, by decide, by decide, by decide⟩

theorem witness_FabricCommandsAct_8 : ∃ (s : State) (mb : Mb) (pl : Nat) (p : Nat), s.Admits { opcode := 0x040E, priv := true, len := fun _ => 2, fields := [(0, 8), (8, 1), (9, 6)], checks := fun pl => [(9, decide (fld pl 9 6 < 48 ∨ fld pl 9 6 = 0x3F))] } mb pl ∧ s.portNamed (fld pl 0 8) (fld pl 8 1) = some p ∧ breaksTiming (s.begun mb) ((s.begun mb).modPartner p fun x => { x with slot := fbv pl 9 6 }) = false :=
  ⟨(held 0 0x040E 2 (47 * 512) (onePort 0 { width := 4 })), 0, 47 * 512, 0, by unfold State.Admits; decide, by decide, by decide⟩

theorem witness_CarouselCommandsAct_1 : ∃ (s : State) (mb : Mb) (pl : Nat), s.Admits { opcode := 0x0500, priv := true, query := true } mb pl ∧ breaksTiming (s.begun mb) ((s.begun mb)) = false :=
  ⟨(held 0 0x0500 0 (0) id), 0, 0, by unfold State.Admits; decide, by decide⟩

theorem witness_CarouselCommandsAct_2 : ∃ (s : State) (mb : Mb) (pl : Nat) (p : Nat), s.Admits { opcode := 0x0501, priv := true, len := fun _ => 5, fields := [(0, 8), (8, 1), (16, 8), (24, 16)], checks := fun pl => [(24, decide (18 ≤ fld pl 24 16))] } mb pl ∧ s.portNamed (fld pl 0 8) (fld pl 8 1) = some p ∧ fld pl 24 16 ≤ s.storeOf p ∧ breaksTiming (s.begun mb) ((s.begun mb).modCar fun c => { c with voqLimit := (List.range 8).foldl (fun t v => if bitOf pl (16 + v) then Tab.put none t (8 * p + v) (some (fld pl 24 16)) else t) c.voqLimit }) = false :=
  ⟨(held 0 0x0501 5 (129 * 65536 + 4096 * 2 ^ 24) (onePort 0 { width := 4 })), 0, 129 * 65536 + 4096 * 2 ^ 24, 0, by unfold State.Admits; decide, by decide, by decide, by decide⟩

theorem witness_CarouselCommandsAct_3 : ∃ (s : State) (mb : Mb) (pl : Nat), s.Admits { opcode := 0x0502, priv := true, len := fun _ => 16, fields := [(0, 80)], checks := fun pl => (0, decide (sumRes (sharesOf pl) ≤ 16)) :: (List.range 8).flatMap fun v => let x := nth ⟨0, 0⟩ (sharesOf pl) v; [(10 * v, decide (x.res ≤ x.max ∧ (6 ≤ v → x.res ≠ 0))), (10 * v + 5, decide (1 ≤ x.max ∧ x.max ≤ 16))] } mb pl ∧ breaksTiming (s.begun mb) ((s.begun mb).modCar fun c => { c with sharesPending := some ((List.range 8).map fun v => ⟨fld pl (10 * v) 5, fld pl (10 * v + 5) 5⟩) }) = false :=
  ⟨(held 0 0x0502 16 ((1 + 32 * 16) * (2 ^ 60 + 2 ^ 70) + 32 * (1 + 2 ^ 10 + 2 ^ 20 + 2 ^ 30 + 2 ^ 40 + 2 ^ 50)) id), 0, (1 + 32 * 16) * (2 ^ 60 + 2 ^ 70) + 32 * (1 + 2 ^ 10 + 2 ^ 20 + 2 ^ 30 + 2 ^ 40 + 2 ^ 50), by unfold State.Admits; decide, by decide⟩

theorem witness_CarouselCommandsAct_4 : ∃ (s : State) (mb : Mb) (pl : Nat) (p : Nat), s.Admits { opcode := 0x0503, priv := true, len := fun _ => 3, fields := [(0, 8), (8, 1), (9, 6), (15, 6)], checks := fun pl => [(9, decide (4 ≤ fld pl 9 6 ∧ fld pl 9 6 + fld pl 15 6 ≤ 56)), (15, decide (4 ≤ fld pl 15 6))] } mb pl ∧ s.portNamed (fld pl 0 8) (fld pl 8 1) = some p ∧ (s.port p).pcie = true ∧ breaksTiming (s.begun mb) ((s.begun mb).modCar fun c => { c with pcieSharePending := Tab.put none c.pcieSharePending p (some (fld pl 9 6, fld pl 15 6)) }) = false :=
  ⟨(held 0 0x0503 3 (4 * 512 + 52 * 2 ^ 15) (onePort 0 { width := 4, pcie := true })), 0, 4 * 512 + 52 * 2 ^ 15, 0, by unfold State.Admits; decide, by decide, by decide, by decide⟩

theorem witness_CarouselCommandsAct_5 : ∃ (s : State) (mb : Mb) (pl : Nat) (c : CarouselCounters), s.Admits { opcode := 0x0504, priv := false, query := true, len := fun _ => 1, fields := [(0, 7), (7, 1)] } mb pl ∧ privilegedMb mb = true ∧ c = Tab.get {} s.car.counters (fld pl 0 7) ∧ breaksTiming (s.begun mb) (if bitOf pl 7 then (s.begun mb).countCar (fld pl 0 7) fun _ => {} else (s.begun mb)) = false :=
  ⟨(held 0 0x0504 1 (255) id), 0, 255, {}, by unfold State.Admits; decide, by decide, by decide, by decide⟩

theorem witness_CarouselCommandsAct_6 : ∃ (s : State) (mb : Mb) (pl : Nat) (p : Nat), s.Admits { opcode := 0x0504, priv := false, query := true, len := fun _ => 1, fields := [(0, 7), (7, 1)] } mb pl ∧ (s.portsOfQuad (fld pl 0 7)).contains p = true ∧ s.mayName mb (s.portOwner p) = true ∧ bitOf pl 7 = false ∧ breaksTiming (s.begun mb) ((s.begun mb)) = false :=
  ⟨(held 5 0x0504 1 (0) (onePort 0 { width := 4 })), 5, 0, 0, by unfold State.Admits; decide, by decide, by decide, by decide, by decide⟩

theorem witness_CarouselCommandsAct_7 : ∃ (s : State) (mb : Mb) (pl : Nat) (p : Nat), s.Admits { opcode := 0x0505, priv := false, query := true, len := fun _ => 2, fields := [(0, 8), (8, 1), (9, 1)] } mb pl ∧ s.portNamed (fld pl 0 8) (fld pl 8 1) = some p ∧ s.mayName mb (s.portOwner p) = true ∧ breaksTiming (s.begun mb) (if bitOf pl 9 then (s.begun mb).resetHwm p else (s.begun mb)) = false :=
  ⟨(held 0 0x0505 2 (512) (onePort 0 { width := 4 })), 0, 512, 0, by unfold State.Admits; decide, by decide, by decide, by decide⟩

theorem witness_SchedulerCommandsAct_1 : ∃ (s : State) (mb : Mb) (pl : Nat) (p : Nat), s.Admits { opcode := 0x0600, priv := true, len := fun _ => 14, fields := [(0, 8), (8, 1), (16, 90)] } mb pl ∧ s.portNamed (fld pl 0 8) (fld pl 8 1) = some p ∧ breaksTiming (s.begun mb) ((s.begun mb).modSched p fun x => (List.range 9).foldl (Sched.configure pl) x) = false :=
  ⟨(held 0 0x0600 14 (2 ^ 18) (onePort 0 { width := 4 })), 0, 2 ^ 18, 0, by unfold State.Admits; decide, by decide, by decide⟩

theorem witness_SchedulerCommandsAct_2 : ∃ (s : State) (mb : Mb) (pl : Nat) (p : Nat), s.Admits { opcode := 0x0601, priv := true, len := fun _ => 18, fields := [(0, 8), (8, 1), (9, 4), (16, 40), (56, 24), (80, 40), (120, 24)], checks := fun pl => let port := decide (fld pl 9 4 = 15); [(9, decide (fld pl 9 4 ≤ 8) || port), (16, !port || decide (fld pl 16 40 = 0)), (56, burstOk (fld pl 16 40) (fld pl 56 24) && (!port || decide (fld pl 56 24 = 0))), (80, peakRateOk (fld pl 16 40) (fld pl 80 40)), (120, burstOk (fld pl 80 40) (fld pl 120 24))] } mb pl ∧ s.portNamed (fld pl 0 8) (fld pl 8 1) = some p ∧ fld pl 9 4 = 15 ∧ breaksTiming (s.begun mb) ((s.begun mb).modSched p fun x => { x with portPeak := { x.portPeak with pending := some (fld pl 80 40, fld pl 120 24) } }) = false :=
  ⟨(held 0 0x0601 18 (15 * 512 + 256 * 2 ^ 80 + 16777215 * 2 ^ 120) (onePort 0 { width := 4 })), 0, 15 * 512 + 256 * 2 ^ 80 + 16777215 * 2 ^ 120, 0, by unfold State.Admits; decide, by decide, by decide, by decide⟩

theorem witness_SchedulerCommandsAct_3 : ∃ (s : State) (mb : Mb) (pl : Nat) (p : Nat), s.Admits { opcode := 0x0601, priv := true, len := fun _ => 18, fields := [(0, 8), (8, 1), (9, 4), (16, 40), (56, 24), (80, 40), (120, 24)], checks := fun pl => let port := decide (fld pl 9 4 = 15); [(9, decide (fld pl 9 4 ≤ 8) || port), (16, !port || decide (fld pl 16 40 = 0)), (56, burstOk (fld pl 16 40) (fld pl 56 24) && (!port || decide (fld pl 56 24 = 0))), (80, peakRateOk (fld pl 16 40) (fld pl 80 40)), (120, burstOk (fld pl 80 40) (fld pl 120 24))] } mb pl ∧ s.portNamed (fld pl 0 8) (fld pl 8 1) = some p ∧ fld pl 9 4 ≤ 8 ∧ breaksTiming (s.begun mb) ((s.begun mb).modSched p fun x => x.modQueue (fld pl 9 4) fun q => { q with committed := { q.committed with pending := some (fld pl 16 40, fld pl 56 24) }, peak := { q.peak with pending := some (fld pl 80 40, fld pl 120 24) } }) = false :=
  ⟨(held 0 0x0601 18 (8 * 512) (onePort 0 { width := 4 })), 0, 8 * 512, 0, by unfold State.Admits; decide, by decide, by decide, by decide⟩

set_option exponentiation.threshold 40000 in set_option maxRecDepth 100000 in
theorem witness_SchedulerCommandsAct_4 : ∃ (s : State) (mb : Mb) (pl : Nat) (p base start : Nat), s.Admits { opcode := 0x0605, priv := true, len := fun pl => 24 + 6 * gateCount pl, fields := [(0, 8), (8, 1), (9, 1), (16, 9), (25, 10), (40, 48), (88, 30), (128, 30), (192, 32448)], checks := fun pl => [(16, !bitOf pl 9 || decide (1 ≤ fld pl 16 9 ∧ fld pl 16 9 ≤ 256)), (88, decide (fld pl 88 30 < 1000000000)), (128, decide (1 ≤ fld pl 128 30 ∧ fld pl 128 30 ≤ 1000000000))] ++ (List.range (gateCount pl)).flatMap (gateEntryChecks pl) } mb pl ∧ s.portNamed (fld pl 0 8) (fld pl 8 1) = some p ∧ base = fld pl 40 48 * 1000000000 + fld pl 88 30 ∧ start = firstBoundary base (fld pl 128 30) (s.fabNs + 10000) ∧ breaksTiming (s.begun mb) ((s.begun mb).modSched p fun x => { x with gatePending := some { list := if bitOf pl 9 then some { guard := fld pl 25 10, base := base, cycle := fld pl 128 30, start := start, entries := (List.range (gateCount pl)).map fun i => (fbv pl (192 + 48 * i) 9, fld pl (192 + 48 * i + 16) 30) } else none, start := start, base := base, cycle := fld pl 128 30 } }) = false :=
  ⟨(held 0 0x0605 30 (512 + 65536 + 2 ^ 40 + 5 * 2 ^ 128 + 511 * 2 ^ 192 + 5 * 2 ^ 208) (onePort 0 { width := 4 })), 0, 512 + 65536 + 2 ^ 40 + 5 * 2 ^ 128 + 511 * 2 ^ 192 + 5 * 2 ^ 208, 0, 1000000000, 1000000000, by unfold State.Admits; decide, by decide, by decide, by decide, by decide⟩

theorem witness_SchedulerCommandsAct_5 : ∃ (s : State) (mb : Mb) (pl : Nat) (p : Nat) (x : Sched), s.Admits { opcode := 0x0606, priv := false, query := true, len := fun _ => 2, fields := [(0, 8), (8, 1)] } mb pl ∧ s.portNamed (fld pl 0 8) (fld pl 8 1) = some p ∧ s.mayName mb (s.portOwner p) = true ∧ x = s.schedOf p ∧ breaksTiming (s.begun mb) ((s.begun mb)) = false :=
  ⟨(held 0 0x0606 2 (0) (onePort 0 { width := 4 })), 0, 0, 0, {}, by unfold State.Admits; decide, by decide, by decide, by decide, by decide⟩

theorem witness_SchedulerCommandsAct_6 : ∃ (s : State) (mb : Mb) (pl : Nat) (p : Nat), s.Admits { opcode := 0x0608, priv := false, query := true, len := fun _ => 2, fields := [(0, 8), (8, 1), (9, 1)] } mb pl ∧ s.portNamed (fld pl 0 8) (fld pl 8 1) = some p ∧ s.mayName mb (s.portOwner p) = true ∧ breaksTiming (s.begun mb) (if bitOf pl 9 then (s.begun mb).modSched p Sched.clearCounters else (s.begun mb)) = false :=
  ⟨(held 0 0x0608 2 (512) (onePort 0 { width := 4 })), 0, 512, 0, by unfold State.Admits; decide, by decide, by decide, by decide⟩

theorem witness_SchedulerCommandsAct_7 : ∃ (s : State) (mb : Mb) (pl : Nat), s.Admits { opcode := 0x0609, priv := false, query := true, len := fun _ => 3, fields := [(0, 1), (1, 8), (9, 1), (10, 7), (17, 1)] } mb pl ∧ bitOf pl 0 = true ∧ privilegedMb mb = true ∧ breaksTiming (s.begun mb) (if bitOf pl 17 then (s.begun mb).resetPenaltyHwm (fld pl 10 7) else (s.begun mb)) = false :=
  ⟨(held 0 0x0609 3 (1 + 127 * 1024 + 2 ^ 17) id), 0, 1 + 127 * 1024 + 2 ^ 17, by unfold State.Admits; decide, by decide, by decide, by decide⟩

theorem witness_SchedulerCommandsAct_8 : ∃ (s : State) (mb : Mb) (pl : Nat) (p : Nat), s.Admits { opcode := 0x0609, priv := false, query := true, len := fun _ => 3, fields := [(0, 1), (1, 8), (9, 1), (10, 7), (17, 1)] } mb pl ∧ bitOf pl 0 = false ∧ s.portNamed (fld pl 1 8) (fld pl 9 1) = some p ∧ s.mayName mb (s.portOwner p) = true ∧ breaksTiming (s.begun mb) (if bitOf pl 17 then (s.begun mb).resetSchedHwm p else (s.begun mb)) = false :=
  ⟨(held 0 0x0609 3 (2 ^ 17) (onePort 0 { width := 4 })), 0, 2 ^ 17, 0, by unfold State.Admits; decide, by decide, by decide, by decide, by decide⟩

theorem witness_MeterCommandsAct_1 : ∃ (s : State) (mb : Mb) (pl : Nat), s.Admits { opcode := 0x0602, priv := false, len := fun _ => 24, fields := [(0, 14), (14, 1), (15, 1), (16, 1), (17, 6), (32, 40), (72, 24), (96, 40), (136, 24)], checks := fun pl => [(72, burstOk (fld pl 32 40) (fld pl 72 24)), (96, peakRateOk (fld pl 32 40) (fld pl 96 40)), (136, burstOk (fld pl 96 40) (fld pl 136 24))] } mb pl ∧ s.mayMeter mb (fld pl 0 14) = true ∧ breaksTiming (s.begun mb) ((s.begun mb).modMeter (fld pl 0 14) fun x => { x with committed := { x.committed with pending := some (fld pl 32 40, fld pl 72 24) }, peak := { x.peak with pending := some (fld pl 96 40, fld pl 136 24) }, pending := some (bitOf pl 14, bitOf pl 15, bitOf pl 16, fld pl 17 6) }) = false :=
  ⟨(held 0 0x0602 24 (16383 + 2 ^ 14) id), 0, 16383 + 2 ^ 14, by unfold State.Admits; decide, by decide, by decide⟩

theorem witness_MeterCommandsAct_2 : ∃ (s : State) (mb : Mb) (pl : Nat), s.Admits { opcode := 0x0603, priv := true, len := fun _ => 5, fields := [(0, 9), (16, 8), (24, 14), (38, 1)], checks := fun pl => [(0, decide (fld pl 0 9 < 384))] } mb pl ∧ (bitOf pl 38 && !s.mayMap (fld pl 0 9) (fld pl 24 14)) = false ∧ breaksTiming (s.begun mb) ({ (s.begun mb) with sched := { s.sched with meterMap := (List.range 8).foldl (fun a c => if bitOf pl (16 + c) then Tab.put none a (8 * fld pl 0 9 + c) (if bitOf pl 38 then some (fld pl 24 14) else none) else a) s.sched.meterMap } }) = false :=
  ⟨(held 0 0x0603 5 (256 + 5 * 65536 + 127 * 2 ^ 24 + 2 ^ 38) id), 0, 256 + 5 * 65536 + 127 * 2 ^ 24 + 2 ^ 38, by unfold State.Admits; decide, by decide, by decide⟩

theorem witness_MeterCommandsAct_3 : ∃ (s : State) (mb : Mb) (pl : Nat), s.Admits { opcode := 0x0604, priv := true, len := fun _ => 3, fields := [(0, 7), (7, 6), (13, 11)], checks := fun pl => [(13, decide (1 ≤ fld pl 13 11 ∧ fld pl 13 11 ≤ 1024))] } mb pl ∧ breaksTiming (s.begun mb) (((s.begun mb).modPenalty (64 * fld pl 0 7 + fld pl 7 6) fun q => { q with limit := fld pl 13 11 }).checkFull (64 * fld pl 0 7 + fld pl 7 6)) = false :=
  ⟨(held 0 0x0604 3 (127 + 63 * 128 + 1024 * 8192) id), 0, 127 + 63 * 128 + 1024 * 8192, by unfold State.Admits; decide, by decide⟩

theorem witness_MeterCommandsAct_4 : ∃ (s : State) (mb : Mb) (pl : Nat) (x : Meter), s.Admits { opcode := 0x0607, priv := false, query := true, len := fun _ => 2, fields := [(0, 14), (14, 1)] } mb pl ∧ x = s.meter (fld pl 0 14) ∧ s.mayMeter mb (fld pl 0 14) = true ∧ breaksTiming (s.begun mb) (if bitOf pl 14 then (s.begun mb).modMeter (fld pl 0 14) fun x => { x with green := 0, yellow := 0, red := 0, held := 0, released := 0, demoted := 0 } else (s.begun mb)) = false :=
  ⟨(held 0 0x0607 2 (32767) id), 0, 32767, {}, by unfold State.Admits; decide, by decide, by decide, by decide⟩

theorem witness_PartitionCommandsAct_1 : ∃ (s : State) (mb : Mb) (pl : Nat), s.Admits { opcode := 0x0700, priv := true, len := fun _ => 1, fields := [(0, 8)], checks := fun pl => [partRange pl 0] } mb pl ∧ breaksTiming (s.begun mb) (if s.usablePart (fld pl 0 8) then (s.begun mb) else (s.begun mb).modParts fun x => { x with usable := Tab.put false x.usable (fld pl 0 8) true, timing := Tab.put false x.timing (fld pl 0 8) false, lapsed := Tab.put false x.lapsed (fld pl 0 8) false }) = false :=
  ⟨(held 0 0x0700 1 (255) id), 0, 255, by unfold State.Admits; decide, by decide⟩

theorem witness_PartitionCommandsAct_2 : ∃ (s : State) (mb : Mb) (pl : Nat), s.Admits { opcode := 0x0701, priv := true, len := fun _ => 1, fields := [(0, 8)], checks := fun pl => [partRange pl 0] } mb pl ∧ s.usablePart (fld pl 0 8) = true ∧ s.ownsVirtual (BitVec.ofNat 8 (fld pl 0 8)) = false ∧ breaksTiming (s.begun mb) ((((s.begun mb).modParts fun x => { x with usable := Tab.put false x.usable (fld pl 0 8) false }).stagePolicy (.destroy (BitVec.ofNat 8 (fld pl 0 8)))).freeMailboxes (BitVec.ofNat 8 (fld pl 0 8))) = false :=
  ⟨(held 0 0x0701 1 (7) (fun s => { s with parts := { usable := [(7, true)] } })), 0, 7, by unfold State.Admits; decide, by decide, by decide, by decide +kernel⟩

theorem witness_PartitionCommandsAct_3 : ∃ (s : State) (mb : Mb) (pl : Nat) (p : Nat), s.Admits { opcode := 0x0702, priv := true, len := fun _ => 3, fields := [(0, 8), (8, 2), (10, 8), (18, 1)], checks := fun pl => let k := fld pl 8 2; [(8, decide (k ≠ 3)), (10, decide (k = 1 → fld pl 10 8 ≤ 1) && decide (k = 2 → 1 ≤ fld pl 10 8 ∧ fld pl 10 8 ≤ 62))] } mb pl ∧ fld pl 8 2 = 0 ∧ s.portNamed (fld pl 10 8) (fld pl 18 1) = some p ∧ s.usablePart (fld pl 0 8) = true ∧ s.portBusy p = false ∧ breaksTiming (s.begun mb) ((s.begun mb).stagePolicy (.owner p (BitVec.ofNat 8 (fld pl 0 8)))) = false :=
  ⟨(held 0 0x0702 3 (0) (onePort 0 { width := 4 })), 0, 0, 0, by unfold State.Admits; decide, by decide, by decide, by decide, by decide, by decide⟩

theorem witness_PartitionCommandsAct_4 : ∃ (s : State) (mb : Mb) (pl : Nat), s.Admits { opcode := 0x0702, priv := true, len := fun _ => 3, fields := [(0, 8), (8, 2), (10, 8), (18, 1)], checks := fun pl => let k := fld pl 8 2; [(8, decide (k ≠ 3)), (10, decide (k = 1 → fld pl 10 8 ≤ 1) && decide (k = 2 → 1 ≤ fld pl 10 8 ∧ fld pl 10 8 ≤ 62))] } mb pl ∧ fld pl 8 2 = 1 ∧ s.usablePart (fld pl 0 8) = true ∧ breaksTiming (s.begun mb) ((s.begun mb).stagePolicy (.pwOwner (fld pl 10 8 == 1) (BitVec.ofNat 8 (fld pl 0 8)))) = false :=
  ⟨(held 0 0x0702 3 (256 + 1024) id), 0, 256 + 1024, by unfold State.Admits; decide, by decide, by decide, by decide⟩

theorem witness_PartitionCommandsAct_5 : ∃ (s : State) (mb : Mb) (pl : Nat), s.Admits { opcode := 0x0702, priv := true, len := fun _ => 3, fields := [(0, 8), (8, 2), (10, 8), (18, 1)], checks := fun pl => let k := fld pl 8 2; [(8, decide (k ≠ 3)), (10, decide (k = 1 → fld pl 10 8 ≤ 1) && decide (k = 2 → 1 ≤ fld pl 10 8 ∧ fld pl 10 8 ≤ 62))] } mb pl ∧ fld pl 8 2 = 2 ∧ s.usablePart (fld pl 0 8) = true ∧ breaksTiming (s.begun mb) ((s.begun mb).modMbox (fld pl 10 8) fun m => { m with owner := BitVec.ofNat 8 (fld pl 0 8) }) = false :=
  ⟨(held 0 0x0702 3 (512 + 62 * 1024) id), 0, 512 + 62 * 1024, by unfold State.Admits; decide, by decide, by decide, by decide⟩

theorem witness_PartitionCommandsAct_6 : ∃ (s : State) (mb : Mb) (pl : Nat), s.Admits { opcode := 0x0703, priv := true, len := fun _ => 2, fields := [(0, 8), (8, 1)] } mb pl ∧ s.usablePart (fld pl 0 8) = true ∧ (bitOf pl 8 = true → s.timingOk (BitVec.ofNat 8 (fld pl 0 8)) = true) ∧ breaksTiming (s.begun mb) ((s.begun mb).modParts fun x => { x with timing := Tab.put false x.timing (fld pl 0 8) (bitOf pl 8), lapsed := if bitOf pl 8 then x.lapsed else Tab.put false x.lapsed (fld pl 0 8) false }) = false :=
  ⟨(held 0 0x0703 2 (256) id), 0, 256, by unfold State.Admits; decide, by decide, by decide, by decide⟩

theorem witness_PartitionCommandsAct_7 : ∃ (s : State) (mb : Mb) (pl : Nat), s.Admits { opcode := 0x0704, priv := true, len := fun _ => 3, fields := [(0, 8), (8, 8), (16, 1)] } mb pl ∧ (bitOf pl 16 && !(s.usablePart (fld pl 0 8) && s.usablePart (fld pl 8 8))) = false ∧ breaksTiming (s.begun mb) ((s.begun mb).stagePolicy (.grant (fbv pl 0 8) (fbv pl 8 8) (bitOf pl 16))) = false :=
  ⟨(held 0 0x0704 3 (65536) id), 0, 65536, by unfold State.Admits; decide, by decide, by decide⟩

theorem witness_PartitionCommandsAct_8 : ∃ (s : State) (mb : Mb) (pl : Nat) (p : Nat), s.Admits { opcode := 0x0705, priv := true, len := fun _ => 2, fields := [(0, 8), (8, 1), (9, 2)], checks := fun pl => [(9, decide (fld pl 9 2 ≠ 2))] } mb pl ∧ s.portNamed (fld pl 0 8) (fld pl 8 1) = some p ∧ breaksTiming (s.begun mb) ((s.begun mb).stagePolicy (.trust p (fbv pl 9 2))) = false :=
  ⟨(held 0 0x0705 2 (3 * 512) (onePort 0 { width := 4 })), 0, 3 * 512, 0, by unfold State.Admits; decide, by decide, by decide⟩

theorem witness_PartitionCommandsAct_9 : ∃ (s : State) (mb : Mb) (pl : Nat), s.Admits { opcode := 0x0706, priv := false, query := true, len := fun _ => 1, fields := [(0, 8)] } mb pl ∧ s.mayName mb (fbv pl 0 8) = true ∧ breaksTiming (s.begun mb) ((s.begun mb)) = false :=
  ⟨(held 0 0x0706 1 (255) id), 0, 255, by unfold State.Admits; decide, by decide, by decide⟩

theorem witness_PartitionCommandsAct_10 : ∃ (s : State) (mb : Mb) (pl : Nat) (c : PartCounters), s.Admits { opcode := 0x0715, priv := false, query := true, len := fun _ => 1, fields := [(0, 7), (7, 1)] } mb pl ∧ privilegedMb mb = true ∧ c = Tab.get {} s.parts.counters (fld pl 0 7) ∧ breaksTiming (s.begun mb) (if bitOf pl 7 then (s.begun mb).countPart (fld pl 0 7) fun _ => {} else (s.begun mb)) = false :=
  ⟨(held 0 0x0715 1 (255) id), 0, 255, {}, by unfold State.Admits; decide, by decide, by decide, by decide⟩

theorem witness_VirtualCommandsAct_1 : ∃ (s : State) (mb : Mb) (pl : Nat) (p : Nat), s.Admits { opcode := 0x0707, priv := true, len := fun _ => 4, fields := [(0, 7), (7, 8), (15, 6), (21, 10)], checks := fun pl => [(15, decide (1 ≤ fld pl 15 6 ∧ fld pl 15 6 ≤ 32)), (21, decide (fld pl 21 10 ≤ 1000))] } mb pl ∧ s.portNamed (fld pl 7 8) 0 = some p ∧ (s.port p).pcie = true ∧ (s.port p).upstream = true ∧ Tab.get none s.stagedPolicy.vh (fld pl 0 7) = none ∧ ((s.stagedPolicy.vh.all fun e => decide ((e.2.map fun r => r.port) ≠ some p)) = true) ∧ breaksTiming (s.begun mb) ((s.begun mb).stagePolicy (.vh (fld pl 0 7) (some { port := p, vdsps := fld pl 15 6, orderWait := if fld pl 21 10 = 0 then 100 else fld pl 21 10 }))) = false :=
  ⟨(held 0 0x0707 4 (127 + 32 * 2 ^ 15) (onePort 0 { width := 4, pcie := true, upstream := true })), 0, 127 + 32 * 2 ^ 15, 0, by unfold State.Admits; decide, by decide, by decide, by decide, by decide, by decide⟩

theorem witness_VirtualCommandsAct_2 : ∃ (s : State) (mb : Mb) (pl : Nat) (r : VhRec), s.Admits { opcode := 0x0708, priv := true, len := fun _ => 1, fields := [(0, 7)] } mb pl ∧ Tab.get none s.stagedPolicy.vh (fld pl 0 7) = some r ∧ s.stagedPolicy.bound (fld pl 0 7) = false ∧ breaksTiming (s.begun mb) ((s.begun mb).stagePolicy (.vh (fld pl 0 7) none)) = false :=
  ⟨(held 0 0x0708 1 (3) (fun s => { s with fabric := { staged := { policy := [.vh 3 (some ⟨0, 1, 100⟩)] } } })), 0, 3, ⟨0, 1, 100⟩, by unfold State.Admits; decide, by decide, by decide, by decide⟩

theorem witness_VirtualCommandsAct_3 : ∃ (s : State) (mb : Mb) (pl : Nat) (r : VhRec), s.Admits { opcode := 0x0709, priv := true, len := fun _ => 6, fields := [(0, 7), (7, 5), (12, 2), (14, 20), (34, 8)], checks := fun pl => [(12, decide (fld pl 12 2 ≠ 3))] } mb pl ∧ Tab.get none s.stagedPolicy.vh (fld pl 0 7) = some r ∧ fld pl 7 5 < r.vdsps ∧ fld pl 12 2 = 0 ∧ breaksTiming (s.begun mb) ((s.begun mb).stagePolicy (.bind (fld pl 0 7) (fld pl 7 5) none)) = false :=
  ⟨(held 0 0x0709 6 (3) (fun s => { s with fabric := { staged := { policy := [.vh 3 (some ⟨0, 1, 100⟩)] } } })), 0, 3, ⟨0, 1, 100⟩, by unfold State.Admits; decide, by decide, by decide, by decide, by decide⟩

theorem witness_VirtualCommandsAct_4 : ∃ (s : State) (mb : Mb) (pl : Nat) (r : VhRec) (b : Binding), s.Admits { opcode := 0x0709, priv := true, len := fun _ => 6, fields := [(0, 7), (7, 5), (12, 2), (14, 20), (34, 8)], checks := fun pl => [(12, decide (fld pl 12 2 ≠ 3))] } mb pl ∧ Tab.get none s.stagedPolicy.vh (fld pl 0 7) = some r ∧ fld pl 7 5 < r.vdsps ∧ fld pl 12 2 ≠ 0 ∧ b = (if fld pl 12 2 = 1 then .endpoint (fbv pl 14 20) else .inst (fbv pl 14 20) (fbv pl 34 8)) ∧ s.bindOk s.stagedPolicy (32 * fld pl 0 7 + fld pl 7 5) (s.stagedPolicy.ownerOf r.port) b = true ∧ breaksTiming (s.begun mb) ((s.begun mb).stagePolicy (.bind (fld pl 0 7) (fld pl 7 5) (some b))) = false :=
  ⟨(held 0 0x0709 6 (3 + 4096 + 256 * 2 ^ 14) (fun s => { s with fabric := { staged := { policy := [.vh 3 (some ⟨0, 1, 100⟩)] } } })), 0, 3 + 4096 + 256 * 2 ^ 14, ⟨0, 1, 100⟩, .endpoint 256, by unfold State.Admits; decide, by decide, by decide, by decide, by decide, by decide, by decide⟩

theorem witness_VirtualCommandsAct_5 : ∃ (s : State) (mb : Mb) (pl : Nat) (r : VhRec), s.Admits { opcode := 0x070A, priv := false, query := true, len := fun _ => 1, fields := [(0, 7)] } mb pl ∧ s.vhRec (fld pl 0 7) = some r ∧ s.mayName mb (s.portOwner r.port) = true ∧ breaksTiming (s.begun mb) ((s.begun mb)) = false :=
  ⟨(held 0 0x070A 1 (3) (fun s => { s with fabric := { tables := { policy := { vh := [(3, some ⟨0, 1, 100⟩)] } } } })), 0, 3, ⟨0, 1, 100⟩, by unfold State.Admits; decide, by decide, by decide, by decide⟩

theorem witness_VirtualCommandsAct_6 : ∃ (s : State) (mb : Mb) (pl p : Nat) (c : BitVec 64), s.Admits { opcode := 0x070B, priv := true, len := fun _ => 8, fields := [(0, 64)] } mb pl ∧ s.portNamed (fld pl 0 8) 0 = some p ∧ (s.port p).pcie = false ∧ (s.partner p).kind = 2 ∧ 1 ≤ c.toNat % 512 ∧ c.toNat % 512 ≤ 256 := ⟨held 0 0x070B 8 0 (fun s => { onePort 0 { width := 4 } s with fabric := { partners := [(0, { kind := 2 })] } }), 0, 0, 0, 256, by unfold State.Admits; decide, by decide⟩

theorem witness_InstanceCommandsAct_1 : ∃ (s : State) (mb : Mb) (pl : Nat) (p a : Nat) (sh : SharedRec) (m : Option Nat), s.Admits { opcode := 0x070C, priv := true, len := fun _ => 20, fields := [(0, 8), (8, 8), (16, 8), (24, 6), (32, 16), (48, 13), (61, 1), (64, 16), (80, 16), (96, 64)], checks := fun pl => [partRange pl 16, (24, decide (12 ≤ fld pl 24 6)), (32, decide (18 ≤ fld pl 32 16)), (48, decide (1 ≤ fld pl 48 13 ∧ fld pl 48 13 ≤ 4096)), (64, decide (fld pl 64 16 ≤ 16)), (80, decide (1 ≤ fld pl 80 16 ∧ fld pl 80 16 ≤ 32768)), (96, decide (fld pl 96 64 % 2 ^ fld pl 24 6 = 0))] } mb pl ∧ s.portNamed (fld pl 0 8) 0 = some p ∧ (s.port p).pcie = false ∧ Tab.get none s.stagedPolicy.shared p = some sh ∧ fld pl 8 8 < sh.cap ∧ s.usablePart (fld pl 16 8) = true ∧ s.stagedPolicy.instAt p (fld pl 8 8) = none ∧ s.stagedPolicy.inst.length < 4096 ∧ s.poolsSupply s.stagedPolicy p (fld pl 8 8) (fld pl 32 16) (fld pl 48 13) (fld pl 64 16) = true ∧ m = (if bitOf pl 61 then s.freeMeter s.stagedPolicy p else none) ∧ m.isSome = bitOf pl 61 ∧ s.stagedPolicy.freeXlate (256 * p + fld pl 8 8) (fld pl 80 16) = some a ∧ breaksTiming (s.begun mb) ((s.begun mb).stagePolicy (.inst p (fld pl 8 8) { owner := fbv pl 16 8, log2 := fld pl 24 6, base := fbv pl 96 64, buffer := fld pl 32 16, credits := fld pl 48 13, meter := m, mover := fld pl 64 16, xlate := fld pl 80 16, firstXlate := a })) = false :=
  ⟨(held 0 0x070C 20 (3 * 256 + 7 * 65536 + 12 * 2 ^ 24 + 18 * 2 ^ 32 + 2 ^ 48 + 2 ^ 61 + 2 ^ 80) (fun s => { oneInst .active s with parts := { usable := [(7, true)] } })), 0, 3 * 256 + 7 * 65536 + 12 * 2 ^ 24 + 18 * 2 ^ 32 + 2 ^ 48 + 2 ^ 61 + 2 ^ 80, 0, 4, ⟨4, 0, 0, 0⟩, some 0, by unfold State.Admits; decide, by decide, by decide, by decide, by decide, by decide, by decide, by decide, by decide, by decide, by decide, by decide, by decide⟩

theorem witness_InstanceCommandsAct_2 : ∃ (s : State) (mb : Mb) (pl p id b c v n a : Nat) (m : Option Nat) (r : InstRec), s.Admits { opcode := 0x070E, priv := true, len := fun _ => 12, fields := [(0, 8), (8, 8), (32, 16), (48, 13), (61, 1), (64, 16), (80, 16)], checks := fun pl => [(32, decide (fld pl 32 16 = 0 ∨ 18 ≤ fld pl 32 16)), (48, decide (fld pl 48 13 ≤ 4096)), (64, decide (fld pl 64 16 ≤ 16)), (80, decide (fld pl 80 16 ≤ 32768))] } mb pl ∧ s.NamesInst mb pl p id r ∧ b = keepZero (fld pl 32 16) r.buffer ∧ c = keepZero (fld pl 48 13) r.credits ∧ v = keepZero (fld pl 64 16) r.mover ∧ n = keepZero (fld pl 80 16) r.xlate ∧ m = (if bitOf pl 61 ∧ r.meter = none then s.freeMeter s.stagedPolicy p else r.meter) ∧ (bitOf pl 61 = true → m.isSome = true) ∧ (if n ≤ r.xlate then some r.firstXlate else s.stagedPolicy.freeXlate (256 * p + id) n) = some a ∧ s.poolsSupply s.stagedPolicy p id b c v = true := ⟨held 0 0x070E 12 (256 + 5 * 2 ^ 48) (oneInst .active), 0, 256 + 5 * 2 ^ 48, 0, 1, 18, 5, 1, 4, 0, none, anInst, by unfold State.Admits; decide, by unfold State.NamesInst; decide, by decide⟩

theorem witness_InstanceCommandsAct_3 : ∃ (s : State) (mb : Mb) (pl : Nat) (p id : Nat) (r : InstRec), s.Admits (instCmd 0x070F true false) mb pl ∧ s.NamesInst mb pl p id r ∧ (s.instRun p id).state = .active ∧ breaksTiming (s.begun mb) (((((s.begun mb).modInst p id fun x => { x with timeoutMs := instTimeout pl }).setInst p id .quiescing 1).writeIcb p id (fun i => { i with quiesceReq := true }) [0]).pauseRings p id) = false :=
  ⟨(held 0 0x070F 4 (256) (oneInst .active)), 0, 256, 0, 1, anInst, by unfold State.Admits; decide, by unfold State.NamesInst; decide, by decide, by decide +kernel⟩

theorem witness_InstanceCommandsAct_4 : ∃ (s : State) (mb : Mb) (pl : Nat) (p id : Nat) (r : InstRec), s.Admits (instCmd 0x0710 true false) mb pl ∧ s.NamesInst mb pl p id r ∧ ((s.instRun p id).state = .quiescing ∨ (s.instRun p id).state = .quiesced) ∧ breaksTiming (s.begun mb) ((((s.begun mb).setInst p id .active 2).writeIcb p id (fun i => { i with quiesceReq := false }) [0]).resumeRings p id) = false :=
  ⟨(held 0 0x0710 4 (256) (oneInst .quiesced)), 0, 256, 0, 1, anInst, by unfold State.Admits; decide, by unfold State.NamesInst; decide, by decide, by decide +kernel⟩

theorem witness_InstanceCommandsAct_5 : ∃ (s : State) (mb : Mb) (pl : Nat) (p id : Nat) (r : InstRec), s.Admits (instCmd 0x0711 true false) mb pl ∧ s.NamesInst mb pl p id r ∧ (s.instRun p id).state = .quiesced ∧ breaksTiming (s.begun mb) ((s.begun mb).beginReset p id 3 (instTimeout pl) false) = false :=
  ⟨(held 0 0x0711 4 (256) (oneInst .quiesced)), 0, 256, 0, 1, anInst, by unfold State.Admits; decide, by unfold State.NamesInst; decide, by decide, by decide +kernel⟩

theorem witness_InstanceCommandsAct_6 : ∃ (s : State) (mb : Mb) (pl : Nat) (p id : Nat) (r : InstRec), s.Admits (instCmd 0x0712 true false) mb pl ∧ s.NamesInst mb pl p id r ∧ (s.instRun p id).state ≠ .failed ∧ breaksTiming (s.begun mb) (((s.begun mb).modInst p id fun x => { x with timeoutMs := instTimeout pl }).forceReset p id) = false :=
  ⟨(held 0 0x0712 4 (256) (oneInst .active)), 0, 256, 0, 1, anInst, by unfold State.Admits; decide, by unfold State.NamesInst; decide, by decide, by decide +kernel⟩

theorem witness_InstanceCommandsAct_7 : ∃ (s : State) (mb : Mb) (pl : Nat) (p id : Nat) (r : InstRec), s.Admits (instCmd 0x070D true false) mb pl ∧ s.NamesInst mb pl p id r ∧ ((s.instRun p id).state = .quiesced ∨ (s.instRun p id).state = .failed) ∧ breaksTiming (s.begun mb) (if (s.instRun p id).state = .quiesced then (s.begun mb).beginReset p id 3 (instTimeout pl) true else (s.begun mb).endInst p id r) = false :=
  ⟨(held 0 0x070D 4 (256) (oneInst .failed)), 0, 256, 0, 1, anInst, by unfold State.Admits; decide, by unfold State.NamesInst; decide, by decide, by decide +kernel⟩

set_option exponentiation.threshold 40000 in set_option maxRecDepth 100000 in
theorem witness_InstanceCommandsAct_8 : ∃ (s : State) (mb : Mb) (pl : Nat) (p id : Nat) (r : InstRec), s.Admits { opcode := 0x0713, priv := false, len := fun pl => 8 + 24 * min 169 (fld pl 32 8), fields := [(0, 8), (8, 8), (16, 15), (32, 8), (64, 32448)], checks := fun pl => (32, decide (1 ≤ fld pl 32 8 ∧ fld pl 32 8 ≤ 169)) :: (List.range (min 169 (fld pl 32 8))).flatMap (xlateChecks pl) } mb pl ∧ s.NamesInst mb pl p id r ∧ fld pl 16 15 + fld pl 32 8 ≤ r.xlate ∧ breaksTiming (s.begun mb) ((s.begun mb).modParts fun x => { x with xlate := (List.range (fld pl 32 8)).foldl (fun t i => Tab.put {} t (r.firstXlate + fld pl 16 15 + i) (xlateOf pl (64 + 192 * i))) x.xlate }) = false :=
  ⟨(held 0 0x0713 32 (256 + 3 * 65536 + 2 ^ 32 + (7 + 12 * 8) * 2 ^ 64) (oneInst .active)), 0, 256 + 3 * 65536 + 2 ^ 32 + (7 + 12 * 8) * 2 ^ 64, 0, 1, anInst, by unfold State.Admits; decide, by unfold State.NamesInst; decide, by decide, by decide⟩

theorem witness_InstanceCommandsAct_9 : ∃ (s : State) (mb : Mb) (pl : Nat) (p id : Nat) (r : InstRec), s.Admits (instCmd 0x0714 false true) mb pl ∧ s.NamesInst mb pl p id r ∧ breaksTiming (s.begun mb) ((s.begun mb)) = false :=
  ⟨(held 0 0x0714 4 (256) (oneInst .active)), 0, 256, 0, 1, anInst, by unfold State.Admits; decide, by unfold State.NamesInst; decide, by decide⟩

theorem witness_JugglerCommandsAct_1 : ∃ (s : State) (mb : Mb) (pl : Nat) (s1 s2 : State), s.Admits { opcode := 0x0800, priv := true, len := fun _ => 4, fields := [(0, 9), (9, 10), (19, 8)], checks := fun pl => [(9, decide (1 ≤ fld pl 9 10 ∧ fld pl 0 9 + fld pl 9 10 ≤ 512))] } mb pl ∧ (s1 = (s.begun mb).each (List.range (fld pl 9 10)) fun t i => t.modJuggler (fld pl 0 9 + i) fun x => { x with owner := fbv pl 19 8 }) ∧ ((s.engineNeeds.any fun e => s.hasJuggler e.1 e.2 && !s1.hasJuggler e.1 e.2) = false) ∧ moveForeign s1.foreignRings s1 = some s2 ∧ breaksTiming (s.begun mb) (s2) = false :=
  ⟨(held 0 0x0800 4 (511 + 512) id), 0, 511 + 512, _, _, by unfold State.Admits; decide, by rfl, by decide, by rfl, by decide⟩

theorem witness_JugglerCommandsAct_2 : ∃ (s : State) (mb : Mb) (pl : Nat), s.Admits { opcode := 0x0801, priv := true, query := true, len := fun _ => 2, fields := [(0, 9)] } mb pl ∧ breaksTiming (s.begun mb) ((s.begun mb)) = false :=
  ⟨(held 0 0x0801 2 (511) id), 0, 511, by unfold State.Admits; decide, by decide⟩

theorem witness_JugglerCommandsAct_3 : ∃ (s : State) (mb : Mb) (pl : Nat) (p id : Nat) (r : InstRec) (x : MoverRing) (t : State), s.Admits { opcode := 0x0802, priv := false, len := fun _ => 48, fields := [(0, 29), (32, 352 - 32)], checks := fun pl => [(20, decide (4 ≤ fld pl 20 4)), (64, ringAligned (fld pl 64 64) 64 (fld pl 20 4)), (160, ringAligned (fld pl 160 64) 32 (fld pl 20 4)), (256, decide (fld pl 256 64 % 4 = 0))] } mb pl ∧ s.NamesInst mb pl p (fld pl 8 8) r ∧ fld pl 16 4 < r.mover ∧ ((s.ringsWith fun x => decide (x.port = p ∧ x.inst = fld pl 8 8 ∧ x.ring = fld pl 16 4)).head? = some id) ∧ s.moverRing id = some x ∧ x.state ≠ .running ∧ x.state ≠ .stopping ∧ (t = (((((s.begun mb).dropStaged id).killTags id).modMover id fun x => x.configure p pl).setRingState id .stopped 0).reseat id) ∧ breaksTiming (s.begun mb) (t) = false :=
  ⟨(held 0 0x0802 48 (256 + 4 * 2 ^ 20) (fun s => { oneInst .active s with jug := { rings := [(9, some { inst := 1 })] } })), 0, 256 + 4 * 2 ^ 20, 0, 9, anInst, { inst := 1 }, _, by unfold State.Admits; decide, by unfold State.NamesInst; decide, by decide, by decide, by decide, by decide, by decide, by rfl, by decide⟩

set_option maxRecDepth 100000 in
theorem witness_JugglerCommandsAct_4 : ∃ (s : State) (mb : Mb) (pl : Nat) (p id j : Nat) (r : InstRec), s.Admits { opcode := 0x0802, priv := false, len := fun _ => 48, fields := [(0, 29), (32, 352 - 32)], checks := fun pl => [(20, decide (4 ≤ fld pl 20 4)), (64, ringAligned (fld pl 64 64) 64 (fld pl 20 4)), (160, ringAligned (fld pl 160 64) 32 (fld pl 20 4)), (256, decide (fld pl 256 64 % 4 = 0))] } mb pl ∧ s.NamesInst mb pl p (fld pl 8 8) r ∧ fld pl 16 4 < r.mover ∧ ((s.ringsWith fun x => decide (x.port = p ∧ x.inst = fld pl 8 8 ∧ x.ring = fld pl 16 4)) = []) ∧ ((List.range 8192).find? (fun i => (s.moverRing i).isNone) = some id) ∧ s.placeOn p r.owner = some j ∧ breaksTiming (s.begun mb) (((s.begun mb).setMover id (some ({ juggler := j : MoverRing }.configure p pl))).setRingState id .stopped 0) = false :=
  ⟨(held 0 0x0802 48 (256 + 4 * 2 ^ 20) (fun s => { oneInst .active s with now := 0 })), 0, 256 + 4 * 2 ^ 20, 0, 0, 0, anInst, by unfold State.Admits; decide, by unfold State.NamesInst; decide, by decide, by decide, by decide, by decide, by decide⟩

theorem witness_JugglerCommandsAct_5 : ∃ (s : State) (mb : Mb) (pl : Nat) (r : MoverRing), s.Admits { opcode := 0x0803, priv := false, len := fun _ => 2, fields := [(0, 13), (13, 2)], checks := fun pl => [(13, decide (fld pl 13 2 ≠ 3))] } mb pl ∧ s.moverRing (fld pl 0 13) = some r ∧ s.mayName mb (s.ringOwner r) = true ∧ fld pl 13 2 = 0 ∧ r.state = .stopped ∧ breaksTiming (s.begun mb) (((s.begun mb).setRingState (fld pl 0 13) .running 1).reseat (fld pl 0 13)) = false :=
  ⟨(held 0 0x0803 2 (9) (fun s => { oneInst .active s with jug := { rings := [(9, some { inst := 1, state := .stopped })] } })), 0, 9, { inst := 1, state := .stopped }, by unfold State.Admits; decide, by decide, by decide, by decide, by decide, by decide⟩

theorem witness_JugglerCommandsAct_6 : ∃ (s : State) (mb : Mb) (pl : Nat) (r : MoverRing), s.Admits { opcode := 0x0803, priv := false, len := fun _ => 2, fields := [(0, 13), (13, 2)], checks := fun pl => [(13, decide (fld pl 13 2 ≠ 3))] } mb pl ∧ s.moverRing (fld pl 0 13) = some r ∧ s.mayName mb (s.ringOwner r) = true ∧ fld pl 13 2 = 1 ∧ r.state = .running ∧ breaksTiming (s.begun mb) ((s.begun mb).stopRing (fld pl 0 13) 2) = false :=
  ⟨(held 0 0x0803 2 (9 + 8192) (fun s => { oneInst .active s with jug := { rings := [(9, some { inst := 1, state := .running })] } })), 0, 9 + 8192, { inst := 1, state := .running }, by unfold State.Admits; decide, by decide, by decide, by decide, by decide, by decide⟩

theorem witness_JugglerCommandsAct_7 : ∃ (s : State) (mb : Mb) (pl : Nat) (r : MoverRing), s.Admits { opcode := 0x0803, priv := false, len := fun _ => 2, fields := [(0, 13), (13, 2)], checks := fun pl => [(13, decide (fld pl 13 2 ≠ 3))] } mb pl ∧ s.moverRing (fld pl 0 13) = some r ∧ s.mayName mb (s.ringOwner r) = true ∧ fld pl 13 2 = 2 ∧ (r.state = .stopped ∨ r.state = .error) ∧ breaksTiming (s.begun mb) ((((((s.begun mb).dropStaged (fld pl 0 13)).killTags (fld pl 0 13)).modMover (fld pl 0 13) fun x => { x with head := 0, tail := 0, phase := true, descs := [], wasRunning := false }).setRingState (fld pl 0 13) .stopped 3).reseat (fld pl 0 13)) = false :=
  ⟨(held 0 0x0803 2 (9 + 2 * 8192) (fun s => { oneInst .active s with jug := { rings := [(9, some { inst := 1, state := .error })] } })), 0, 9 + 2 * 8192, { inst := 1, state := .error }, by unfold State.Admits; decide, by decide, by decide, by decide, by decide, by decide⟩

theorem witness_JugglerCommandsAct_8 : ∃ (s : State) (mb : Mb) (pl : Nat) (r : MoverRing), s.Admits { opcode := 0x0804, priv := false, query := true, len := fun _ => 2, fields := [(0, 13)] } mb pl ∧ s.moverRing (fld pl 0 13) = some r ∧ s.mayName mb (s.ringOwner r) = true ∧ breaksTiming (s.begun mb) ((s.begun mb)) = false :=
  ⟨(held 0 0x0804 2 (9) (fun s => { oneInst .active s with jug := { rings := [(9, some { inst := 1, state := .error })] } })), 0, 9, { inst := 1, state := .error }, by unfold State.Admits; decide, by decide, by decide, by decide⟩

theorem witness_JugglerCommandsAct_9 : ∃ (s : State) (mb : Mb) (pl : Nat) (r : MoverRing), s.Admits { opcode := 0x0805, priv := true, len := fun _ => 3, fields := [(0, 13), (13, 9)] } mb pl ∧ s.moverRing (fld pl 0 13) = some r ∧ (s.eligible r.port (s.ringOwner r)).contains (fld pl 13 9) = true ∧ s.ringsOn (fld pl 13 9) < 16 ∧ breaksTiming (s.begun mb) (((s.begun mb).modMover (fld pl 0 13) fun x => { x with moveTo := some (fld pl 13 9) }).moveRing (fld pl 0 13)) = false :=
  ⟨(held 0 0x0805 3 (9 + 8192) (fun s => { oneInst .active s with jug := { rings := [(9, some { inst := 1 })] } })), 0, 9 + 8192, { inst := 1 }, by unfold State.Admits; decide, by decide, by decide, by decide, by decide⟩

theorem witness_JugglerCommandsAct_10 : ∃ (s : State) (mb : Mb) (pl : Nat) (x : Juggler), s.Admits { opcode := 0x0806, priv := false, query := true, len := fun _ => 2, fields := [(0, 13), (13, 1), (14, 1)], checks := fun pl => [(9 + (lowBit (fld pl 9 4) 4).getD 0, !bitOf pl 13 || decide (fld pl 9 4 = 0))] } mb pl ∧ privilegedMb mb = true ∧ bitOf pl 13 = true ∧ x = s.juggler (fld pl 0 9) ∧ breaksTiming (s.begun mb) (if bitOf pl 14 then ((s.begun mb).modJuggler (fld pl 0 9) fun x => { x with synthCpl := 0, steps := [0, 0, 0, 0, 0] }).modJug fun y => { y with synthWaits := Tab.put 0 y.synthWaits (fld pl 0 9 / 4) 0, moverDbDeny := 0 } else (s.begun mb)) = false :=
  ⟨(held 0 0x0806 2 (511 + 8192 + 16384) id), 0, 511 + 8192 + 16384, {}, by unfold State.Admits; decide, by decide, by decide, by decide, by decide⟩

theorem witness_JugglerCommandsAct_11 : ∃ (s : State) (mb : Mb) (pl : Nat) (r : MoverRing), s.Admits { opcode := 0x0806, priv := false, query := true, len := fun _ => 2, fields := [(0, 13), (13, 1), (14, 1)], checks := fun pl => [(9 + (lowBit (fld pl 9 4) 4).getD 0, !bitOf pl 13 || decide (fld pl 9 4 = 0))] } mb pl ∧ bitOf pl 13 = false ∧ s.moverRing (fld pl 0 13) = some r ∧ s.mayName mb (s.ringOwner r) = true ∧ breaksTiming (s.begun mb) (if bitOf pl 14 then (s.begun mb).modMover (fld pl 0 13) fun x => { x with descDone := 0, descErr := 0, bytesMoved := 0 } else (s.begun mb)) = false :=
  ⟨(held 0 0x0806 2 (9 + 16384) (fun s => { oneInst .active s with jug := { rings := [(9, some { inst := 1 })] } })), 0, 9 + 16384, { inst := 1 }, by unfold State.Admits; decide, by decide, by decide, by decide, by decide⟩

theorem witness_PatchworkCommandsAct_1 : ∃ (s : State) (mb : Mb) (pl : Nat) (x : PwPort) (e : Personality), s.Admits { opcode := 0x0900, priv := true, len := fun _ => 8, fields := [(0, 1), (1, 2), (3, 1), (4, 1), (5, 1), (6, 1), (7, 2), (9, 1), (10, 2), (12, 1), (13, 3), (16, 10), (26, 7), (33, 8), (41, 8)], checks := fun pl => let pe := fld pl 1 2; [(1, decide (pe ≠ 3)), (3, !(bitOf pl 3 && decide (pe = 2))), (4, !(bitOf pl 4 && decide (pe = 1))), (10, decide (fld pl 10 2 ≠ 3)), (12, !(decide (pe = 2) && !bitOf pl 12)), (16, decide (fld pl 16 10 = 0 ∨ (2 ≤ fld pl 16 10 ∧ fld pl 16 10 ≤ 512)))] } mb pl ∧ x = pwOf (bitOf pl 0) ∧ e = personalityOf (fld pl 1 2) ∧ s.fenced (pwUnit x) = false ∧ s.underTest (pwUnit x) = false ∧ ((s.pw x).personality ≠ .disabled → e ≠ .disabled → e = (s.pw x).personality ∧ bitOf pl 3 = (s.pw x).syscon ∧ bitOf pl 4 = (s.pw x).hostBridge) ∧ (e ≠ .disabled → (s.pw x).vddHb = true ∧ ((s.pw x).personality = .disabled → s.marked (pwUnit x) = false)) ∧ breaksTiming (s.begun mb) ((if (s.pw x).personality ≠ .disabled ∧ e = .disabled then (s.begun mb).pwEndWork x false else (s.begun mb)).modPw x fun p => { p with personality := e, syscon := bitOf pl 3, hostBridge := bitOf pl 4, bus64 := bitOf pl 5, m66 := bitOf pl 6, brLevel := fbv pl 7 2, ror := bitOf pl 9, arbMode := fbv pl 10 2, yieldOn := bitOf pl 12, yieldTime := fbv pl 13 3, busTimer := if fld pl 16 10 = 0 then p.busTimer else fld pl 16 10, reqEn := fbv pl 26 7, secBus := fbv pl 33 8, prefetchHold := if fld pl 41 8 = 0 then p.prefetchHold else fld pl 41 8, driving := if e = .disabled then false else p.driving }) = false :=
  ⟨(held 0 0x0900 8 (1 + 2 + 8) (fun s => { s with pwB := { s.pwB with vddHb := true } })), 0, 1 + 2 + 8, .b, .vme, by unfold State.Admits; decide, by decide, by decide, by decide, by decide, by decide, by decide, by decide⟩

theorem witness_PatchworkCommandsAct_2 : ∃ (s : State) (mb : Mb) (pl : Nat), s.Admits { opcode := 0x0901, priv := true, len := fun _ => 1, fields := [(0, 1), (1, 7)] } mb pl ∧ s.puHome (fld pl 1 7) = true ∧ breaksTiming (s.begun mb) ((s.begun mb).modMgmt fun m => if bitOf pl 0 then { m with homeB := fld pl 1 7 } else { m with homeA := fld pl 1 7 }) = false :=
  ⟨(held 0 0x0901 1 (255) id), 0, 255, by unfold State.Admits; decide, by decide, by decide⟩

theorem witness_PatchworkCommandsAct_3 : ∃ (s : State) (mb : Mb) (pl : Nat) (x : PwPort) (w : PwWindow), s.Admits { opcode := 0x0902, priv := true, len := fun _ => 32, fields := [(0, 27), (29, 9), (64, 64), (128, 64), (192, 20), (212, 12)] } mb pl ∧ x = pwOf (bitOf pl 0) ∧ w = { valid := bitOf pl 7, dirIn := bitOf pl 8, space := fbv pl 9 2, priv := bitOf pl 11, width := fbv pl 12 2, block := fbv pl 14 2, lanes := fbv pl 16 2, sef := bitOf pl 18, prefetch := fbv pl 19 4, tunnel := bitOf pl 23, cls := fbv pl 24 3, bar := fbv pl 29 3, sizeLog2 := fbv pl 32 6, base := fbv pl 64 64, xlate := fbv pl 128 64, target := fbv pl 192 20, inst := fbv pl 212 12 } ∧ firstBad ((s.pw x).windowChecks (fld pl 1 6) w) = none ∧ breaksTiming (s.begun mb) ((((s.begun mb).closeWrite x).dropPrefetch x fun b => decide (b.window = fld pl 1 6)).modPw x fun p => { p with windows := Tab.put {} p.windows (fld pl 1 6) w }) = false :=
  ⟨(held 0 0x0902 32 (1 + 2 * 63 + 128 + 8 * 2 ^ 32) id), 0, 1 + 2 * 63 + 128 + 8 * 2 ^ 32, .b, _, by unfold State.Admits; decide, by decide, by rfl, by decide, by decide⟩

theorem witness_PatchworkCommandsAct_4 : ∃ (s : State) (mb : Mb) (pl : Nat), s.Admits { opcode := 0x0903, priv := false, query := true, len := fun _ => 2, fields := [(0, 1), (1, 6), (7, 7)], checks := fun pl => [(7, decide (1 ≤ fld pl 7 7 ∧ fld pl 1 6 + fld pl 7 7 ≤ 64))] } mb pl ∧ s.mayName mb (s.pwOwner (pwOf (bitOf pl 0))) = true ∧ breaksTiming (s.begun mb) ((s.begun mb)) = false :=
  ⟨(held 0 0x0903 2 (1 + 2 * 63 + 128) id), 0, 1 + 2 * 63 + 128, by unfold State.Admits; decide, by decide, by decide⟩

theorem witness_PatchworkCommandsAct_5 : ∃ (s : State) (mb : Mb) (pl : Nat) (p : Patchwork), s.Admits { opcode := 0x0904, priv := false, query := true, len := fun _ => 1, fields := [(0, 1)] } mb pl ∧ p = s.pw (pwOf (bitOf pl 0)) ∧ s.mayName mb (s.pwOwner (pwOf (bitOf pl 0))) = true ∧ breaksTiming (s.begun mb) ((s.begun mb)) = false :=
  ⟨(held 0 0x0904 1 (1) id), 0, 1, _, by unfold State.Admits; decide, by rfl, by decide, by decide⟩

theorem witness_PatchworkCommandsAct_6 : ∃ (s : State) (mb : Mb) (pl : Nat) (w : BitVec 64), s.Admits { opcode := 0x0905, priv := true, len := fun _ => 2, fields := [(0, 6), (6, 1), (7, 1), (8, 6), (14, 1), (15, 1)] } mb pl ∧ w = (if bitOf pl 15 then (if bitOf pl 14 then s.sideband.warnEn ||| (1 <<< fld pl 8 6) else s.sideband.warnEn &&& ~~~((1 : BitVec 64) <<< fld pl 8 6)) else s.sideband.warnEn) ∧ breaksTiming (s.begun mb) ({ (s.begun mb) with sideband := { s.sideband with wires := Tab.put {} s.sideband.wires (fld pl 0 6) { enable := bitOf pl 6, toHeritage := bitOf pl 7, hpin := fbv pl 8 6 }, warnEn := w } }) = false :=
  ⟨(held 0 0x0905 2 (65535) id), 0, 65535, _, by unfold State.Admits; decide, by rfl, by decide⟩

theorem witness_PatchworkCommandsAct_7 : ∃ (s : State) (mb : Mb) (pl : Nat), s.Admits { opcode := 0x0906, priv := false, query := true } mb pl ∧ breaksTiming (s.begun mb) ((s.begun mb)) = false :=
  ⟨(held 5 0x0906 0 (0) id), 5, 0, by unfold State.Admits; decide, by decide⟩

theorem witness_PatchworkCommandsAct_8 : ∃ (s : State) (mb : Mb) (pl : Nat) (x : PwPort), s.Admits { opcode := 0x0907, priv := true, len := fun _ => 1, fields := [(0, 1)] } mb pl ∧ x = pwOf (bitOf pl 0) ∧ (s.pw x).personality ≠ .disabled ∧ ((s.pw x).syscon || (s.pw x).hostBridge) = true ∧ breaksTiming (s.begun mb) ((((s.begun mb).pwEndWork x false).raise 0x0901 [(pwIdx x, 1), (1, 1)] [s.pwOwner x]).modPw x fun p => { p with driving := true }) = false :=
  ⟨(held 0 0x0907 1 (1) (fun s => { s with pwB := { s.pwB with personality := .vme, syscon := true } })), 0, 1, .b, by unfold State.Admits; decide, by decide, by decide, by decide, by decide⟩

theorem witness_PatchworkCommandsAct_9 : ∃ (s : State) (mb : Mb) (pl : Nat) (c : PwCounters), s.Admits { opcode := 0x0908, priv := false, query := true, len := fun _ => 1, fields := [(0, 1), (1, 1)] } mb pl ∧ c = (s.pw (pwOf (bitOf pl 0))).counters ∧ s.mayName mb (s.pwOwner (pwOf (bitOf pl 0))) = true ∧ breaksTiming (s.begun mb) (if bitOf pl 1 then (s.begun mb).countPw (pwOf (bitOf pl 0)) fun _ => {} else (s.begun mb)) = false :=
  ⟨(held 0 0x0908 1 (3) id), 0, 3, {}, by unfold State.Admits; decide, by decide, by decide, by decide⟩

theorem witness_SlotCommandsAct_1 : ∃ (s : State) (mb : Mb) (pl : Nat) (o : ChanSettings), s.Admits { opcode := 0x0A00, priv := true, len := fun _ => 12, fields := [(0, 6), (6, 1), (7, 1), (8, 1), (16, 8), (24, 7), (32, 10), (42, 10), (52, 10), (64, 4), (68, 1)], checks := fun pl => [(0, decide (fld pl 0 6 < 48)), (16, decide (fld pl 16 8 = 0 ∨ (10 ≤ fld pl 16 8 ∧ fld pl 16 8 ≤ 200))), (24, decide (fld pl 24 7 ≤ 100)), (32, decide (fld pl 32 10 ≤ 1000)), (42, decide (fld pl 42 10 ≤ 1000)), (52, decide (fld pl 52 10 = 0 ∨ (5 ≤ fld pl 52 10 ∧ fld pl 52 10 ≤ 1000)))] } mb pl ∧ s.slots.restarting = false ∧ o = (s.chan (fld pl 0 6)).set ∧ breaksTiming (s.begun mb) ((s.begun mb).setChan (fld pl 0 6) { enable := bitOf pl 6, autoOn := bitOf pl 7, hostPower := bitOf pl 8, vLim := keep0 (fld pl 16 8) o.vLim, breaker := keep0 (fld pl 24 7) o.breaker, prechargeMax := keep0 (fld pl 32 10) o.prechargeMax, pgDelay := keep0 (fld pl 42 10) o.pgDelay, pfwLead := keep0 (fld pl 52 10) o.pfwLead, retryMax := if bitOf pl 68 then fld pl 64 4 else o.retryMax }) = false :=
  ⟨(held 0 0x0A00 12 (47 + 64) id), 0, 47 + 64, _, by unfold State.Admits; decide, by decide, by rfl, by decide⟩

theorem witness_SlotCommandsAct_2 : ∃ (s : State) (mb : Mb) (pl : Nat) (g : ChanState), s.Admits { opcode := 0x0A01, priv := true, len := fun _ => 2, fields := [(0, 6), (8, 3)], checks := fun pl => [(0, decide (fld pl 0 6 < 48)), (8, decide (fld pl 8 3 ≤ 4))] } mb pl ∧ s.slots.restarting = false ∧ g = (s.chan (fld pl 0 6)).state ∧ fld pl 8 3 = 0 ∧ (g = .ready ∨ g.powered = true) ∧ breaksTiming (s.begun mb) (if g = .ready then (s.begun mb).requestStart (fld pl 0 6) else (s.begun mb)) = false :=
  ⟨(held 0 0x0A01 2 (47) (fun s => { s with slots := { s.slots with chans := [(47, { state := .ready })] } })), 0, 47, .ready, by unfold State.Admits; decide, by decide, by decide, by decide, by decide, by decide⟩

theorem witness_SlotCommandsAct_3 : ∃ (s : State) (mb : Mb) (pl : Nat) (g : ChanState), s.Admits { opcode := 0x0A01, priv := true, len := fun _ => 2, fields := [(0, 6), (8, 3)], checks := fun pl => [(0, decide (fld pl 0 6 < 48)), (8, decide (fld pl 8 3 ≤ 4))] } mb pl ∧ s.slots.restarting = false ∧ g = (s.chan (fld pl 0 6)).state ∧ fld pl 8 3 = 1 ∧ breaksTiming (s.begun mb) (if g.powered then ((s.begun mb).modChan (fld pl 0 6) fun x => { x with retry := 0 }).warnOff (fld pl 0 6) scCommand else if g = .retryWait then ((s.begun mb).modChan (fld pl 0 6) fun x => { x with retry := 0 }).chanTo (fld pl 0 6) .ready scCommand else (s.begun mb)) = false :=
  ⟨(held 0 0x0A01 2 (256) (fun s => { s with slots := { s.slots with chans := [(0, { state := .on })] } })), 0, 256, .on, by unfold State.Admits; decide, by decide, by decide, by decide, by decide⟩

theorem witness_SlotCommandsAct_4 : ∃ (s : State) (mb : Mb) (pl : Nat), s.Admits { opcode := 0x0A01, priv := true, len := fun _ => 2, fields := [(0, 6), (8, 3)], checks := fun pl => [(0, decide (fld pl 0 6 < 48)), (8, decide (fld pl 8 3 ≤ 4))] } mb pl ∧ s.slots.restarting = false ∧ fld pl 8 3 = 2 ∧ (s.chan (fld pl 0 6)).state = .latched ∧ breaksTiming (s.begun mb) ((((s.begun mb).modChan (fld pl 0 6) fun x => { x with retry := 0 }).chanTo (fld pl 0 6) .ready scCommand).autoStart (fld pl 0 6)) = false :=
  ⟨(held 0 0x0A01 2 (512) (fun s => { s with slots := { s.slots with chans := [(0, { state := .latched })] } })), 0, 512, by unfold State.Admits; decide, by decide, by decide, by decide, by decide⟩

theorem witness_SlotCommandsAct_5 : ∃ (s : State) (mb : Mb) (pl : Nat), s.Admits { opcode := 0x0A01, priv := true, len := fun _ => 2, fields := [(0, 6), (8, 3)], checks := fun pl => [(0, decide (fld pl 0 6 < 48)), (8, decide (fld pl 8 3 ≤ 4))] } mb pl ∧ s.slots.restarting = false ∧ fld pl 8 3 = 3 ∧ (s.chan (fld pl 0 6)).state = .lockout ∧ breaksTiming (s.begun mb) ((s.begun mb).clearLockout (fld pl 0 6)) = false :=
  ⟨(held 0 0x0A01 2 (768) (fun s => { s with slots := { s.slots with chans := [(0, { state := .lockout })] } })), 0, 768, by unfold State.Admits; decide, by decide, by decide, by decide, by decide⟩

theorem witness_SlotCommandsAct_6 : ∃ (s : State) (mb : Mb) (pl : Nat), s.Admits { opcode := 0x0A01, priv := true, len := fun _ => 2, fields := [(0, 6), (8, 3)], checks := fun pl => [(0, decide (fld pl 0 6 < 48)), (8, decide (fld pl 8 3 ≤ 4))] } mb pl ∧ s.slots.restarting = false ∧ fld pl 8 3 = 4 ∧ (s.chan (fld pl 0 6)).state = .retryWait ∧ breaksTiming (s.begun mb) (((s.begun mb).chanTo (fld pl 0 6) .ready scCommand).requestStart (fld pl 0 6)) = false :=
  ⟨(held 0 0x0A01 2 (1024) (fun s => { s with slots := { s.slots with chans := [(0, { state := .retryWait })] } })), 0, 1024, by unfold State.Admits; decide, by decide, by decide, by decide, by decide⟩

theorem witness_SlotCommandsAct_7 : ∃ (s : State) (mb : Mb) (pl : Nat) (x : Chan), s.Admits { opcode := 0x0A02, priv := false, query := true, len := fun _ => 1, fields := [(0, 6)], checks := fun pl => [(0, decide (fld pl 0 6 < 48))] } mb pl ∧ s.slots.restarting = false ∧ x = s.chan (fld pl 0 6) ∧ ((privilegedMb mb || (s.portsOfSlot (fld pl 0 6)).any fun p => s.mayName mb (s.portOwner p)) = true) ∧ breaksTiming (s.begun mb) ((s.begun mb)) = false :=
  ⟨(held 0 0x0A02 1 (47) id), 0, 47, _, by unfold State.Admits; decide, by decide, by rfl, by decide, by decide⟩

theorem witness_SlotCommandsAct_8 : ∃ (s : State) (mb : Mb) (pl : Nat) (w r : Nat), s.Admits { opcode := 0x0A03, priv := true, len := fun _ => 5, fields := [(0, 8), (8, 8), (16, 6), (24, 8), (32, 1)], checks := fun pl => [(0, decide (fld pl 0 8 = 0 ∨ (144 ≤ fld pl 0 8 ∧ fld pl 0 8 ≤ 224))), (8, decide (fld pl 8 8 = 0 ∨ 120 ≤ fld pl 8 8)), (16, decide (fld pl 16 6 ≤ 48))] } mb pl ∧ s.slots.restarting = false ∧ w = keep0 (fld pl 0 8) s.slots.bus.warnLevel ∧ r = keep0 (fld pl 8 8) s.slots.bus.resetLevel ∧ r + 8 ≤ w ∧ breaksTiming (s.begun mb) ((s.begun mb).modSlots fun x => { x with bus := { warnLevel := w, resetLevel := r, startLimit := keep0 (fld pl 16 6) s.slots.bus.startLimit, staggerGap := if bitOf pl 32 then fld pl 24 8 else s.slots.bus.staggerGap } }) = false :=
  ⟨(held 0 0x0A03 5 (152 + 144 * 256) id), 0, 152 + 144 * 256, 152, 144, by unfold State.Admits; decide, by decide, by decide, by decide, by decide, by decide⟩

theorem witness_SlotCommandsAct_9 : ∃ (s : State) (mb : Mb) (pl : Nat), s.Admits { opcode := 0x0A04, priv := true, query := true } mb pl ∧ s.slots.restarting = false ∧ breaksTiming (s.begun mb) ((s.begun mb).modSlots fun x => { x with vfeedMin := x.vfeed }) = false :=
  ⟨(held 0 0x0A04 0 (0) id), 0, 0, by unfold State.Admits; decide, by decide, by decide⟩

theorem witness_SlotCommandsAct_10 : ∃ (s : State) (mb : Mb) (pl : Nat), s.Admits { opcode := 0x0A05, priv := true, len := fun _ => 1, fields := [(0, 6)], checks := fun pl => [(0, decide (fld pl 0 6 < 48))] } mb pl ∧ s.slots.restarting = false ∧ s.chanMapped (fld pl 0 6) = true ∧ breaksTiming (s.begun mb) ((s.begun mb).modChan (fld pl 0 6) fun x => { x with attention := true }) = false :=
  ⟨(held 0 0x0A05 1 (7) (fun s => { onePort 0 { width := 4 } s with fabric := { partners := [(0, { slot := 7 })], tables := { endpoint := [(1, some (.port 0 0))], policy := { vh := [(0, some ⟨0, 1, 100⟩)], bind := [(0, some (.endpoint 1))] } } } })), 0, 7, by unfold State.Admits; decide, by decide, by decide, by decide⟩

theorem witness_SlotCommandsAct_11 : ∃ (s : State) (mb : Mb) (pl : Nat), s.Admits { opcode := 0x0A06, priv := true } mb pl ∧ s.slots.restarting = false ∧ breaksTiming (s.begun mb) ((s.begun mb).modSlots fun x => { x with profile := some { bus := x.bus, chans := (List.range 48).foldl (fun t c => Tab.put {} t c (s.chan c).set) [], seq := (s.slots.profile.map fun p => p.seq + 1).getD 0 } }) = false :=
  ⟨(held 0 0x0A06 0 (0) id), 0, 0, by unfold State.Admits; decide, by decide, by decide⟩

theorem witness_SlotCommandsAct_12 : ∃ (s : State) (mb : Mb) (pl : Nat), s.Admits { opcode := 0x0A07, priv := false, query := true, len := fun _ => 1, fields := [(0, 6), (6, 1), (7, 1)], checks := fun pl => [(0, bitOf pl 6 || decide (fld pl 0 6 < 48))] } mb pl ∧ s.slots.restarting = false ∧ bitOf pl 6 = true ∧ privilegedMb mb = true ∧ breaksTiming (s.begun mb) (if bitOf pl 7 then (s.begun mb).modSlots fun x => { x with busWarnings := 0, busCuts := 0 } else (s.begun mb)) = false :=
  ⟨(held 0 0x0A07 1 (192) id), 0, 192, by unfold State.Admits; decide, by decide, by decide, by decide, by decide⟩

theorem witness_SlotCommandsAct_13 : ∃ (s : State) (mb : Mb) (pl : Nat) (k : ChanCounters), s.Admits { opcode := 0x0A07, priv := false, query := true, len := fun _ => 1, fields := [(0, 6), (6, 1), (7, 1)], checks := fun pl => [(0, bitOf pl 6 || decide (fld pl 0 6 < 48))] } mb pl ∧ s.slots.restarting = false ∧ bitOf pl 6 = false ∧ k = (s.chan (fld pl 0 6)).counters ∧ ((privilegedMb mb || (s.portsOfSlot (fld pl 0 6)).any fun p => s.mayName mb (s.portOwner p)) = true) ∧ breaksTiming (s.begun mb) (if bitOf pl 7 then (s.begun mb).modChan (fld pl 0 6) fun x => { x with counters := {} } else (s.begun mb)) = false :=
  ⟨(held 0 0x0A07 1 (47 + 128) id), 0, 47 + 128, {}, by unfold State.Admits; decide, by decide, by decide, by decide, by decide, by decide⟩

theorem witness_SlotCommandsAct_14 : ∃ (s : State) (mb : Mb) (c : Instr), s.slots.restarting = true ∧ c ∈ [Instr.slotConfig mb, .slotPower mb, .slotQuery mb, .slotBusConfig mb, .slotBusQuery mb, .slotAttention mb, .slotProfileSave mb, .slotCountersRead mb] := ⟨{ State.reset with slots := { State.reset.slots with restarting := true } }, 0, .slotConfig 0, by decide, by simp⟩

theorem witness_FaultRecordCommandsAct_1 : ∃ (s : State) (mb : Mb) (pl : Nat) (f : Faults), s.Admits { opcode := 0x0B00, priv := true, stopped := true, query := true } mb pl ∧ f = s.faults ∧ breaksTiming (s.begun mb) ((s.begun mb)) = false :=
  ⟨(held 0 0x0B00 0 (0) id), 0, 0, _, by unfold State.Admits; decide, by rfl, by decide⟩

theorem witness_FaultRecordCommandsAct_2 : ∃ (s : State) (mb : Mb) (pl : Nat) (l : List FaultRec), s.Admits { opcode := 0x0B01, priv := true, stopped := true, query := true, len := fun _ => 3, fields := [(0, 16), (16, 7)], checks := fun pl => [(16, decide (fld pl 16 7 ≠ 0))] } mb pl ∧ (l = (s.faults.log.filter fun r => atOrAfter (fbv pl 0 16) r.frseq).take (fld pl 16 7)) ∧ breaksTiming (s.begun mb) ((s.begun mb)) = false :=
  ⟨(held 0 0x0B01 3 (127 * 65536) id), 0, 127 * 65536, [], by unfold State.Admits; decide, by decide, by decide⟩

theorem witness_FaultRecordCommandsAct_3 : ∃ (s : State) (mb : Mb) (pl : Nat), s.Admits { opcode := 0x0B02, priv := true, len := fun _ => 1, fields := [(0, 1), (1, 1), (2, 1), (3, 3)], checks := fun pl => [(3, decide (fld pl 3 3 ≤ 4))] } mb pl ∧ breaksTiming (s.begun mb) ((s.begun mb).modFaults fun f => { f with ffr := if bitOf pl 0 then none else f.ffr, log := if bitOf pl 1 then [] else f.log, ffrLevel := if bitOf pl 2 then fbv pl 3 3 else f.ffrLevel }) = false :=
  ⟨(held 0 0x0B02 1 (7 + 4 * 8) id), 0, 7 + 4 * 8, by unfold State.Admits; decide, by decide⟩

theorem witness_FaultRecordCommandsAct_4 : ∃ (s : State) (mb : Mb) (pl : Nat) (g : Option Geid), s.Admits { opcode := 0x0B09, priv := true, len := fun _ => 4, fields := [(0, 1), (1, 1), (12, 20)] } mb pl ∧ g = (if bitOf pl 1 then some (fbv pl 12 20) else none) ∧ breaksTiming (s.begun mb) ((s.begun mb).modFaults fun f => if bitOf pl 0 then { f with forward1 := g } else { f with forward0 := g }) = false :=
  ⟨(held 0 0x0B09 4 (3 + 2 ^ 12) id), 0, 3 + 2 ^ 12, some 1, by unfold State.Admits; decide, by decide, by decide⟩

theorem witness_FaultRecordCommandsAct_5 : ∃ (s : State) (mb : Mb) (pl : Nat) (src : BitVec 12) (q : Nat), s.Admits { opcode := 0x0B0A, priv := true, stopped := true, len := fun _ => 3, fields := [(0, 12), (12, 7), (19, 1)], checks := fun pl => [(0, sourceExists (fbv pl 0 12))] } mb pl ∧ src = fbv pl 0 12 ∧ q = fld pl 12 7 ∧ breaksTiming (s.begun mb) (if bitOf pl 19 then ((s.begun mb).modSource src fun x => { x with correctable := 0 }).modFaults fun f => { f with poisonSet := Tab.put 0 f.poisonSet q 0, poisonRx := Tab.put 0 f.poisonRx q 0, pairOnly := 0, merged := 0, logOverwritten := 0, fenceDrop := 0 } else (s.begun mb)) = false :=
  ⟨(held 0 0x0B0A 3 (127 + 127 * 4096 + 2 ^ 19) id), 0, 127 + 127 * 4096 + 2 ^ 19, 127, 127, by unfold State.Admits; decide, by decide, by decide, by decide⟩

theorem witness_FaultRecordCommandsAct_6 : ∃ (s : State) (mb : Mb) (pl : Nat), s.Admits { opcode := 0x0B07, priv := true, len := fun _ => 2, fields := [(0, 12)], checks := fun pl => [(0, sourceExists (fbv pl 0 12))] } mb pl ∧ (s.source (fbv pl 0 12)).pair ≠ .invalid ∧ breaksTiming (s.begun mb) ((s.begun mb).modSource (fbv pl 0 12) fun x => { x with unsupervised := false }) = false :=
  ⟨(held 0 0x0B07 2 (127) id), 0, 127, by unfold State.Admits; decide, by decide, by decide⟩

theorem witness_FenceCommandsAct_1 : ∃ (s : State) (mb : Mb) (pl : Nat), s.Admits { opcode := 0x0B03, priv := true, len := fun _ => 3, fields := [(0, 12), (12, 8), (20, 3)], checks := fun pl => let src := fbv pl 0 12; let code := fbv pl 12 8; let sev := fbv pl 20 3; let row := severityRow src code; [(0, decide (src.toNat < 0xC00) || sourceExists src), (12, row.isSome || decide (code = 0xFE ∨ code = 0xFF)), (20, match row with | some r => decide (r.lo ≤ sev ∧ sev ≤ r.hi) && (r.unit || decide (sev ≠ svContained)) | none => decide (code = 0xFF ∧ sev = svDegraded))] } mb pl ∧ fbv pl 12 8 ≠ 0xFF ∧ breaksTiming (s.begun mb) ((s.begun mb).modFaults fun f => { f with severity := Tab.put none f.severity (severityKey (fbv pl 0 12) (fbv pl 12 8)) (some (fbv pl 20 3)) }) = false :=
  ⟨(held 0 0x0B03 3 (0x200 + 4096 + 3 * 2 ^ 20) id), 0, 0x200 + 4096 + 3 * 2 ^ 20, by unfold State.Admits; decide, by decide, by decide⟩

theorem witness_FenceCommandsAct_2 : ∃ (s : State) (mb : Mb) (pl : Nat), s.Admits { opcode := 0x0B03, priv := true, len := fun _ => 3, fields := [(0, 12), (12, 8), (20, 3)], checks := fun pl => let src := fbv pl 0 12; let code := fbv pl 12 8; let sev := fbv pl 20 3; let row := severityRow src code; [(0, decide (src.toNat < 0xC00) || sourceExists src), (12, row.isSome || decide (code = 0xFE ∨ code = 0xFF)), (20, match row with | some r => decide (r.lo ≤ sev ∧ sev ≤ r.hi) && (r.unit || decide (sev ≠ svContained)) | none => decide (code = 0xFF ∧ sev = svDegraded))] } mb pl ∧ fbv pl 12 8 = 0xFF ∧ breaksTiming (s.begun mb) ((s.begun mb)) = false :=
  ⟨(held 0 0x0B03 3 (255 * 4096 + 2 * 2 ^ 20) id), 0, 255 * 4096 + 2 * 2 ^ 20, by unfold State.Admits; decide, by decide, by decide⟩

set_option maxRecDepth 100000 in
theorem witness_FenceCommandsAct_3 : ∃ (s : State) (mb : Mb) (pl : Nat) (u : UnitId), s.Admits { opcode := 0x0B04, priv := true, len := fun _ => 4, fields := [(0, 4), (4, 16)], checks := unitChecks } mb pl ∧ u = ⟨fbv pl 0 4, fbv pl 4 16⟩ ∧ s.fenced u = false ∧ breaksTiming (s.begun mb) ((s.begun mb).classify { source := 0xF01, error := 0x01, severity := svContained, seconds := s.timeNow.1, ns := s.timeNow.2 } (some u)) = false :=
  ⟨(held 0 0x0B04 4 (9 + 47 * 16) id), 0, 9 + 47 * 16, _, by unfold State.Admits; decide, by rfl, by decide, by decide +kernel⟩

theorem witness_FenceCommandsAct_4 : ∃ (s : State) (mb : Mb) (pl : Nat), s.Admits { opcode := 0x0B04, priv := true, len := fun _ => 4, fields := [(0, 4), (4, 16)], checks := unitChecks } mb pl ∧ s.fenced ⟨fbv pl 0 4, fbv pl 4 16⟩ = true ∧ breaksTiming (s.begun mb) ((s.begun mb)) = false :=
  ⟨(held 0 0x0B04 4 (9 + 47 * 16) (fun s => { s with faults := { s.faults with fences := [{ unit := ⟨9, 47⟩, source := 0xF01, error := 1 }] } })), 0, 9 + 47 * 16, by unfold State.Admits; decide, by decide, by decide⟩

theorem witness_FenceCommandsAct_5 : ∃ (s : State) (mb : Mb) (pl : Nat) (u : UnitId), s.Admits { opcode := 0x0B05, priv := true, len := fun _ => 4, fields := [(0, 4), (4, 16)], checks := unitChecks } mb pl ∧ u = ⟨fbv pl 0 4, fbv pl 4 16⟩ ∧ u.kind ≠ 7 ∧ u.kind ≠ 9 ∧ s.marked u = false ∧ breaksTiming (s.begun mb) ((s.begun mb).releaseFence u) = false :=
  ⟨(held 0 0x0B05 4 (8 + 16) id), 0, 8 + 16, ⟨8, 1⟩, by unfold State.Admits; decide, by decide, by decide, by decide, by decide, by decide⟩

theorem witness_FenceCommandsAct_6 : ∃ (s : State) (mb : Mb) (pl : Nat) (l : List Fence), s.Admits { opcode := 0x0B06, priv := false, stopped := true, query := true, len := fun _ => 2, fields := [(0, 8), (8, 8)] } mb pl ∧ (l = ((s.faults.fences.filter fun f => (s.begun mb).ownsUnit mb f.unit).drop (fld pl 0 8)).take (fld pl 8 8)) ∧ breaksTiming (s.begun mb) ((s.begun mb)) = false :=
  ⟨(held 0 0x0B06 2 (65280) id), 0, 65280, [], by unfold State.Admits; decide, by decide, by decide⟩

theorem witness_FenceCommandsAct_7 : ∃ (s : State) (mb : Mb) (pl : Nat) (src : BitVec 12) (code : BitVec 8), s.Admits { opcode := 0x0B08, priv := true, len := fun _ => 3, fields := [(0, 12), (12, 8), (20, 1), (21, 1)], checks := fun pl => [(0, sourceExists (fbv pl 0 12)), (12, (errorRow (fbv pl 0 12) (fbv pl 12 8)).isSome || decide (fbv pl 12 8 = 0xFE ∨ fbv pl 12 8 = 0xFF))] } mb pl ∧ src = fbv pl 0 12 ∧ code = fbv pl 12 8 ∧ (bitOf pl 21 = true ∨ (s.currentSeverity src code ≠ svFatal ∧ (code = 0xFE → s.fallbackSeverity src ≠ svFatal))) ∧ (bitOf pl 20 = true ∨ code = 0xFE) ∧ breaksTiming (s.begun mb) ((s.begun mb).modSource src fun x => { x with pair := if x.pair = .invalid then .invalid else .pending, pairInjected := true }) = false :=
  ⟨(held 0 0x0B08 3 (0x27F + 0xFE * 4096 + 2 ^ 21) id), 0, 0x27F + 0xFE * 4096 + 2 ^ 21, 0x27F, 0xFE, by unfold State.Admits; decide, by decide, by decide, by decide, by decide, by decide⟩

theorem witness_FenceCommandsAct_8 : ∃ (s : State) (mb : Mb) (pl : Nat) (src : BitVec 12) (code : BitVec 8), s.Admits { opcode := 0x0B08, priv := true, len := fun _ => 3, fields := [(0, 12), (12, 8), (20, 1), (21, 1)], checks := fun pl => [(0, sourceExists (fbv pl 0 12)), (12, (errorRow (fbv pl 0 12) (fbv pl 12 8)).isSome || decide (fbv pl 12 8 = 0xFE ∨ fbv pl 12 8 = 0xFF))] } mb pl ∧ src = fbv pl 0 12 ∧ code = fbv pl 12 8 ∧ (bitOf pl 21 = true ∨ s.currentSeverity src code ≠ svFatal) ∧ bitOf pl 20 = false ∧ code ≠ 0xFE ∧ breaksTiming (s.begun mb) (({ (s.begun mb) with free := s.free + 1 } : State).queueReport src { code := code, detail := injectDetail src (Config.freeWord s.free).toNat, injected := true }) = false :=
  ⟨(held 0 0x0B08 3 (0x27F + 1 * 4096 + 2 ^ 21) id), 0, 0x27F + 1 * 4096 + 2 ^ 21, 0x27F, 1, by unfold State.Admits; decide, by decide, by decide, by decide, by decide, by decide, by decide⟩

set_option maxRecDepth 100000 in
theorem witness_BistCommandsAct_1 : ∃ (s : State) (mb : Mb) (pl : Nat) (u : UnitId), s.Admits { opcode := 0x0C00, priv := true, len := fun _ => 4, fields := [(0, 4), (4, 16)], checks := testChecks } mb pl ∧ u = ⟨fbv pl 0 4, fbv pl 4 16⟩ ∧ s.testRefusal u = none ∧ breaksTiming (s.begun mb) ((s.begun mb).testStart u) = false :=
  ⟨(held 0 0x0C00 4 (8 + 16) id), 0, 8 + 16, ⟨8, 1⟩, by unfold State.Admits; decide, by decide, by decide, by decide +kernel⟩

theorem witness_BistCommandsAct_2 : ∃ (s : State) (mb : Mb) (pl : Nat), s.Admits { opcode := 0x0C01, priv := true, len := fun _ => 4, fields := [(0, 4), (4, 16)], checks := testChecks } mb pl ∧ breaksTiming (s.begun mb) ((s.begun mb).abortTests (fun v => decide (v = ⟨fbv pl 0 4, fbv pl 4 16⟩)) 1) = false :=
  ⟨(held 0 0x0C01 4 (8 + 16) id), 0, 8 + 16, by unfold State.Admits; decide, by decide⟩

theorem witness_BistCommandsAct_3 : ∃ (s : State) (mb : Mb) (pl : Nat), s.Admits { opcode := 0x0C02, priv := true, query := true, len := fun _ => 4, fields := [(0, 4), (4, 16)], checks := testChecks } mb pl ∧ breaksTiming (s.begun mb) ((s.begun mb)) = false :=
  ⟨(held 0 0x0C02 4 (8 + 16) id), 0, 8 + 16, by unfold State.Admits; decide, by decide⟩

set_option maxRecDepth 100000 in
theorem witness_BistCommandsAct_4 : ∃ (s : State) (mb : Mb) (pl : Nat) (u : UnitId), s.Admits { opcode := 0x0C03, priv := true, len := fun _ => 4, fields := [(0, 4), (4, 16)], checks := testChecks } mb pl ∧ u = ⟨fbv pl 0 4, fbv pl 4 16⟩ ∧ breaksTiming (s.begun mb) (if s.marked u then (((s.begun mb).modBist fun b => { b with marks := b.marks.filter fun k => decide (k ≠ u.key) }).reinitUnit u).returnUnit u true else (s.begun mb)) = false :=
  ⟨(held 0 0x0C03 4 (8 + 16) (fun s => { s with bist := { s.bist with marks := [8 * 65536 + 1] } })), 0, 8 + 16, ⟨8, 1⟩, by unfold State.Admits; decide, by decide, by decide +kernel⟩

theorem witness_BistCommandsAct_5 : ∃ (s : State) (mb : Mb) (pl : Nat) (l : List Nat), s.Admits { opcode := 0x0C04, priv := true, query := true, len := fun _ => 2, fields := [(0, 8), (8, 8)] } mb pl ∧ (l = ((s.testsActive.foldl (fun a u => insertNat u.key a) s.bist.marks).drop (fld pl 0 8)).take (fld pl 8 8)) ∧ breaksTiming (s.begun mb) ((s.begun mb)) = false :=
  ⟨(held 0 0x0C04 2 (65280) id), 0, 65280, [], by unfold State.Admits; decide, by decide, by decide⟩

theorem witness_MonitorCommandsAct_1 : ∃ (s : State) (mb : Mb) (pl : Nat), s.Admits { opcode := 0x0D00, priv := true, len := fun pl => 4 + 12 * (pmonMask pl).length, fields := [(0, 9), (16, 8)] ++ (List.range 8).flatMap fun n => [(pmonBlock n, 17), (pmonBlock n + 32, 64)], checks := fun pl => (0, pmonExists (fld pl 0 9)) :: (List.range (pmonMask pl).length).flatMap fun n => blockChecks (fld pl 0 9) pl n } mb pl ∧ breaksTiming (s.begun mb) (((pmonMask pl).foldl (fun (a : State × Nat) k => (a.1.modPmon (fld pl 0 9) fun m => m.modCounter k fun c => { ctl := fbv pl (32 + 96 * a.2) 32, preload := fbv pl (32 + 96 * a.2 + 32) 48, count := fbv pl (32 + 96 * a.2 + 32) 48, ovf := c.ovf }, a.2 + 1)) ((s.begun mb), 0)).1) = false :=
  ⟨(held 0 0x0D00 16 (8 * 65536 + 1 * 2 ^ 32) id), 0, 8 * 65536 + 1 * 2 ^ 32, by unfold State.Admits; decide, by decide⟩

theorem witness_MonitorCommandsAct_2 : ∃ (s : State) (mb : Mb) (pl : Nat) (t : State), s.Admits { opcode := 0x0D01, priv := true, len := fun _ => 2, fields := [(0, 9), (9, 1)], checks := fun pl => [(0, pmonExists (fld pl 0 9))] } mb pl ∧ t = (s.begun mb).pmonSync (fld pl 0 9) ∧ breaksTiming (s.begun mb) (if bitOf pl 9 then t.modPmon (fld pl 0 9) fun m => { m with counters := Tab.mapAll {} m.counters fun c => { c with count := 0, ovf := false }, samplesLost := 0 } else t) = false :=
  ⟨(held 0 0x0D01 2 (512) id), 0, 512, _, by unfold State.Admits; decide, by rfl, by decide⟩

theorem witness_MonitorCommandsAct_3 : ∃ (s : State) (mb : Mb) (pl : Nat), s.Admits { opcode := 0x0D02, priv := true, len := fun _ => 2, fields := [(0, 9), (9, 1), (10, 1)], checks := fun pl => [(0, bitOf pl 9 || pmonExists (fld pl 0 9))] } mb pl ∧ breaksTiming (s.begun mb) ((s.begun mb).each (if bitOf pl 9 then pmonMons else [fld pl 0 9]) fun t mon => (if bitOf pl 10 then t.pmonSync mon else t).modPmon mon fun m => { m with frozen := bitOf pl 10 }) = false :=
  ⟨(held 0 0x0D02 2 (512 + 1024) id), 0, 512 + 1024, by unfold State.Admits; decide, by decide +kernel⟩

theorem witness_MonitorCommandsAct_4 : ∃ (s : State) (mb : Mb) (pl : Nat) (t : Nat), s.Admits { opcode := 0x0D03, priv := true, len := fun _ => 10, fields := [(0, 48), (48, 30), (78, 1)], checks := fun pl => [(48, decide (fld pl 48 30 < 1000000000))] } mb pl ∧ s.bist.pending = none ∧ t = fld pl 0 48 * 1000000000 + fld pl 48 30 ∧ (t = 0 ∨ s.fabNs + 2000 ≤ t) ∧ breaksTiming (s.begun mb) ((s.begun mb).modBist fun b => { b with pending := some (if t = 0 then (s.fabNs + 2999) / 1000 * 1000 else t, bitOf pl 78) }) = false :=
  ⟨(held 0 0x0D03 10 (2 ^ 78) id), 0, 2 ^ 78, 0, by unfold State.Admits; decide, by decide, by decide, by decide, by decide⟩

theorem witness_MonitorCommandsAct_5 : ∃ (s : State) (mb : Mb) (pl : Nat), s.Admits { opcode := 0x0D04, priv := true, query := true, len := fun _ => 3, fields := [(0, 9), (9, 1), (10, 8), (18, 1)], checks := fun pl => [(0, bitOf pl 9 || pmonExists (fld pl 0 9))] } mb pl ∧ bitOf pl 9 = false ∧ breaksTiming (s.begun mb) ((s.begun mb)) = false :=
  ⟨(held 0 0x0D04 3 (0) id), 0, 0, by unfold State.Admits; decide, by decide, by decide⟩

theorem witness_MonitorCommandsAct_6 : ∃ (s : State) (mb : Mb) (pl : Nat) (p : Nat) (x : MarkSnap), s.Admits { opcode := 0x0D04, priv := true, query := true, len := fun _ => 3, fields := [(0, 9), (9, 1), (10, 8), (18, 1)], checks := fun pl => [(0, bitOf pl 9 || pmonExists (fld pl 0 9))] } mb pl ∧ bitOf pl 9 = true ∧ s.portNamed (fld pl 10 8) (fld pl 18 1) = some p ∧ x = Tab.get {} s.bist.marksSnap p ∧ breaksTiming (s.begun mb) ((s.begun mb)) = false :=
  ⟨(held 0 0x0D04 3 (512) (onePort 0 { width := 4 })), 0, 512, 0, _, by unfold State.Admits; decide, by decide, by decide, by rfl, by decide⟩

theorem witness_MonitorCommandsAct_7 : ∃ (s : State) (mb : Mb) (pl : Nat) (l : List PmonSample), s.Admits { opcode := 0x0D05, priv := true, len := fun _ => 2, fields := [(0, 9), (9, 7)], checks := fun pl => [(0, pmonExists (fld pl 0 9)), (9, decide (1 ≤ fld pl 9 7 ∧ fld pl 9 7 ≤ 64))] } mb pl ∧ l = (s.pmonOf (fld pl 0 9)).samples.take (fld pl 9 7) ∧ breaksTiming (s.begun mb) ((s.begun mb).modPmon (fld pl 0 9) fun m => { m with samples := m.samples.drop (fld pl 9 7) }) = false :=
  ⟨(held 0 0x0D05 2 (64 * 512) id), 0, 64 * 512, [], by unfold State.Admits; decide, by decide, by decide⟩

theorem witness_PowerStateCommandsAct_1 : ∃ (s : State) (mb : Mb) (pl : Nat) (p : Nat), s.Admits { opcode := 0x0E00, priv := true, len := fun _ => 2, fields := [(0, 2), (2, 7), (9, 3)], checks := fun pl => [(2, decide (fld pl 0 2 ≠ 2 ∨ fld pl 2 7 < 16)), (9, powerPair (fld pl 0 2) (fld pl 9 3))] } mb pl ∧ fld pl 0 2 = 0 ∧ s.portNamed (fld pl 2 7) 0 = some p ∧ fld pl 9 3 = 0 ∧ breaksTiming (s.begun mb) ((s.begun mb).wakePort p) = false :=
  ⟨(held 0 0x0E00 2 (0) (onePort 0 { width := 4, stage := .sleep })), 0, 0, 0, by unfold State.Admits; decide, by decide, by decide, by decide, by decide⟩

theorem witness_PowerStateCommandsAct_2 : ∃ (s : State) (mb : Mb) (pl : Nat) (p : Nat), s.Admits { opcode := 0x0E00, priv := true, len := fun _ => 2, fields := [(0, 2), (2, 7), (9, 3)], checks := fun pl => [(2, decide (fld pl 0 2 ≠ 2 ∨ fld pl 2 7 < 16)), (9, powerPair (fld pl 0 2) (fld pl 9 3))] } mb pl ∧ fld pl 0 2 = 0 ∧ s.portNamed (fld pl 2 7) 0 = some p ∧ fld pl 9 3 = 1 ∧ ((s.port p).stage = .sleep ∨ (s.portHeld s.underTest p = false ∧ (s.port p).pcie = false ∧ (s.port p).stage = .active ∧ (s.link p).maySleep = true)) ∧ breaksTiming (s.begun mb) (if (s.port p).stage = .sleep then (s.begun mb) else (s.begun mb).modLink p Link.sleepRequest) = false :=
  ⟨(held 0 0x0E00 2 (512) (fun s => { onePort 0 { width := 4, stage := .active } s with links := [(0, { peer := some anExchange })] })), 0, 512, 0, by unfold State.Admits; decide, by decide, by decide, by decide, by decide, by decide⟩

theorem witness_PowerStateCommandsAct_3 : ∃ (s : State) (mb : Mb) (pl : Nat) (q : Nat), s.Admits { opcode := 0x0E00, priv := true, len := fun _ => 2, fields := [(0, 2), (2, 7), (9, 3)], checks := fun pl => [(2, decide (fld pl 0 2 ≠ 2 ∨ fld pl 2 7 < 16)), (9, powerPair (fld pl 0 2) (fld pl 9 3))] } mb pl ∧ fld pl 0 2 = 1 ∧ fld pl 9 3 = 0 ∧ q = fld pl 2 7 ∧ quadHeld s.fenced q = false ∧ quadHeld s.marked q = false ∧ s.ringIsOff (ringOf q) = false ∧ breaksTiming (s.begun mb) (if (s.portsOfQuad q).isEmpty then (s.begun mb) else (s.begun mb).powerQuad q) = false :=
  ⟨(held 0 0x0E00 2 (1) (onePort 0 { width := 4 })), 0, 1, 0, by unfold State.Admits; decide, by decide, by decide, by decide, by decide, by decide, by decide, by decide⟩

theorem witness_PowerStateCommandsAct_4 : ∃ (s : State) (mb : Mb) (pl : Nat) (q : Nat), s.Admits { opcode := 0x0E00, priv := true, len := fun _ => 2, fields := [(0, 2), (2, 7), (9, 3)], checks := fun pl => [(2, decide (fld pl 0 2 ≠ 2 ∨ fld pl 2 7 < 16)), (9, powerPair (fld pl 0 2) (fld pl 9 3))] } mb pl ∧ fld pl 0 2 = 1 ∧ fld pl 9 3 = 2 ∧ q = fld pl 2 7 ∧ quadHeld s.underTest q = false ∧ (Tab.get false s.power.quadOn q = false ∨ s.quadIdle q = true) ∧ breaksTiming (s.begun mb) (if Tab.get false s.power.quadOn q then (s.begun mb).quadOff q else (s.begun mb)) = false :=
  ⟨(held 0 0x0E00 2 (1 + 1024) (fun s => { onePort 0 { width := 4, stage := .disabled } s with power := { s.power with quadOn := [(0, true)] } })), 0, 1 + 1024, 0, by unfold State.Admits; decide, by decide, by decide, by decide, by decide, by decide, by decide⟩

set_option maxRecDepth 100000 in
theorem witness_PowerStateCommandsAct_5 : ∃ (s : State) (mb : Mb) (pl : Nat), s.Admits { opcode := 0x0E00, priv := true, len := fun _ => 2, fields := [(0, 2), (2, 7), (9, 3)], checks := fun pl => [(2, decide (fld pl 0 2 ≠ 2 ∨ fld pl 2 7 < 16)), (9, powerPair (fld pl 0 2) (fld pl 9 3))] } mb pl ∧ fld pl 0 2 = 2 ∧ fld pl 9 3 = 0 ∧ breaksTiming (s.begun mb) (if s.ringIsOff (fld pl 2 7) then (s.begun mb).ringUp (fld pl 2 7) else (s.begun mb)) = false :=
  ⟨(held 0 0x0E00 2 (2 + 60) (fun s => { s with power := { s.power with ringOff := [(15, true)] } })), 0, 2 + 60, by unfold State.Admits; decide, by decide, by decide, by decide +kernel⟩

set_option maxRecDepth 100000 in
theorem witness_PowerStateCommandsAct_6 : ∃ (s : State) (mb : Mb) (pl : Nat) (r : Nat), s.Admits { opcode := 0x0E00, priv := true, len := fun _ => 2, fields := [(0, 2), (2, 7), (9, 3)], checks := fun pl => [(2, decide (fld pl 0 2 ≠ 2 ∨ fld pl 2 7 < 16)), (9, powerPair (fld pl 0 2) (fld pl 9 3))] } mb pl ∧ fld pl 0 2 = 2 ∧ fld pl 9 3 = 2 ∧ r = fld pl 2 7 ∧ ((s.testsActive.any fun u => testRing u == some r) = false) ∧ (s.ringIsOff r = true ∨ ((ringPus r).any fun q => Tab.get false s.power.quadOn q) = false) ∧ breaksTiming (s.begun mb) (if s.ringIsOff r then (s.begun mb) else (s.begun mb).ringDown r) = false :=
  ⟨(held 0 0x0E00 2 (2 + 60 + 1024) id), 0, 2 + 60 + 1024, 15, by unfold State.Admits; decide, by decide, by decide, by decide, by decide, by decide, by decide +kernel⟩

theorem witness_PowerStateCommandsAct_7 : ∃ (s : State) (mb : Mb) (pl : Nat), s.Admits { opcode := 0x0E00, priv := true, len := fun _ => 2, fields := [(0, 2), (2, 7), (9, 3)], checks := fun pl => [(2, decide (fld pl 0 2 ≠ 2 ∨ fld pl 2 7 < 16)), (9, powerPair (fld pl 0 2) (fld pl 9 3))] } mb pl ∧ fld pl 0 2 = 3 ∧ fld pl 9 3 = 0 ∧ breaksTiming (s.begun mb) ((s.begun mb)) = false :=
  ⟨(held 0 0x0E00 2 (3) id), 0, 3, by unfold State.Admits; decide, by decide, by decide, by decide⟩

theorem witness_PowerStateCommandsAct_8 : ∃ (s : State) (mb : Mb) (pl : Nat) (t : State), s.Admits { opcode := 0x0E00, priv := true, len := fun _ => 2, fields := [(0, 2), (2, 7), (9, 3)], checks := fun pl => [(2, decide (fld pl 0 2 ≠ 2 ∨ fld pl 2 7 < 16)), (9, powerPair (fld pl 0 2) (fld pl 9 3))] } mb pl ∧ fld pl 0 2 = 3 ∧ fld pl 9 3 = 3 ∧ s.testsActive = [] ∧ s.mgmt.update = none ∧ s.mgmt.cal.importCount = 0 ∧ (t = ((s.begun mb).modPower fun x => { x with inter := .entering }).raise 0x0E00 [(3, 1), (0, 1), (4, 1)] []) ∧ breaksTiming (s.begun mb) (((t.each t.allPorts fun t p => (t.disable p rsAdmin).clearDiag p).pwEndWork .a true).pwEndWork .b true) = false :=
  ⟨(held 0 0x0E00 2 (3 + 3 * 512) id), 0, 3 + 3 * 512, _, by unfold State.Admits; decide, by decide, by decide, by decide, by decide, by decide, by rfl, by decide⟩

theorem witness_PowerStateCommandsAct_9 : ∃ (s : State) (mb : Mb) (pl : Nat) (p : Nat), s.Admits { opcode := 0x0E01, priv := false, query := true, len := fun _ => 2, fields := [(0, 2), (2, 7), (9, 1)], checks := fun pl => [(2, decide (fld pl 0 2 ≠ 2 ∨ fld pl 2 7 < 16))] } mb pl ∧ fld pl 0 2 = 0 ∧ s.portNamed (fld pl 2 7) 0 = some p ∧ s.mayName mb (s.portOwner p) = true ∧ breaksTiming (s.begun mb) (if bitOf pl 9 then (s.begun mb).modLink p fun l => { l with sleep := { l.sleep with entries := 0, abandoned := 0 } } else (s.begun mb)) = false :=
  ⟨(held 0 0x0E01 2 (512) (onePort 0 { width := 4 })), 0, 512, 0, by unfold State.Admits; decide, by decide, by decide, by decide, by decide⟩

theorem witness_PowerStateCommandsAct_10 : ∃ (s : State) (mb : Mb) (pl : Nat), s.Admits { opcode := 0x0E01, priv := false, query := true, len := fun _ => 2, fields := [(0, 2), (2, 7), (9, 1)], checks := fun pl => [(2, decide (fld pl 0 2 ≠ 2 ∨ fld pl 2 7 < 16))] } mb pl ∧ fld pl 0 2 = 1 ∧ privilegedMb mb = true ∧ breaksTiming (s.begun mb) ((s.begun mb)) = false :=
  ⟨(held 0 0x0E01 2 (509) id), 0, 509, by unfold State.Admits; decide, by decide, by decide, by decide⟩

theorem witness_PowerStateCommandsAct_11 : ∃ (s : State) (mb : Mb) (pl : Nat), s.Admits { opcode := 0x0E01, priv := false, query := true, len := fun _ => 2, fields := [(0, 2), (2, 7), (9, 1)], checks := fun pl => [(2, decide (fld pl 0 2 ≠ 2 ∨ fld pl 2 7 < 16))] } mb pl ∧ fld pl 0 2 = 2 ∧ privilegedMb mb = true ∧ breaksTiming (s.begun mb) ((s.begun mb)) = false :=
  ⟨(held 0 0x0E01 2 (62) id), 0, 62, by unfold State.Admits; decide, by decide, by decide, by decide⟩

theorem witness_PowerStateCommandsAct_12 : ∃ (s : State) (mb : Mb) (pl : Nat), s.Admits { opcode := 0x0E01, priv := false, query := true, len := fun _ => 2, fields := [(0, 2), (2, 7), (9, 1)], checks := fun pl => [(2, decide (fld pl 0 2 ≠ 2 ∨ fld pl 2 7 < 16))] } mb pl ∧ fld pl 0 2 = 3 ∧ privilegedMb mb = true ∧ breaksTiming (s.begun mb) ((s.begun mb)) = false :=
  ⟨(held 0 0x0E01 2 (3) id), 0, 3, by unfold State.Admits; decide, by decide, by decide, by decide⟩

theorem witness_ResetCommandsAct_1 : ∃ (s : State) (mb : Mb) (pl : Nat), s.Admits { opcode := 0x0E02, priv := true } mb pl ∧ breaksTiming (s.begun mb) ((s.begun mb).modPower fun x => { x with warmDue := true }) = false :=
  ⟨(held 0 0x0E02 0 (0) id), 0, 0, by unfold State.Admits; decide, by decide⟩

set_option maxRecDepth 100000 in
theorem witness_ResetCommandsAct_2 : ∃ (s : State) (mb : Mb) (pl : Nat), s.Admits { opcode := 0x0E03, priv := true, len := fun _ => 1, fields := [(0, 4)] } mb pl ∧ ((s.testsActive.any fun u => testRing u == some (fld pl 0 4)) = false) ∧ breaksTiming (s.begun mb) (((s.begun mb).resetRingUnits (fld pl 0 4)).raise 0x0E01 [(4, 1), (2, 1)] []) = false :=
  ⟨(held 0 0x0E03 1 (15) id), 0, 15, by unfold State.Admits; decide, by decide, by decide +kernel⟩

theorem witness_ResetCommandsAct_3 : ∃ (s : State) (mb : Mb) (pl : Nat) (p : Nat), s.Admits { opcode := 0x0E04, priv := true, len := fun _ => 2, fields := [(0, 8), (8, 1)] } mb pl ∧ s.portNamed (fld pl 0 8) (fld pl 8 1) = some p ∧ breaksTiming (s.begun mb) (((((s.begun mb).disable p rsAdmin).clearDiag p).dropAdaptation p).autoUp [p]) = false :=
  ⟨(held 0 0x0E04 2 (0) (onePort 0 { width := 4 })), 0, 0, 0, by unfold State.Admits; decide, by decide, by decide⟩

theorem witness_ResetCommandsAct_4 : ∃ (s : State) (mb : Mb) (pl : Nat) (r : VhRec), s.Admits { opcode := 0x0E05, priv := true, len := fun _ => 1, fields := [(0, 7)] } mb pl ∧ Tab.get none s.policy.vh (fld pl 0 7) = some r ∧ breaksTiming (s.begun mb) ((s.begun mb).vhReset (fld pl 0 7)) = false :=
  ⟨(held 0 0x0E05 1 (3) (fun s => { s with fabric := { tables := { policy := { vh := [(3, some ⟨0, 1, 100⟩)] } } } })), 0, 3, ⟨0, 1, 100⟩, by unfold State.Admits; decide, by decide, by decide⟩

theorem witness_ResetCommandsAct_5 : ∃ (s : State) (mb : Mb) (pl : Nat), s.Admits { opcode := 0x0E06, priv := true } mb pl ∧ breaksTiming (s.begun mb) ((s.begun mb).boothRestart) = false :=
  ⟨(held 0 0x0E06 0 (0) id), 0, 0, by unfold State.Admits; decide, by decide⟩

theorem witness_ResetCommandsAct_6 : ∃ (s : State) (mb : Mb) (pl : Nat), s.Admits { opcode := 0x0E07, priv := true, len := fun _ => 4, fields := [(0, 5), (16, 16)] } mb pl ∧ breaksTiming (s.begun mb) ((s.begun mb).modPower fun x => { x with wakeMask := fbv pl 0 5, wakeTimer := if fld pl 16 16 = 0 then x.wakeTimer else fld pl 16 16 }) = false :=
  ⟨(held 0 0x0E07 4 (31 + 65535 * 65536) id), 0, 31 + 65535 * 65536, by unfold State.Admits; decide, by decide⟩

theorem witness_ResetCommandsAct_7 : ∃ (s : State) (mb : Mb) (pl : Nat) (p : Nat), s.Admits { opcode := 0x0E08, priv := true, len := fun _ => 4, fields := [(0, 8), (8, 16), (24, 1)] } mb pl ∧ s.portNamed (fld pl 0 8) 0 = some p ∧ (s.port p).pcie = false ∧ breaksTiming (s.begun mb) ((s.begun mb).modLink p fun l => { l with sleep := { l.sleep with idleUs := fld pl 8 16, noSleep := bitOf pl 24 } }) = false :=
  ⟨(held 0 0x0E08 4 (65535 * 256 + 2 ^ 24) (onePort 0 { width := 4 })), 0, 65535 * 256 + 2 ^ 24, 0, by unfold State.Admits; decide, by decide, by decide, by decide⟩

theorem witness_FirmwareCommandsAct_1 : ∃ (s : State) (mb : Mb) (pl : Nat) (d : DirCopy), s.Admits { opcode := 0x0F00, priv := true, recovery := true, query := true } mb pl ∧ d = s.mgmt.directory.getD {} ∧ breaksTiming (s.begun mb) ((s.begun mb)) = false :=
  ⟨(held 0 0x0F00 0 (0) id), 0, 0, _, by unfold State.Admits; decide, by rfl, by decide⟩

theorem witness_FirmwareCommandsAct_2 : ∃ (s : State) (mb : Mb) (pl : Nat), s.Admits { opcode := 0x0F01, priv := true, recovery := true, len := fun _ => 5, fields := [(0, 32), (32, 1)], checks := fun pl => [(0, decide (fld pl 0 32 ≤ 4096 + maxBody))] } mb pl ∧ (s.mgmt.stage = stageRecovery ∨ (bitOf pl 32 ≠ s.mgmt.image ∧ s.mgmt.trial = false)) ∧ breaksTiming (s.begun mb) ((s.begun mb).modMgmt fun m => { m.modSlot (bitOf pl 32) fun x => x.erase ((fld pl 0 32 + 65535) / 65536 * 65536) with update := some { slotB := bitOf pl 32, length := fld pl 0 32, written := 0 } }) = false :=
  ⟨(held 0 0x0F01 5 (2 ^ 32 + 8192) id), 0, 2 ^ 32 + 8192, by unfold State.Admits; decide, by decide, by decide⟩

set_option exponentiation.threshold 40000 in set_option maxRecDepth 100000 in
theorem witness_FirmwareCommandsAct_3 : ∃ (s : State) (mb : Mb) (pl : Nat) (u : FwUpdate) (n : Nat), s.Admits { opcode := 0x0F02, priv := true, recovery := true, len := fun _ => 9, fields := [(0, 32), (64, 8 * 4072)] } mb pl ∧ n = (s.mbox mb).cmdHdr.length - 8 ∧ s.mgmt.update = some u ∧ fld pl 0 32 = u.written ∧ u.written + n ≤ u.length ∧ breaksTiming (s.begun mb) ((s.begun mb).modMgmt fun m => { m.modSlot u.slotB fun x => x.program u.written (bytesOf n (pl >>> 64)) with update := some { u with written := u.written + n } }) = false :=
  ⟨(held 0 0x0F02 10 (513 * 2 ^ 64) (fun s => { s with mgmt := { s.mgmt with update := some { slotB := true, length := 2, written := 0 } } })), 0, 513 * 2 ^ 64, { slotB := true, length := 2, written := 0 }, 2, by unfold State.Admits; decide, by decide, by decide, by decide, by decide, by decide⟩

theorem witness_FirmwareCommandsAct_4 : ∃ (s : State) (mb : Mb) (pl : Nat) (u : FwUpdate), s.Admits { opcode := 0x0F03, priv := true, recovery := true } mb pl ∧ s.mgmt.update = some u ∧ s.mgmt.imageOk u.slotB = true ∧ breaksTiming (s.begun mb) ((s.begun mb).modMgmt fun m => { m.modSlot u.slotB fun x => { x with checked := true } with update := none, lastChecked := u.slotB }) = false :=
  ⟨(held 0 0x0F03 0 (0) (fun s => { s with mgmt := { s.mgmt with update := some { slotB := false, length := 2, written := 2 } } })), 0, 0, { slotB := false, length := 2, written := 2 }, by unfold State.Admits; decide, by decide, by decide, by decide⟩

theorem witness_FirmwareCommandsAct_5 : ∃ (s : State) (mb : Mb) (pl : Nat) (b : Bool), s.Admits { opcode := 0x0F04, priv := true, recovery := true, len := fun _ => 1, fields := [(0, 1)] } mb pl ∧ b = (if s.mgmt.stage = stageRecovery then s.mgmt.lastChecked else !s.mgmt.image) ∧ (s.mgmt.slot b).checked = true ∧ bitOf pl 0 = false ∧ breaksTiming (s.begun mb) ((s.begun mb).modMgmt fun m => m.writeDir fun d => { d with trialImage := some b }) = false :=
  ⟨(held 0 0x0F04 1 (0) (fun s => { s with mgmt := { s.mgmt with imageB := { s.mgmt.imageB with checked := true } } })), 0, 0, true, by unfold State.Admits; decide, by decide, by decide, by decide, by decide⟩

theorem witness_FirmwareCommandsAct_6 : ∃ (s : State) (mb : Mb) (pl : Nat), s.Admits { opcode := 0x0F04, priv := true, recovery := true, len := fun _ => 1, fields := [(0, 1)] } mb pl ∧ s.mgmt.stage ≠ stageRecovery ∧ (s.mgmt.slot (!s.mgmt.image)).checked = true ∧ bitOf pl 0 = true ∧ (s.mgmt.slot (!s.mgmt.image)).info.hitlessMin ≤ s.mgmt.fwVersion ∧ breaksTiming (s.begun mb) ((s.begun mb).weftStart true) = false :=
  ⟨(held 0 0x0F04 1 (1) (fun s => { s with mgmt := { s.mgmt with imageB := { s.mgmt.imageA with checked := true }, fwVersion := 0xFFFFFF } })), 0, 1, by unfold State.Admits; decide, by decide, by decide, by decide, by decide, by decide⟩

theorem witness_FirmwareCommandsAct_7 : ∃ (s : State) (mb : Mb) (pl : Nat) (m : Mgmt), s.Admits { opcode := 0x0F05, priv := true, len := fun _ => 1, fields := [(0, 1)] } mb pl ∧ s.mgmt.trial = true ∧ (m = (s.begun mb).mgmt.writeDir fun d => { d with activeB := s.mgmt.image }) ∧ breaksTiming (s.begun mb) ({ (s.begun mb) with mgmt := { m with trial := false, fusedSvn := if bitOf pl 0 ∧ s.mgmt.fusedSvn < (s.mgmt.slot s.mgmt.image).info.svn then (s.mgmt.slot s.mgmt.image).info.svn else s.mgmt.fusedSvn } }) = false :=
  ⟨(held 0 0x0F05 1 (1) (fun s => { s with mgmt := { s.mgmt with trial := true } })), 0, 1, _, by unfold State.Admits; decide, by decide, by rfl, by decide⟩

theorem witness_FirmwareCommandsAct_8 : ∃ (s : State) (mb : Mb) (pl : Nat), s.Admits { opcode := 0x0F06, priv := true } mb pl ∧ breaksTiming (s.begun mb) ((s.begun mb).weftStart false) = false :=
  ⟨(held 0 0x0F06 0 (0) id), 0, 0, by unfold State.Admits; decide, by decide⟩

theorem witness_CalibrationCommandsAct_1 : ∃ (s : State) (mb : Mb) (pl : Nat), s.Admits { opcode := 0x0F07, priv := true, query := true, len := fun _ => 4, fields := [(0, 16), (16, 12)], checks := fun pl => [(16, decide (1 ≤ fld pl 16 12 ∧ fld pl 16 12 ≤ 4080 ∧ fld pl 0 16 + fld pl 16 12 ≤ 0x10000))] } mb pl ∧ breaksTiming (s.begun mb) ((s.begun mb)) = false :=
  ⟨(held 0 0x0F07 4 (0xFFFF + 65536) id), 0, 0xFFFF + 65536, by unfold State.Admits; decide, by decide⟩

set_option exponentiation.threshold 40000 in set_option maxRecDepth 100000 in
theorem witness_CalibrationCommandsAct_2 : ∃ (s : State) (mb : Mb) (pl : Nat) (k : Nat), s.Admits { opcode := 0x0F08, priv := true, len := fun pl => 8 + fld pl 16 12, fields := [(0, 16), (16, 12), (64, 8 * 4072)], checks := fun pl => [(0, decide (fld pl 0 16 < calLimit (fld pl 0 16))), (16, decide (1 ≤ fld pl 16 12 ∧ fld pl 16 12 ≤ 4072 ∧ fld pl 0 16 + fld pl 16 12 ≤ calLimit (fld pl 0 16)))] } mb pl ∧ k = (calSection (fld pl 0 16)).getD 0 ∧ s.mgmt.cal.writeCount < 1000 ∧ breaksTiming (s.begun mb) (((s.begun mb).modCal fun c => c.write k (fld pl 0 16) (bytesOf (fld pl 16 12) (pl >>> 64))).evCal (2 ^ k)) = false :=
  ⟨(held 0 0x0F08 9 (0x80FB + 65536 + 5 * 2 ^ 64) id), 0, 0x80FB + 65536 + 5 * 2 ^ 64, 1, by unfold State.Admits; decide, by decide, by decide, by decide⟩

theorem witness_CalibrationCommandsAct_3 : ∃ (s : State) (mb : Mb) (pl : Nat) (x : List Host.Cell × Nat), s.Admits { opcode := 0x0F09, priv := true, len := fun _ => 4, fields := [(0, 17), (17, 12)], checks := fun pl => [(0, decide (fld pl 0 17 < 65888)), (17, decide (1 ≤ fld pl 17 12 ∧ fld pl 17 12 ≤ 4080 ∧ fld pl 0 17 + fld pl 17 12 ≤ 65888))] } mb pl ∧ fld pl 0 17 = 0 ∧ x = (s.mgmt.cal.bytes, s.mgmt.cal.writeCount) ∧ breaksTiming (s.begun mb) ((s.begun mb).modCal fun c => { c with snapshot := some x }) = false :=
  ⟨(held 0 0x0F09 4 (4080 * 2 ^ 17) id), 0, 4080 * 2 ^ 17, _, by unfold State.Admits; decide, by decide, by rfl, by decide⟩

theorem witness_CalibrationCommandsAct_4 : ∃ (s : State) (mb : Mb) (pl : Nat) (x : List Host.Cell × Nat), s.Admits { opcode := 0x0F09, priv := true, len := fun _ => 4, fields := [(0, 17), (17, 12)], checks := fun pl => [(0, decide (fld pl 0 17 < 65888)), (17, decide (1 ≤ fld pl 17 12 ∧ fld pl 17 12 ≤ 4080 ∧ fld pl 0 17 + fld pl 17 12 ≤ 65888))] } mb pl ∧ fld pl 0 17 ≠ 0 ∧ s.mgmt.cal.snapshot = some x ∧ breaksTiming (s.begun mb) ((s.begun mb)) = false :=
  ⟨(held 0 0x0F09 4 (65887 + 2 ^ 17) (fun s => { s with mgmt := { s.mgmt with cal := { s.mgmt.cal with snapshot := some ([], 0) } } })), 0, 65887 + 2 ^ 17, ([], 0), by unfold State.Admits; decide, by decide, by decide, by decide⟩

set_option exponentiation.threshold 40000 in set_option maxRecDepth 100000 in
theorem witness_CalibrationCommandsAct_5 : ∃ (s : State) (mb : Mb) (pl : Nat) (n : Nat), s.Admits { opcode := 0x0F0A, priv := true, len := fun _ => 9, fields := [(0, 17), (17, 1), (64, 8 * 4072)] } mb pl ∧ n = (s.mbox mb).cmdHdr.length - 8 ∧ s.mgmt.cal.writeCount < 1000 ∧ fld pl 0 17 = s.mgmt.cal.importCount ∧ bitOf pl 17 = false ∧ breaksTiming (s.begun mb) ((s.begun mb).modCal fun c => { c with importBytes := cellsWrite c.importBytes c.importCount (bytesOf n (pl >>> 64)), importCount := c.importCount + n }) = false :=
  ⟨(held 0 0x0F0A 10 (513 * 2 ^ 64) id), 0, 513 * 2 ^ 64, 2, by unfold State.Admits; decide, by decide, by decide, by decide, by decide, by decide⟩

theorem witness_CalibrationCommandsAct_6 : ∃ (s t : State) (mb : Mb) (pl n : Nat) (b : List Byte), s.Admits { opcode := 0x0F0A, priv := true, len := fun _ => 9, fields := [(0, 17), (17, 1), (64, 8 * 4072)] } mb pl ∧ n = (s.mbox mb).cmdHdr.length - 8 ∧ s.mgmt.cal.writeCount < 1000 ∧ fld pl 0 17 = s.mgmt.cal.importCount ∧ bitOf pl 17 = true ∧ b = cellsRead (cellsWrite s.mgmt.cal.importBytes s.mgmt.cal.importCount (bytesOf n (pl >>> 64))) 0 (s.mgmt.cal.importCount + n) ∧ t = ((s.begun mb).modCal fun c => { c with importBytes := [], importCount := 0 }) := ⟨held 0 0x0F0A 10 (2 ^ 17) id, _, 0, 2 ^ 17, 2, _, by unfold State.Admits; set_option exponentiation.threshold 40000 in set_option maxRecDepth 100000 in decide, by decide, by decide, by decide, by decide, rfl, rfl⟩

theorem witness_MailboxRegistersAct_1 : ∃ (s : State) (mb : Mb), (s.mbox mb).busy = true :=
  ⟨held 63 0x0000 0 0 id, 63, by decide⟩

theorem witness_MailboxRegistersAct_2 : ∃ (s : State) (mb : Mb), (s.mbox mb).busy = false ∧ opcodeKnown (s.mbox mb).cmdHdr.opcode = true :=
  ⟨awake, 5, by decide, by decide⟩

theorem witness_MailboxRegistersAct_3 : ∃ (s : State) (mb : Mb) (m : Mailbox), m = s.mbox mb ∧ m.busy = false ∧ opcodeKnown m.cmdHdr.opcode = false ∧ s.serves mb = true ∧ m.cmdHdr.length ≤ 4080 ∧ m.tokenOk m.cmdHdr.session = true ∧ m.repeated m.cmdHdr = none :=
  ⟨{ awake with mgmt := { awake.mgmt with mbox := [(5, { mbDefault 5 with session := some { token := 1, lease := 60, leaseEnd := 60000000000 }, cmd := cellsWrite [] 0 (bytesOf 16 (0xFFFF + 2 ^ 64)) })] } }, 5, _, by rfl, by decide, by decide, by decide, by decide, by decide, by decide⟩

theorem witness_MailboxRegistersAct_4 : ∃ (s : State) (mb : Mb) (off : BitVec 12) (v : BitVec 64), off = 0x000 :=
  ⟨awake, 63, 0, 1, by decide⟩

theorem witness_MailboxRegistersAct_5 : ∃ (s : State) (mb : Mb) (off : BitVec 12) (v : BitVec 64) (m : Mailbox), off = 0x008 ∧ m = s.mbox mb :=
  ⟨awake, 63, 8, 0x2A, _, by decide, by rfl⟩

theorem witness_MailboxRegistersAct_6 : ∃ (s : State) (mb : Mb) (off : BitVec 12) (v : BitVec 64), off = 0x010 :=
  ⟨awake, 63, 0x010, 1, by decide⟩

theorem witness_MailboxRegistersAct_7 : ∃ (s : State) (mb : Mb) (off : BitVec 12) (v : BitVec 64), off ≠ 0x000 ∧ off ≠ 0x008 ∧ off ≠ 0x010 :=
  ⟨awake, 63, 0x018, 1, by decide, by decide, by decide⟩

theorem witness_MailboxRegistersAct_9 : ∃ (s : State) (mb : Mb) (v : BitVec 6) (m : Mailbox), m = s.mbox mb :=
  ⟨awake, 63, 1, _, by rfl⟩

theorem witness_MailboxRegistersAct_11 : ∃ (s : State), s.collectorOn = true :=
  ⟨awake, by decide⟩

theorem witness_SerialPortActs_1 : ∃ (s : State) (ptr : BitVec 16) (data : List Byte) (u : State), s.slots.restarting = false ∧ s.serialWrites = true ∧ 1 ≤ data.length ∧ data.length ≤ 240 ∧ (u = (data.foldl (fun (t : State × Nat) b => (if t.2 < 0x4000 then t.1.writePageByte 63 t.2 b else t.1, t.2 + 1)) (s, ptr.toNat)).1) :=
  ⟨awake, 0x3FFF, [1, 2], _, by decide, by decide, by decide, by decide, by rfl⟩

theorem witness_SerialPortActs_2 : ∃ (s : State) (ptr : BitVec 16) (data : List Byte) (pecOk : Bool), (pecOk = false ∨ data = [] ∨ 240 < data.length ∨ s.slots.restarting = true) :=
  ⟨awake, 0, [], true, by decide⟩

theorem witness_SerialPortActs_3 : ∃ (s : State) (ptr : BitVec 16) (data : List Byte), s.slots.restarting = false ∧ s.serialWrites = false ∧ 1 ≤ data.length ∧ data.length ≤ 240 :=
  ⟨{ awake with mgmt := { awake.mgmt with stage := stageIntermission } }, 0, [1], by decide, by decide, by decide, by decide⟩

theorem witness_SerialPortActs_4 : ∃ (s : State), s.slots.restarting = false ∧ s.mgmt.stage ≠ stageFailed :=
  ⟨awake, by decide, by decide⟩

theorem witness_SerialPortActs_5 : ∃ (s : State) (pecOk : Bool), (s.slots.restarting = true ∨ pecOk = false) :=
  ⟨awake, false, by decide⟩

theorem witness_SerialPortActs_6 : ∃ (s : State) (ptr : BitVec 16), s.slots.restarting = false :=
  ⟨awake, 0xFFFF, by decide⟩

theorem witness_SerialPortActs_7 : ∃ (s : State) (ptr : BitVec 16) (pecOk : Bool), (s.slots.restarting = true ∨ pecOk = false) :=
  ⟨awake, 0, false, by decide⟩

theorem witness_SerialPortActs_8 : ∃ (s : State), s.slots.restarting = false :=
  ⟨awake, by decide⟩

set_option maxRecDepth 10000 in
theorem witness_PageAndRemoteFramesAct_1 : ∃ (s : State) (entry : Option PortNo) (f : Frame) (u : State) (n off : Nat), f.wellFormed = true ∧ s.running = true ∧ u = s.takeInbox 3 f ∧ f.hdr.type = tyMemRead ∧ pageAddr f.hdr.addr.toNat = .mailbox n off ∧ (u.usable (u.framePath entry f)).contains n = true ∧ accessOk off f.hdr.reqLen = true :=
  ⟨tenant5, none, pageRead, _, 5, 0x3000, by decide, by decide, by rfl, by decide, by decide, by decide, by decide⟩

set_option maxRecDepth 10000 in
theorem witness_PageAndRemoteFramesAct_2 : ∃ (s : State) (entry : Option PortNo) (f : Frame) (u : State) (n off : Nat), f.wellFormed = true ∧ s.running = true ∧ u = s.takeInbox 3 f ∧ f.hdr.type = tyMemRead ∧ pageAddr f.hdr.addr.toNat = .mailbox n off ∧ (u.usable (u.framePath entry f)).contains n = false :=
  ⟨awake, none, pageRead, _, 5, 0x3000, by decide, by decide, by rfl, by decide, by decide, by decide⟩

set_option maxRecDepth 10000 in
theorem witness_PageAndRemoteFramesAct_3 : ∃ (s : State) (entry : Option PortNo) (f : Frame) (u : State) (n off : Nat), f.wellFormed = true ∧ s.running = true ∧ u = s.takeInbox 3 f ∧ f.hdr.type = tyMemWrite ∧ f.hdr.poison = false ∧ pageAddr f.hdr.addr.toNat = .mailbox n off ∧ (u.usable (u.framePath entry f)).contains n = true ∧ accessOk off f.hdr.length.toNat = true :=
  ⟨tenant5, none, pageWrite, _, 5, 0x2010, by decide, by decide, by rfl, by decide, by decide, by decide, by decide, by decide⟩

set_option maxRecDepth 10000 in
theorem witness_PageAndRemoteFramesAct_4 : ∃ (s : State) (f : Frame) (u : State) (rh n : Nat), f.wellFormed = true ∧ s.running = true ∧ u = s.takeInbox 3 f ∧ rh = natOf (f.payload.take 16) ∧ n = fld rh 0 6 ∧ fld rh 6 2 = 0 ∧ 32 ≤ f.payload.length ∧ f.hdr.poison = false ∧ u.remoteOk f.hdr n = true ∧ (u.mbox n).busy = false :=
  ⟨tenant5, remoteReq, _, _, _, by decide, by decide, by rfl, by rfl, by rfl, by decide, by decide, by decide, by decide, by decide⟩

set_option maxRecDepth 10000 in
theorem witness_PageAndRemoteFramesAct_5 : ∃ (s : State) (f : Frame) (u : State) (rh n : Nat) (ev st : Nat), f.wellFormed = true ∧ s.running = true ∧ u = s.takeInbox 3 f ∧ rh = natOf (f.payload.take 16) ∧ n = fld rh 0 6 ∧ ev = natOf ((f.payload.drop 16).take 16) ∧ fld rh 6 2 = 0 ∧ 32 ≤ f.payload.length ∧ f.hdr.poison = false ∧ (u.remoteOk f.hdr n = false ∨ (u.mbox n).busy = true) ∧ st = (if u.remoteOk f.hdr n then stBusy else stNotPermitted) :=
  ⟨awake, remoteReq, _, _, _, _, _, by decide, by decide, by rfl, by rfl, by rfl, by rfl, by decide, by decide, by decide, by decide, by rfl⟩

theorem witness_PageAndRemoteFramesAct_6 : ∃ (s : State) (mb : Mb) (x : Session), s.mgmt.available = true ∧ (s.mbox mb).session = some x :=
  ⟨held 5 0 0 0 id, 5, { token := 1, lease := 60, leaseEnd := 60000000000 }, by decide, by decide⟩

theorem witness_TrainingEventsAct_1 : ∃ (s : State) (p : PortNo) (found : Detection), s.AtStage p .detect ∧ (s.port p).waiting = false :=
  ⟨portAt { stage := .detect }, 0, .noLane, by unfold State.AtStage; decide, by decide⟩

theorem witness_TrainingEventsAct_2 : ∃ (s : State) (p : PortNo) (found : Detection), s.AtStage p .detect ∧ (s.port p).waiting = true :=
  ⟨portAt { stage := .detect, waiting := true }, 0, .noLane, by unfold State.AtStage; decide, by decide⟩

theorem witness_TrainingEventsAct_3 : ∃ (s : State) (ln : LaneNo) (w : BitVec 128) (p : Nat), s.portOfLane ln = some p ∧ s.AtStage p .train ∧ (s.port p).pcie = false :=
  ⟨portAt { stage := .train }, 3, 0, 0, by decide, by unfold State.AtStage; decide, by decide⟩

theorem witness_TrainingEventsAct_4 : ∃ (s : State) (p : PortNo), s.AtStage p .train :=
  ⟨portAt { stage := .train }, 0, by unfold State.AtStage; decide⟩

theorem witness_TrainingEventsAct_5 : ∃ (s : State) (p : PortNo), s.AtStage p .train :=
  ⟨portAt { stage := .train }, 0, by unfold State.AtStage; decide⟩

theorem witness_TrainingEventsAct_6 : ∃ (s : State) (ln : LaneNo) (p : Nat), s.portOfLane ln = some p ∧ s.AtStage p .lock ∧ (s.port p).pcie = false :=
  ⟨portAt { stage := .lock }, 3, 0, by decide, by unfold State.AtStage; decide, by decide⟩

theorem witness_TrainingEventsAct_7 : ∃ (s : State) (ln : LaneNo) (lip : BitVec 4) (a p : Nat), s.portOfLane ln = some p ∧ s.AtStage p .lock ∧ (s.port p).pcie = false :=
  ⟨portAt { stage := .lock }, 3, 3, 1000, 0, by decide, by unfold State.AtStage; decide, by decide⟩

theorem witness_TrainingEventsAct_8 : ∃ (s : State) (p : PortNo), s.AtStage p .lock ∧ ((s.lanesOf p).all (fun n => (s.lane n).fecLock && (s.lane n).marker.isSome) = true) :=
  ⟨{ portAt { stage := .lock } with lanes := [(0, aLane), (1, aLane), (2, aLane), (3, aLane)] }, 0, by unfold State.AtStage; decide, by decide⟩

theorem witness_TrainingEventsAct_9 : ∃ (s : State) (p : PortNo), s.AtStage p .lock :=
  ⟨portAt { stage := .lock }, 0, by unfold State.AtStage; decide⟩

theorem witness_TrainingEventsAct_10 : ∃ (s : State) (ln : LaneNo) (p : Nat) (g : Stage), s.portOfLane ln = some p ∧ s.AtStage p g ∧ (s.port p).pcie = false ∧ (g = .train ∨ g = .lock ∨ g = .exchange) :=
  ⟨portAt { stage := .exchange }, 3, 0, .exchange, by decide, by unfold State.AtStage; decide, by decide, by decide⟩

theorem witness_RetrainEventsAct_1 : ∃ (s : State) (ln : LaneNo) (p : Nat) (g : Stage), s.portOfLane ln = some p ∧ s.AtStage p g ∧ (s.port p).pcie = false ∧ (g = .lock ∨ g = .exchange ∨ g = .active) :=
  ⟨portAt { stage := .active }, 3, 0, .active, by decide, by unfold State.AtStage; decide, by decide, by decide⟩

theorem witness_RetrainEventsAct_2 : ∃ (s : State) (ln : LaneNo) (p : Nat) (g : Stage), s.portOfLane ln = some p ∧ s.AtStage p g ∧ (s.port p).pcie = false ∧ (g = .exchange ∨ g = .active) :=
  ⟨portAt { stage := .active }, 3, 0, .active, by decide, by unfold State.AtStage; decide, by decide, by decide⟩

theorem witness_RetrainEventsAct_3 : ∃ (s : State) (q : QuadNo) (p : Nat) (g : Stage), s.mainPortOfQuad q = some p ∧ s.AtStage p g ∧ (s.port p).pcie = false ∧ (g = .exchange ∨ g = .active ∨ g = .lock) :=
  ⟨portAt { stage := .lock }, 0, 0, .lock, by decide, by unfold State.AtStage; decide, by decide, by decide⟩

theorem witness_RetrainEventsAct_4 : ∃ (s : State) (p : PortNo), s.AtStage p .active :=
  ⟨portAt { stage := .active }, 0, by unfold State.AtStage; decide⟩

theorem witness_RetrainEventsAct_5 : ∃ (s : State) (p : PortNo) (g : Stage), s.AtStage p g ∧ (g = .exchange ∨ (g = .active ∧ (s.link p).sawOther = false)) :=
  ⟨portAt { stage := .active }, 0, .active, by unfold State.AtStage; decide, by decide⟩

theorem witness_RetrainEventsAct_6 : ∃ (s : State) (p : PortNo) (pl : BlockPayload) (r : ExchangeRec), s.AtStage p .exchange ∧ r = ExchangeRec.ofPayload pl :=
  ⟨portAt { stage := .exchange }, 0, 0, _, by unfold State.AtStage; decide, by rfl⟩

theorem witness_RetrainEventsAct_7 : ∃ (s : State) (p : PortNo), s.AtStage p .exchange :=
  ⟨portAt { stage := .exchange }, 0, by unfold State.AtStage; decide⟩

theorem witness_RetrainEventsAct_8 : ∃ (s : State) (ln : LaneNo) (above : Bool), s.running = true ∧ above = decide ((s.lane ln).threshold ≠ 0 ∧ (s.lane ln).threshold < (s.lane ln).window) :=
  ⟨awake, 511, _, by decide, by rfl⟩

theorem witness_RetrainEventsAct_9 : ∃ (s : State) (p : PortNo), s.AtStage p .sleep ∧ (s.port p).waking = true :=
  ⟨portAt { stage := .sleep, waking := true }, 0, by unfold State.AtStage; decide, by decide⟩

theorem witness_RetrainEventsAct_10 : ∃ (s : State) (p : PortNo), s.AtStage p .sleep ∧ (s.port p).waking = true :=
  ⟨portAt { stage := .sleep, waking := true }, 0, by unfold State.AtStage; decide, by decide⟩

theorem witness_RetrainEventsAct_11 : ∃ (s : State) (ln : LaneNo) (errs : List Nat) (a : Lane × Nat), s.running = true ∧ (s.lane ln).chkEn = true ∧ ((errs.all fun n => decide (n ≤ 2)) = true) ∧ (a = errs.foldl (fun (a : Lane × Nat) n => (a.1.prbsSymbol n, if a.1.prbsSync then a.2 + n else a.2)) (s.lane ln, 0)) :=
  ⟨{ awake with lanes := [(511, { chkEn := true })] }, 511, [0, 2], _, by decide, by decide, by decide, by rfl⟩

theorem witness_RetrainEventsAct_12 : ∃ (s : State) (p : PortNo) (training : Bool) (ltssm : BitVec 6) (g : Stage), s.AtStage p g ∧ (s.port p).pcie = true ∧ (g = .pcieTraining ∨ g = .pcieL0 ∨ g = .pcieL1) :=
  ⟨portAt { stage := .pcieL0, pcie := true }, 0, false, 17, .pcieL0, by unfold State.AtStage; decide, by decide, by decide⟩

theorem witness_RetrainEventsAct_13 : ∃ (s : State) (p : PortNo) (width : BitVec 5) (rate : BitVec 3), s.AtStage p .pcieTraining ∧ (s.port p).pcie = true ∧ s.storeCells p = 0 ∧ width.toNat ∈ [1, 2, 4, 8, 16] ∧ rate.toNat ≤ 5 := ⟨portAt { stage := .pcieTraining, pcie := true }, 0, 16, 5, by unfold State.AtStage; decide, by decide⟩

theorem witness_BlockEventsAct_1 : ∃ (s : State) (p : PortNo) (g : Stage), s.AtStage p g ∧ (g = .exchange ∨ g = .active) :=
  ⟨portAt { stage := .active }, 0, .active, by unfold State.AtStage; decide, by decide⟩

theorem witness_BlockEventsAct_2 : ∃ (s : State) (p : PortNo), s.AtStage p .active :=
  ⟨portAt { stage := .active }, 0, by unfold State.AtStage; decide⟩

theorem witness_BlockEventsAct_3 : ∃ (s : State) (p : PortNo), s.AtStage p .active :=
  ⟨portAt { stage := .active }, 0, by unfold State.AtStage; decide⟩

theorem witness_BlockEventsAct_4 : ∃ (s : State) (p : PortNo) (h : BitVec 64) (pl : BlockPayload), s.AtStage p .active ∧ h.toNat % 16 = 1 :=
  ⟨portAt { stage := .active }, 0, 1, 0, by unfold State.AtStage; decide, by decide⟩

theorem witness_BlockEventsAct_5 : ∃ (s : State) (p : PortNo) (g : Stage), s.AtStage p g ∧ (g = .exchange ∨ g = .active) :=
  ⟨portAt { stage := .active }, 0, .active, by unfold State.AtStage; decide, by decide⟩

theorem witness_BlockEventsAct_6 : ∃ (s : State) (p : PortNo) (h : BitVec 64), s.AtStage p .active ∧ h.toNat % 16 = 0 :=
  ⟨portAt { stage := .active }, 0, 0, by unfold State.AtStage; decide, by decide⟩

theorem witness_BlockEventsAct_7 : ∃ (s : State) (p : PortNo) (h : BitVec 64) (pl : BlockPayload), s.AtStage p .active ∧ h.toNat % 16 = 2 :=
  ⟨portAt { stage := .active }, 0, 2, 0, by unfold State.AtStage; decide, by decide⟩

theorem witness_BlockEventsAct_8 : ∃ (s : State) (p : PortNo) (h : BitVec 64) (pl : BlockPayload), s.AtStage p .active ∧ h.toNat % 16 = 3 :=
  ⟨portAt { stage := .active }, 0, 3, 0, by unfold State.AtStage; decide, by decide⟩

theorem witness_BlockEventsAct_9 : ∃ (s : State) (p : PortNo) (h : BitVec 64) (pl : BlockPayload), s.AtStage p .active ∧ h.toNat % 16 = 5 :=
  ⟨portAt { stage := .active }, 0, 5, 0, by unfold State.AtStage; decide, by decide⟩

theorem witness_BlockEventsAct_10 : ∃ (s : State) (p : PortNo) (h : BitVec 64) (g : Stage), s.AtStage p g ∧ (g = .exchange ∨ g = .active) ∧ 6 ≤ h.toNat % 16 :=
  ⟨portAt { stage := .active }, 0, 6, .active, by unfold State.AtStage; decide, by decide, by decide⟩

set_option maxRecDepth 10000 in
theorem witness_LinkTimersAct_1 : ∃ (s : State) (p : PortNo) (b : TxData) (l : List TxData), s.AtStage p .active ∧ (s.link p).timerOn = true ∧ (s.link p).u = b :: l :=
  ⟨{ portAt { stage := .active } with links := [(0, { timerOn := true, u := [⟨0, 0, true, true, 0, 0, 0, false⟩] })] }, 0, ⟨0, 0, true, true, 0, 0, 0, false⟩, [], by unfold State.AtStage; decide, by decide, by decide⟩

theorem witness_LinkTimersAct_2 : ∃ (s : State) (p : PortNo), s.AtStage p .active ∧ (s.link p).awaitSync = true :=
  ⟨{ portAt { stage := .active } with links := [(0, { awaitSync := true })] }, 0, by unfold State.AtStage; decide, by decide⟩

theorem witness_LinkTimersAct_3 : ∃ (s : State) (p : PortNo), s.AtStage p .active ∧ (s.link p).sawOther = false :=
  ⟨portAt { stage := .active }, 0, by unfold State.AtStage; decide, by decide⟩

theorem witness_LinkTimersAct_4 : ∃ (s : State) (p : PortNo) (g : Stage), s.AtStage p g :=
  ⟨portAt { stage := .exchange }, 0, .exchange, by unfold State.AtStage; decide⟩

theorem witness_LinkTimersAct_5 : ∃ (s : State) (p : PortNo) (req : Geid) (tag : BitVec 12) (g : Stage) (o : OutReq), s.AtStage p g ∧ ((s.link p).outReqs.find? (fun o => decide (o.requester = req ∧ o.tag = tag)) = some o) :=
  ⟨{ portAt { stage := .active } with links := [(0, { outReqs := [⟨1, 2, {}, 0, 0, none⟩] })] }, 0, 1, 2, .active, ⟨1, 2, {}, 0, 0, none⟩, by unfold State.AtStage; decide, by decide⟩

theorem witness_LinkTimersAct_6 : ∃ (s : State) (p : PortNo), s.AtStage p .active ∧ (s.port p).pcie = false ∧ (s.link p).sleep.idleUs ≠ 0 :=
  ⟨{ portAt { stage := .active } with links := [(0, { sleep := { idleUs := 5 } })] }, 0, by unfold State.AtStage; decide, by decide, by decide⟩

theorem witness_LinkTimersAct_7 : ∃ (s : State) (p : PortNo), s.AtStage p .active ∧ ((s.link p).sleep.reqSent || (s.link p).sleep.ackSent) = true ∧ (s.link p).sleep.goRcvd = false :=
  ⟨{ portAt { stage := .active } with links := [(0, { sleep := { reqSent := true } })] }, 0, by unfold State.AtStage; decide, by decide, by decide⟩

theorem witness_LinkTimersAct_8 : ∃ (s : State) (p : PortNo) (g : Stage), s.AtStage p g :=
  ⟨portAt { stage := .active }, 0, .active, by unfold State.AtStage; decide⟩

theorem witness_LinkTimersAct_9 : ∃ (s : State) (p : PortNo), s.AtStage p .sleep ∧ (s.port p).pcie = false :=
  ⟨portAt { stage := .sleep }, 0, by unfold State.AtStage; decide, by decide⟩

theorem witness_LinkTimersAct_10 : ∃ (s : State) (p : PortNo) (g : Stage), s.AtStage p g ∧ (s.port p).pcie = false :=
  ⟨portAt { stage := .sleep }, 0, .sleep, by unfold State.AtStage; decide, by decide⟩

theorem witness_FabricEventsAct_1 : ∃ (s : State) (f : Frame), f.wellFormed = true ∧ s.running = true ∧ f.hdr.kind = .completion ∧ f.hdr.dst.toNat / 256 = s.fabric.switchId.toNat :=
  ⟨{ awake with fabric := { switchId := 0 } }, { hdr := { type := tyCompletion } }, by decide, by decide, by decide, by decide⟩

theorem witness_FabricEventsAct_2 : ∃ (s : State) (g : Geid) (tag : BitVec 12) (u : TagUse), s.tagUse g tag = some u ∧ s.running = true ∧ g.toNat % 256 ≠ 3 :=
  ⟨{ awake with fabric := { tags := [(256 * 4096 + 5, some { dst := 0, cls := 0, partition := 0 })] } }, 256, 5, { dst := 0, cls := 0, partition := 0 }, by decide, by decide, by decide⟩

theorem witness_FabricEventsAct_3 : ∃ (s : State) (g : Geid) (tag : BitVec 12) (u : TagUse), s.tagUse g tag = some u ∧ s.running = true ∧ g.toNat % 256 = 3 :=
  ⟨{ awake with fabric := { tags := [(259 * 4096 + 5, some { dst := 0, cls := 0, partition := 0 })] } }, 259, 5, { dst := 0, cls := 0, partition := 0 }, by decide, by decide, by decide⟩

theorem witness_FabricEventsAct_4 : ∃ (s : State) (src : SrcNo) (vc : VcNo), s.running = true :=
  ⟨awake, 0, 0, by decide⟩

theorem witness_FabricEventsAct_5 : ∃ (s : State) (q : PuNo), s.running = true :=
  ⟨awake, 127, by decide⟩

theorem witness_FabricEventsAct_6 : ∃ (s : State) (k : TableKind) (e : BitVec 2), s.firmwareRuns = true ∧ (k, e) ∈ s.fabric.waits ∧ s.epochFrames k e = 0 :=
  ⟨{ awake with fabric := { waits := [(.policy, 3)] } }, .policy, 3, by decide, by decide, by decide⟩

theorem witness_FabricEventsAct_7 : ∃ (s : State), s.firmwareRuns = true ∧ s.fabric.topoPending = true :=
  ⟨{ awake with fabric := { topoPending := true } }, by decide, by decide⟩

theorem witness_FabricEventsAct_8 : ∃ (s : State), s.firmwareRuns = true ∧ s.fabric.commitRetry = true ∧ s.fabric.managed = false :=
  ⟨{ awake with fabric := { commitRetry := true } }, by decide, by decide, by decide⟩

theorem witness_FabricEventsAct_9 : ∃ (s : State) (u : State), s.firmwareRuns = true ∧ s.fabric.managed = false ∧ (u = s.modFab (fun f => { f with ownLinkSeq := f.ownLinkSeq + 1 })) :=
  ⟨awake, _, by decide, by decide, by rfl⟩

theorem witness_FabricEventsAct_10 : ∃ (s : State) (p : PortNo) (r : LinkStateRec) (u : State), r.nbrs.length ≤ 128 ∧ s.firmwareRuns = true ∧ u = s.takeLocal p 1 ∧ s.fabricPorts.contains p = true ∧ r.sw ≠ u.fabric.switchId ∧ Tab.get none u.fabric.links r.sw.toNat = none :=
  ⟨neighbour, 0, aRecord, _, by decide, by decide, by rfl, by decide, by decide, by decide⟩

theorem witness_FabricEventsAct_11 : ∃ (s : State) (p : PortNo) (r : LinkStateRec) (u : State) (h : LinkRec), r.nbrs.length ≤ 128 ∧ s.firmwareRuns = true ∧ u = s.takeLocal p 1 ∧ s.fabricPorts.contains p = true ∧ r.sw ≠ u.fabric.switchId ∧ Tab.get none u.fabric.links r.sw.toNat = some h ∧ h.record.uid = r.uid :=
  ⟨{ neighbour with fabric := { neighbour.fabric with links := [(aRecord.sw.toNat, some { record := aRecord })] } }, 0, aRecord, _, { record := aRecord }, by decide, by decide, by rfl, by decide, by decide, by decide, by decide⟩

theorem witness_FabricEventsAct_12 : ∃ (s : State) (sw : BitVec 12), s.firmwareRuns = true ∧ (Tab.get none s.fabric.links sw.toNat).isSome = true :=
  ⟨{ neighbour with fabric := { neighbour.fabric with links := [(aRecord.sw.toNat, some { record := aRecord })] } }, aRecord.sw, by decide, by decide⟩

theorem witness_TimeEventsAct_1 : ∃ (s : State) (p : PortNo), s.firmwareRuns = true ∧ (s.port p).pcie = false ∧ (s.port p).linkUp = true :=
  ⟨portAt { stage := .active, reached := true }, 0, by decide, by decide, by decide⟩

theorem witness_TimeEventsAct_2 : ∃ (s : State) (p : PortNo) (m : TimeMsg) (u v : State) (err : Int), s.firmwareRuns = true ∧ u = s.takeLocal p 2 ∧ (u.port p).pcie = false ∧ (u.port p).linkUp = true ∧ (v = (u.modTime fun t => { t with delays := Tab.mod [] t.delays p fun l => (((m.t4 - m.t1) - (m.t3 - m.t2)) / 2 :: l).take 16, offers := Tab.put none t.offers p (some (m.gmPrio, m.gmId, m.hops)) }).chooseSource) ∧ err = (m.timeNs : Int) * 1000 + (mean (Tab.get [] v.fabric.time.delays p) - Tab.get 0 v.fabric.time.asym p) - (v.fabNs : Int) * 1000 :=
  ⟨portAt { stage := .active, reached := true }, 0, aTimeMsg, _, _, _, by decide, by rfl, by decide, by decide, by rfl, by rfl⟩

theorem witness_TimeEventsAct_3 : ∃ (s : State) (u : State) (err : Int), u = s.wake 3 ∧ u.running = true ∧ u.fabric.time.ppsInEn = true ∧ u.isGm = true ∧ (err = (((u.fabric.time.presetSec.map fun n => n.toNat * 1000000000).getD ((u.fabNs + 500000000) / 1000000000 * 1000000000) : Nat) - (u.fabNs : Int)) * 1000) :=
  ⟨{ awake with fabric := { time := { ppsInEn := true, gmPriority := 1 } } }, _, _, by rfl, by decide, by decide, by decide, by rfl⟩

theorem witness_TimeEventsAct_4 : ∃ (s : State) (u : State), u = s.wake 3 ∧ (u.running && u.fabric.time.ppsInEn && u.isGm) = false :=
  ⟨awake, _, by rfl, by decide⟩

theorem witness_TimeEventsAct_5 : ∃ (s : State), s.running = true :=
  ⟨awake, by decide⟩

theorem witness_CarouselEventsAct_1 : ∃ (s : State) (src : SrcNo) (vc : VcNo) (uid : Nat) (l : List Nat) (r : FrameRec), s.waitingAt src.val vc.val = uid :: l ∧ s.frame? uid = some r ∧ s.running = true ∧ r.place = .lookedUp ∧ r.whole = true ∧ s.instRoom r = false :=
  ⟨noInstRoom, 0, 0, 0, [], { aFrame with fromInst := some (0, 1) }, by decide, by decide, by decide, by decide, by decide, by decide⟩

theorem witness_CarouselEventsAct_2 : ∃ (s : State) (src : SrcNo) (vc : VcNo) (uid : Nat) (l : List Nat) (r : FrameRec), s.waitingAt src.val vc.val = uid :: l ∧ s.frame? uid = some r ∧ s.running = true ∧ r.place = .lookedUp ∧ r.whole = true ∧ s.instRoom r = true ∧ s.voqRoom r = false :=
  ⟨noVoqRoom, 0, 0, 0, [], aFrame, by decide, by decide, by decide, by decide, by decide, by decide, by decide⟩

theorem witness_CarouselEventsAct_3 : ∃ (s : State) (src : SrcNo) (vc : VcNo) (uid : Nat) (l : List Nat) (r : FrameRec) (t0 u : State), s.waitingAt src.val vc.val = uid :: l ∧ s.frame? uid = some r ∧ s.running = true ∧ r.place = .lookedUp ∧ r.whole = true ∧ s.instRoom r = true ∧ s.voqRoom r = true ∧ t0 = (s.pmon (puOf src.val) 0x108 r.frame.hdr.vc 1).pmon (puOf src.val) 0x109 r.frame.hdr.vc r.frame.blocks ∧ (u = ((t0.modWaiting src.val vc.val (·.erase uid)).setFrame uid (some { r with place := .admitted })).modVoq r.flow fun v => { v with frames := v.frames ++ [uid] }) :=
  ⟨waitingFrame aFrame, 0, 0, 0, [], aFrame, _, _, by decide, by decide, by decide, by decide, by decide, by decide, by decide, by rfl, by rfl⟩

theorem witness_CarouselEventsAct_4 : ∃ (s : State), s.running = true :=
  ⟨awake, by decide⟩

theorem witness_CarouselEventsAct_5 : ∃ (s : State), s.running = true :=
  ⟨awake, by decide⟩

theorem witness_CarouselEventsAct_6 : ∃ (s : State) (u : State), s.running = true ∧ (u = s.pmon 0x90 0x145 0 ((s.car.mids.map fun e => (e.2.queues.map fun q => q.2.length).sum).sum)) :=
  ⟨awake, _, by decide, by rfl⟩

theorem witness_CarouselEventsAct_7 : ∃ (s : State) (o : PuNo), s.running = true ∧ Tab.get [] s.car.arrivals o.val = [] :=
  ⟨awake, 0, by decide, by decide⟩

theorem witness_CarouselEventsAct_8 : ∃ (s : State) (o : PuNo) (c : Cell) (rest : List Cell) (u v : State), s.running = true ∧ Tab.get [] s.car.arrivals o.val = c :: rest ∧ (u = (s.modCar fun x => { x with arrivals := Tab.put [] x.arrivals o.val rest }).countCar o.val fun x => x.arrived c.state) ∧ (v = if c.first then u.modFrame c.uid fun r => { r with firstAt := some o.val } else u) ∧ v.puRuns o.val = false :=
  ⟨arrived (fun s => { s with bist := { s.bist with marks := [196608] } }), 0, aCell, [], _, _, by decide, by decide, by rfl, by rfl, by decide⟩

theorem witness_CarouselEventsAct_9 : ∃ (s : State) (o : PuNo) (c : Cell) (rest : List Cell) (u v : State) (p : Nat), s.running = true ∧ Tab.get [] s.car.arrivals o.val = c :: rest ∧ (u = (s.modCar fun x => { x with arrivals := Tab.put [] x.arrivals o.val rest }).countCar o.val fun x => x.arrived c.state) ∧ (v = if c.first then u.modFrame c.uid fun r => { r with firstAt := some o.val } else u) ∧ v.puRuns o.val = true ∧ c.egress ≤ 1 ∧ v.outPort o.val c.egress = some p :=
  ⟨arrived id, 0, aCell, [], _, _, 0, by decide, by decide, by rfl, by rfl, by decide, by decide, by decide⟩

theorem witness_CarouselEventsAct_10 : ∃ (s : State) (p : PortNo) (src : SrcNo) (vc : VcNo), s.running = true :=
  ⟨awake, 0, 0, 0, by decide⟩

theorem witness_CarouselEventsAct_11 : ∃ (s : State) (m : MidNo), s.running = true ∧ (s.mid m.val).state = .draining ∧ ((s.mid m.val).queues = [] ∨ 16 ≤ (s.mid m.val).drained) :=
  ⟨{ awake with car := { awake.car with mids := [(3, { state := .draining, drained := 16 })] } }, 3, by decide, by decide, by decide⟩

theorem witness_CarouselEventsAct_12 : ∃ (s : State) (m : MidNo), s.running = true ∧ ((s.mid m.val).state = .skippedFenced ∨ (s.mid m.val).state = .skippedOff) ∧ midHeld s.out m.val = false ∧ s.ringIsOff (ringOf m.val) = false :=
  ⟨{ awake with car := { awake.car with mids := [(3, { state := .skippedFenced })] } }, 3, by decide, by decide, by decide, by decide⟩

theorem witness_CarouselEventsAct_13 : ∃ (s : State) (q : PuNo) (srcs : List Nat) (u : State), srcs = (256 + q.val) :: s.portsOfQuad q.val ∧ (u = s.each (s.framesWith fun r => srcs.contains r.src && decide (r.place = .carousel)) (fun t uid => (t.frame? uid).elim t fun r => t.loseFrame uid r.egress.pu)) ∧ q.val ∈ s.faults.cleanup :=
  ⟨{ awake with faults := { awake.faults with cleanup := [2] } }, 2, _, _, by rfl, by rfl, by decide⟩

theorem witness_SchedulerEventsAct_1 : ∃ (s : State) (p : PortNo) (fc : BitVec 3) (x : Nat × FrameRec), s.running = true ∧ s.atBoundary p.val = true ∧ (s.sweepQueues p.val).mqHead p.val = some x :=
  ⟨mqAtZero, 0, 0, (0, aFrame), by decide, by decide, by decide⟩

theorem witness_SchedulerEventsAct_2 : ∃ (s : State) (p : PortNo) (fc : BitVec 3) (u : State), s.running = true ∧ s.atBoundary p.val = true ∧ (s.sweepQueues p.val).mqHead p.val = none ∧ u = (s.sweepQueues p.val).countShaperWaits p.val ∧ (u.schedOf p.val).portPeak.peakOk = true :=
  ⟨portAt { pcie := true, stage := .pcieL0 }, 0, 0, _, by decide, by decide, by decide, by rfl, by decide⟩

theorem witness_SchedulerEventsAct_3 : ∃ (s : State) (p : PortNo) (fc : BitVec 3) (u : State), s.running = true ∧ s.atBoundary p.val = true ∧ (s.sweepQueues p.val).mqHead p.val = none ∧ u = (s.sweepQueues p.val).countShaperWaits p.val ∧ (u.schedOf p.val).portPeak.peakOk = false :=
  ⟨peakSpent, 0, 0, _, by decide, by decide, by decide, by rfl, by decide⟩

theorem witness_SchedulerEventsAct_4 : ∃ (s : State) (g : EgressQueue → EgressQueue) (u : State), (g = fun x => { x with committed := x.committed.refill, peak := x.peak.refill }) ∧ (u = { s with sched := { s.sched with ports := Tab.mapAll {} s.sched.ports (fun x => { x with queues := (x.queues.map fun e => (e.1, g e.2)).filter fun e => decide (e.2 ≠ queueDefault e.1), portPeak := x.portPeak.refill }), meters := Tab.mapAll {} s.sched.meters Meter.refill } }) ∧ s.running = true :=
  ⟨awake, _, _, by rfl, by rfl, by decide⟩

theorem witness_SchedulerEventsAct_5 : ∃ (s : State) (src : SrcNo) (vc : VcNo) (uid : Nat) (l : List Nat) (r : FrameRec), s.waitingAt src.val vc.val = uid :: l ∧ s.frame? uid = some r ∧ s.running = true ∧ r.place = .penaltyFull ∧ (s.penalty r.endPu).full = false :=
  ⟨waitingFrame { aFrame with place := .penaltyFull }, 0, 0, 0, [], { aFrame with place := .penaltyFull }, by decide, by decide, by decide, by decide, by decide⟩

theorem witness_SchedulerEventsAct_6 : ∃ (s : State) (src : SrcNo) (vc : VcNo) (uid : Nat) (l : List Nat) (r : FrameRec), s.waitingAt src.val vc.val = uid :: l ∧ s.frame? uid = some r ∧ s.running = true ∧ r.place = .penaltyFull ∧ (s.penalty r.endPu).full = true :=
  ⟨(fun s => { s with sched := { s.sched with penalty := [(0, { limit := 0 })] } }) (waitingFrame { aFrame with place := .penaltyFull }), 0, 0, 0, [], { aFrame with place := .penaltyFull }, by decide, by decide, by decide, by decide, by decide⟩

theorem witness_SchedulerEventsAct_7 : ∃ (s : State) (p : PortNo) (g : GateList), s.running = true ∧ (s.schedOf p.val).gate = some g :=
  ⟨{ awake with sched := { awake.sched with ports := [(0, { gate := some aGate })] } }, 0, aGate, by decide, by decide⟩

theorem witness_SchedulerEventsAct_8 : ∃ (s : State) (p : PortNo) (g : PendingGate), s.running = true ∧ (s.schedOf p.val).gatePending = some g :=
  ⟨{ awake with sched := { awake.sched with ports := [(0, { gatePending := some { list := some aGate, start := 5, base := 0, cycle := 0 } })] } }, 0, { list := some aGate, start := 5, base := 0, cycle := 0 }, by decide, by decide⟩

theorem witness_SchedulerEventsAct_9 : ∃ (s : State) (p : PortNo) (uid : Nat), s.running = true ∧ uid ∈ Tab.get [] s.parts.held p.val :=
  ⟨{ awake with parts := { awake.parts with held := [(0, [4])] } }, 0, 4, by decide, by decide⟩

theorem witness_JugglerAndInstanceEventsAct_1 : ∃ (s : State) (j : JugglerNo) (u : State), s.running = true ∧ s.jugglerOk j.val = true ∧ u = s.retryEnds (j.val / 4) :=
  ⟨awake, 5, _, by decide, by decide, by rfl⟩

theorem witness_JugglerAndInstanceEventsAct_2 : ∃ (s : State) (f : Frame) (r : MoverRing), f.wellFormed = true ∧ s.running = true ∧ f.hdr.kind ≠ .completion ∧ s.inboxFrame 2 f = none ∧ s.moverRing (f.hdr.addr.toNat / 8) = some r ∧ f.hdr.type = tyMemWrite ∧ f.hdr.addr.toNat % 8 = 0 ∧ f.hdr.length = 4 ∧ f.hdr.part = s.ringOwner r ∧ r.state ≠ .disabled ∧ natOf f.payload % 32768 < 2 ^ r.n ∧ f.hdr.poison = false ∧ r.doorbell ≤ s.car.lookups :=
  ⟨aRing, { hdr := { type := tyMemWrite, length := 4 }, payload := bytesOf 4 3 }, theRing, by decide, by decide, by decide, by decide, by decide, by decide, by decide, by decide, by decide, by decide, by decide, by decide, by decide⟩

theorem witness_JugglerAndInstanceEventsAct_3 : ∃ (s : State) (f : Frame), f.wellFormed = true ∧ s.running = true ∧ f.hdr.kind ≠ .completion ∧ s.inboxFrame 2 f = none ∧ s.moverRing (f.hdr.addr.toNat / 8) = none :=
  ⟨awake, { hdr := { type := tyMemWrite, length := 4 }, payload := bytesOf 4 3 }, by decide, by decide, by decide, by decide, by decide⟩

theorem witness_JugglerAndInstanceEventsAct_4 : ∃ (s : State) (f : Frame), f.wellFormed = true ∧ s.running = true ∧ f.hdr.kind = .completion ∧ s.inboxFrame 2 f = none ∧ s.tagUse (s.geid 3) f.hdr.tag = none :=
  ⟨awake, { hdr := { type := tyCompletion } }, by decide, by decide, by decide, by decide, by decide⟩

theorem witness_JugglerAndInstanceEventsAct_5 : ∃ (s : State) (f : Frame) (u : TagUse) (t : MoverTag), f.wellFormed = true ∧ s.running = true ∧ f.hdr.kind = .completion ∧ s.inboxFrame 2 f = none ∧ s.tagUse (s.geid 3) f.hdr.tag = some u ∧ Tab.get none (s.juggler (f.hdr.tag.toNat / 8)).tags (f.hdr.tag.toNat % 8) = some t ∧ u.dst = f.hdr.src ∧ endsRequest f = false :=
  ⟨aMoverTag, partCpl, { dst := 0, cls := 0, partition := 0 }, { ring := 0, read := .flush 0 }, by decide, by decide, by decide, by decide, by decide, by decide, by decide, by decide⟩

theorem witness_JugglerAndInstanceEventsAct_6 : ∃ (s : State) (p : PortNo) (id : BitVec 8) (q late : Bool) (r : InstRec), s.firmwareRuns = true ∧ s.policy.instAt p.val id.toNat = some r ∧ (s.instRun p.val id.toNat).state = .quiescing :=
  ⟨oneInst .quiescing awake, 0, 1, true, true, anInst, by decide, by decide, by decide⟩

theorem witness_JugglerAndInstanceEventsAct_7 : ∃ (s : State) (p : PortNo) (id : BitVec 8) (r : InstRec) (x : InstRun) (u : State), s.firmwareRuns = true ∧ s.policy.instAt p.val id.toNat = some r ∧ x = s.instRun p.val id.toNat ∧ x.state = .resetting ∧ x.icb.resetReq = true ∧ x.gone = false ∧ x.reqCleared = false ∧ (u = (s.modInst p.val id.toNat fun y => { y with reqCleared := true, aborted := [], icb := { y.icb with resetReq := false, quiesceReq := false } }).modLink p.val fun l => { l with outReqs := l.outReqs.filter fun o => !x.aborted.contains (o.requester, o.tag) }) :=
  ⟨resetting, 0, 1, anInst, _, _, by decide, by decide, by rfl, by decide, by decide, by decide, by decide, by rfl⟩

theorem witness_JugglerAndInstanceEventsAct_8 : ∃ (s : State) (p : PortNo) (id : BitVec 8) (r : InstRec) (x : InstRun), s.firmwareRuns = true ∧ s.policy.instAt p.val id.toNat = some r ∧ x = s.instRun p.val id.toNat ∧ x.state = .resetting ∧ x.icb.resetReq = true ∧ x.gone = false ∧ x.reqCleared = false :=
  ⟨resetting, 0, 1, anInst, _, by decide, by decide, by rfl, by decide, by decide, by decide, by decide⟩

theorem witness_JugglerAndInstanceEventsAct_9 : ∃ (s : State) (p : PortNo) (id : BitVec 8) (r : InstRec) (x : InstRun), s.firmwareRuns = true ∧ s.policy.instAt p.val id.toNat = some r ∧ x = s.instRun p.val id.toNat ∧ x.state = .resetting ∧ x.forced = true ∧ x.gone = false :=
  ⟨resetting, 0, 1, anInst, _, by decide, by decide, by rfl, by decide, by decide, by decide⟩

theorem witness_VirtualEventsAct_1 : ∃ (s : State) (p : PortNo) (t : Tlp) (u : State) (v : Nat), t.wellFormed = true ∧ s.tlpPort p.val true = true ∧ u = s.pmon (leadOf p.val) 0x070 0 1 ∧ u.vhOf p.val = some v ∧ (t.kind = .memRead ∨ t.kind = .memWrite ∨ t.kind = .ioRead ∨ t.kind = .ioWrite) :=
  ⟨hostPort, 0, aTlp, _, 0, by decide, by decide, by rfl, by decide, by decide⟩

theorem witness_VirtualEventsAct_2 : ∃ (s : State) (p : PortNo) (t : Tlp) (u : State) (v : Nat), t.wellFormed = true ∧ s.tlpPort p.val true = true ∧ u = s.pmon (leadOf p.val) 0x070 0 1 ∧ u.vhOf p.val = some v :=
  ⟨hostPort, 0, aTlp, _, 0, by decide, by decide, by rfl, by decide⟩

theorem witness_VirtualEventsAct_3 : ∃ (s : State) (p : PortNo) (t : Tlp) (u : State), t.wellFormed = true ∧ s.tlpPort p.val true = true ∧ u = s.pmon (leadOf p.val) 0x070 0 1 ∧ u.vhOf p.val = none :=
  ⟨tlpPortAt true, 0, aTlp, _, by decide, by decide, by rfl, by decide⟩

theorem witness_VirtualEventsAct_4 : ∃ (s : State) (p : PortNo) (i : BitVec 12) (t : Tlp), t.wellFormed = true ∧ s.tlpPort p.val false = true :=
  ⟨tlpPortAt false, 0, 0, aTlp, by decide, by decide⟩

theorem witness_VirtualEventsAct_5 : ∃ (s : State) (p : PortNo) (i : BitVec 12) (t : Tlp) (f : Frame), t.wellFormed = true ∧ s.running = true ∧ (s.port p.val).nativeUp = true ∧ s.actsAs s.policy p.val = 2 ∧ s.tlpPort p.val false = false ∧ f = s.instTunnel p.val i t :=
  ⟨sharedUp, 0, 0, aTlp, _, by decide, by decide, by decide, by decide, by decide, by rfl⟩

theorem witness_VirtualEventsAct_6 : ∃ (s : State) (vh : VhNo) (fn : EmulatedFn) (reg : BitVec 12) (wr : Option (BitVec 32)) (poison : Bool), reg.toNat % 4 = 0 ∧ s.running = true ∧ (s.forwardCfg vh.val fn (fun bus => forwardedCfg bus reg wr poison) = none) :=
  ⟨awake, 0, .upstream, 0, none, false, by decide, by decide, by decide⟩

theorem witness_VirtualEventsAct_7 : ∃ (s : State) (vh : VhNo) (k : VdspNo) (w : BitVec 16), s.mgmt.available = true ∧ s.boothRuns = true ∧ s.vdspChan vh.val k.val = none :=
  ⟨awake, 0, 0, 0x400, by decide, by decide, by decide⟩

theorem witness_VirtualEventsAct_8 : ∃ (s : State) (vh : VhNo) (k : VdspNo) (w : BitVec 16) (c : Nat) (u : State), s.mgmt.available = true ∧ s.boothRuns = true ∧ s.vdspChan vh.val k.val = some c ∧ (u = s.modChan c fun x => { x with pcc := w.getLsbD 10, cmdCompleted := true }) :=
  ⟨slotted, 0, 0, 0x400, 2, _, by decide, by decide, by decide, by rfl⟩

theorem witness_VirtualEventsAct_9 : ∃ (s : State) (vh : VhNo) (k : VdspNo), s.running = true ∧ k.val ∈ s.vdsps vh.val :=
  ⟨hostPort, 0, 0, by decide, by decide⟩

theorem witness_VirtualEventsAct_10 : ∃ (s : State) (p : PortNo) (v : Nat), s.tlpPort p.val true = true ∧ s.vhOf p.val = some v :=
  ⟨hostPort, 0, 0, by decide, by decide⟩

theorem witness_VirtualEventsAct_11 : ∃ (s : State) (p : PortNo) (f : Frame) (uid : Nat), f.wellFormed = true ∧ s.running = true ∧ (s.port p.val).pcie = true ∧ (s.port p.val).linkUp = true ∧ f.hdr.kind = .completion ∧ s.queuedFrame p.val f = some uid :=
  ⟨queuedCpl, 0, partCpl, 0, by decide, by decide, by decide, by decide, by decide, by decide⟩

theorem witness_VirtualEventsAct_12 : ∃ (s : State) (p : PortNo) (f : Frame) (u : TagUse) (t : Tlp), f.wellFormed = true ∧ s.running = true ∧ (s.port p.val).pcie = true ∧ (s.port p.val).linkUp = true ∧ f.hdr.kind = .completion ∧ s.queuedFrame p.val f = none ∧ s.tagUse f.hdr.dst f.hdr.tag = some u ∧ u.dst = f.hdr.src ∧ f.tlp = some t ∧ endsRequest f = true :=
  ⟨tagAtPort, 0, tlpCpl, { dst := 0, cls := 0, partition := 0 }, aCplTlp, by decide, by decide, by decide, by decide, by decide, by decide, by decide, by decide, by decide, by decide⟩

theorem witness_PatchworkFabricSideActs_1 : ∃ (s : State) (x : PwPort) (f : Frame), f.wellFormed = true ∧ s.running = true ∧ f.hdr.kind = .completion ∧ (f.hdr.type = tyCompletion ∨ f.hdr.type = tyHeritage) :=
  ⟨awake, .a, { hdr := { type := tyCompletion } }, by decide, by decide, by decide, by decide⟩

theorem witness_PatchworkFabricSideActs_2 : ∃ (s : State) (x : PwPort) (f : Frame), f.wellFormed = true ∧ s.running = true ∧ f.hdr.kind ≠ .completion ∧ s.fenced (pwUnit x) = true :=
  ⟨{ awake with faults := { awake.faults with fences := [aPwFence] } }, .a, pwWrite 4, by decide, by decide, by decide, by decide⟩

theorem witness_PatchworkFabricSideActs_3 : ∃ (s : State) (x : PwPort) (f : Frame), f.wellFormed = true ∧ s.running = true ∧ f.hdr.kind ≠ .completion ∧ s.fenced (pwUnit x) = false ∧ ((s.pw x).personality = .disabled ∨ (s.pw x).asks f = none) :=
  ⟨awake, .a, pwWrite 4, by decide, by decide, by decide, by decide, by decide⟩

theorem witness_PatchworkFabricSideActs_4 : ∃ (s : State) (x : PwPort) (f : Frame) (r : PwRecord), f.wellFormed = true ∧ s.running = true ∧ f.hdr.kind ≠ .completion ∧ s.fenced (pwUnit x) = false ∧ (s.pw x).personality ≠ .disabled ∧ (s.pw x).asks f = some r ∧ (s.pw x).place r = none :=
  ⟨pwLiveState .pci, .a, pwWrite 4, pwRecordOf 4, by decide, by decide, by decide, by decide, by decide, by decide, by decide⟩

theorem witness_PatchworkFabricSideActs_5 : ∃ (s : State) (x : PwPort) (f : Frame) (r q : PwRecord) (w : PwWindow), f.wellFormed = true ∧ s.running = true ∧ f.hdr.kind ≠ .completion ∧ s.fenced (pwUnit x) = false ∧ (s.pw x).personality ≠ .disabled ∧ (s.pw x).asks f = some r ∧ (s.pw x).place r = some (q, w) ∧ q.fits w = false :=
  ⟨pwWindowed .vme, .a, pwCas, pwCasRecord, pwCasRecord, outWindow, by decide, by decide, by decide, by decide, by decide, by decide, by decide, by decide⟩

theorem witness_PatchworkFabricSideActs_6 : ∃ (s : State) (x : PwPort) (f : Frame) (r q : PwRecord) (w : PwWindow), f.wellFormed = true ∧ s.running = true ∧ f.hdr.kind ≠ .completion ∧ s.fenced (pwUnit x) = false ∧ (s.pw x).personality ≠ .disabled ∧ (s.pw x).asks f = some r ∧ (s.pw x).place r = some (q, w) ∧ q.fits w = true ∧ q.nonPosted = false ∧ (((s.pw x).store.map fun r => r.frame.blocks).sum + f.blocks ≤ 1024) :=
  ⟨pwWindowed .pci, .a, pwWrite 4, pwRecordOf 4, pwRecordOf 4, outWindow, by decide, by decide, by decide, by decide, by decide, by decide, by decide, by decide, by decide, by decide⟩

theorem witness_PatchworkFabricSideActs_7 : ∃ (s : State) (x : PwPort) (f : Frame) (r q : PwRecord) (w : PwWindow) (e : Nat), f.wellFormed = true ∧ s.running = true ∧ f.hdr.kind ≠ .completion ∧ s.fenced (pwUnit x) = false ∧ (s.pw x).personality ≠ .disabled ∧ (s.pw x).asks f = some r ∧ (s.pw x).place r = some (q, w) ∧ q.fits w = true ∧ q.nonPosted = true ∧ (s.pw x).freeSlot = some e ∧ (((s.pw x).store.map fun r => r.frame.blocks).sum + f.blocks ≤ 1024) :=
  ⟨pwWindowed .pci, .a, pwRead, pwReadRecord, pwReadRecord, outWindow, 0, by decide, by decide, by decide, by decide, by decide, by decide, by decide, by decide, by decide, by decide, by decide⟩

theorem witness_PatchworkFabricSideActs_8 : ∃ (s : State) (x : PwPort) (r : PwRecord) (l : List PwRecord), s.pwLive x = true ∧ (s.pw x).sequence = none ∧ (s.pw x).store = r :: l ∧ s.lifetimeNs ≤ s.now - r.born :=
  ⟨{ pwStored with now := 1000000000000 }, .a, pwRecordOf 4, [], by decide, by decide, by decide, by decide⟩

theorem witness_PatchworkFabricSideActs_9 : ∃ (s : State) (x : PwPort) (r q : PwRecord) (l : List PwRecord) (w : PwWindow), s.pwLive x = true ∧ (s.pw x).sequence = none ∧ (s.pw x).store = r :: l ∧ s.now - r.born < s.lifetimeNs ∧ r.frame.hdr.poison = false ∧ (s.pw x).place r = some (q, w) ∧ q.op = .write :=
  ⟨pwStored, .a, pwRecordOf 4, pwRecordOf 4, [], outWindow, by decide, by decide, by decide, by decide, by decide, by decide, by decide⟩

theorem witness_PatchworkFabricSideActs_10 : ∃ (s : State) (x : PwPort) (st : BusStatus) (data : List Byte) (q : PwSeq), (st = .ok ∨ data = []) ∧ s.pwLive x = true ∧ (s.pw x).sequence = some q ∧ st ≠ .ok ∧ st ≠ .parity :=
  ⟨(pwLiveState .pci).modPw .a fun p => { p with sequence := some aSeq }, .a, .busError, [], aSeq, by decide, by decide, by decide, by decide, by decide⟩

theorem witness_PatchworkFabricSideActs_11 : ∃ (s : State) (x : PwPort) (st : BusStatus) (data : List Byte) (q : PwSeq), (st = .ok ∨ data = []) ∧ s.pwLive x = true ∧ (s.pw x).sequence = some q ∧ st = .parity :=
  ⟨(pwLiveState .pci).modPw .a fun p => { p with sequence := some aSeq }, .a, .parity, [], aSeq, by decide, by decide, by decide, by decide⟩

theorem witness_PatchworkFabricSideActs_12 : ∃ (s : State) (x : PwPort) (st : BusStatus) (data : List Byte), (st = .ok ∨ data = []) ∧ s.pwLive x = true ∧ st = .ok :=
  ⟨pwLiveState .pci, .a, .ok, [], by decide, by decide, by decide⟩

theorem witness_PatchworkFabricSideActs_13 : ∃ (s : State) (x : PwPort) (r : PwRecord), (leastBy (fun r => r.born) (s.pw x).store = some r) :=
  ⟨pwStored, .a, pwRecordOf 4, by decide⟩

theorem witness_PatchworkBusSideActs_1 : ∃ (s : State) (x : PwPort) (c : BusCycle) (u : State), c.wellFormed = true ∧ s.pwLive x = true ∧ (u = if c.continued then s else (s.closeWrite x).dropPrefetch x (·.inbound)) :=
  ⟨pwLiveState .pci, .a, {}, _, by decide, by decide, by rfl⟩

theorem witness_PatchworkBusSideActs_2 : ∃ (s : State) (x : PwPort) (c : BusCycle) (u : State), c.wellFormed = true ∧ c.write = true ∧ c.rmw = false ∧ s.pwLive x = true ∧ (u = if c.continued then s else (s.closeWrite x).dropPrefetch x (·.inbound)) :=
  ⟨pwLiveState .pci, .a, { write := true, data := [1] }, _, by decide, by decide, by decide, by decide, by rfl⟩

theorem witness_PatchworkBusSideActs_3 : ∃ (s : State) (x : PwPort) (c : BusCycle) (u : State), c.wellFormed = true ∧ c.write = false ∧ c.rmw = false ∧ s.pwLive x = true ∧ (u = if c.continued then s else (s.closeWrite x).dropPrefetch x (·.inbound)) :=
  ⟨pwLiveState .pci, .a, {}, _, by decide, by decide, by decide, by decide, by rfl⟩

theorem witness_PatchworkBusSideActs_4 : ∃ (s : State) (x : PwPort) (c : BusCycle) (u : State), c.wellFormed = true ∧ c.rmw = true ∧ (s.pw x).personality = .vme ∧ s.pwLive x = true ∧ (u = if c.continued then s else (s.closeWrite x).dropPrefetch x (·.inbound)) :=
  ⟨pwLiveState .vme, .a, { rmw := true, data := [1] }, _, by decide, by decide, by decide, by decide, by rfl⟩

theorem witness_PatchworkBusSideActs_5 : ∃ (s : State) (x : PwPort) (c : BusCycle) (u : State), c.wellFormed = true ∧ c.write = false ∧ c.rmw = false ∧ (s.pw x).personality = .pci ∧ s.pwLive x = true ∧ (u = if c.continued then s else (s.closeWrite x).dropPrefetch x (·.inbound)) :=
  ⟨pwLiveState .pci, .a, {}, _, by decide, by decide, by decide, by decide, by decide, by rfl⟩

theorem witness_PatchworkBusSideActs_6 : ∃ (s : State) (x : PwPort) (e : BitVec 8) (y : PwEntry) (err : Bool), Tab.get none (s.pw x).entries e.toNat = some y ∧ y.state = .ready err :=
  ⟨pwReading .pci (.ready false), .a, 3, aPwEntry (.ready false), false, by decide, by decide⟩

theorem witness_PatchworkBusSideActs_7 : ∃ (s : State) (x : PwPort) (ns : BitVec 32) (e : Nat) (y : PwEntry), (s.pw x).heldRead = some (e, y) ∧ (s.pw x).personality = .vme ∧ (s.pw x).store ≠ [] ∧ (s.pw x).sequence = none ∧ (s.pw x).yieldOn = true :=
  ⟨(pwReading .vme .held).modPw .a fun p => { p with store := [pwRecordOf 4], yieldOn := true }, .a, 5, 3, aPwEntry .held, by decide, by decide, by decide, by decide, by decide⟩

theorem witness_PatchworkBusSideActs_8 : ∃ (s : State) (x : PwPort) (ns : BitVec 32) (e : Nat) (y : PwEntry), (s.pw x).heldRead = some (e, y) ∧ (s.pw x).personality = .vme ∧ (s.pw x).store ≠ [] ∧ (s.pw x).sequence = none ∧ (s.pw x).yieldOn = false ∧ (s.pw x).crossed = false :=
  ⟨(pwReading .vme .held).modPw .a fun p => { p with store := [pwRecordOf 4] }, .a, 5, 3, aPwEntry .held, by decide, by decide, by decide, by decide, by decide, by decide⟩

theorem witness_PatchworkBusSideActs_9 : ∃ (s : State) (x : PwPort) (n : BitVec 5) (b : PwPrefetch), (s.pw x).prefetch[n.toNat]? = some b :=
  ⟨(pwLiveState .pci).modPw .a fun p => { p with prefetch := [aBuffer] }, .a, 0, aBuffer, by decide⟩

theorem witness_PatchworkBusSideActs_10 : ∃ (s : State) (x : PwPort) (sp : BitVec 2) (a : BitVec 64) (n : Nat), 1 ≤ n ∧ s.pwLive x = true :=
  ⟨pwLiveState .pci, .a, 0, 0, 1, by decide, by decide⟩

theorem witness_PatchworkBusSideActs_11 : ∃ (s : State) (x : PwPort), s.pwLive x = true :=
  ⟨pwLiveState .pci, .a, by decide⟩

theorem witness_PatchworkBusSideActs_13 : ∃ (s : State) (x : PwPort) (u : State), (s.pw x).vddHb = true ∧ s.running = true ∧ (u = ((s.pwEndWork x false).report (pwSource x) 0x05 0).modPw x fun p => { p with vddHb := false }) :=
  ⟨pwLiveState .pci, .a, _, by decide, by decide, by rfl⟩

theorem witness_PatchworkBusSideActs_14 : ∃ (s : State) (x : PwPort) (five : Bool) (u : State), (s.pw x).vddHb = false ∧ (u = s.modPw x fun p => { p with vddHb := true, fiveVolt := five }) :=
  ⟨awake.modPw .a fun p => { p with vddHb := false }, .a, true, _, by decide, by rfl⟩

theorem witness_PatchworkBusSideActs_15 : ∃ (s : State) (x : PwPort) (q : PwSeq), s.pwLive x = true ∧ (s.pw x).personality = .vme ∧ (s.pw x).syscon = true ∧ (s.pw x).sequence = some q :=
  ⟨(pwLiveState .vme).modPw .a fun p => { p with syscon := true, sequence := some aSeq }, .a, aSeq, by decide, by decide, by decide, by decide⟩

theorem witness_PatchworkBusSideActs_16 : ∃ (s : State) (x : PwPort) (e : Nat) (y : PwEntry), s.pwLive x = true ∧ (s.pw x).personality = .vme ∧ (s.pw x).syscon = true ∧ (s.pw x).sequence = none ∧ (s.pw x).heldRead = some (e, y) :=
  ⟨(pwReading .vme .held).modPw .a fun p => { p with syscon := true }, .a, 3, aPwEntry .held, by decide, by decide, by decide, by decide, by decide⟩

theorem witness_PatchworkBusSideActs_17 : ∃ (s : State) (x : PwPort) (reg : BitVec 8) (wr : Option (BitVec 32)) (u : State), reg.toNat % 4 = 0 ∧ s.pwLive x = true ∧ (s.pw x).personality = .pci ∧ (s.pw x).hostBridge = false ∧ u = (s.closeWrite x).dropPrefetch x (·.inbound) ∧ wr = none :=
  ⟨pwLiveState .pci, .a, 4, _, _, by decide, by decide, by decide, by decide, by rfl, by rfl⟩

theorem witness_PatchworkBusSideActs_18 : ∃ (s : State) (x : PwPort) (reg : BitVec 8) (wr : Option (BitVec 32)) (u : State) (v : BitVec 32), reg.toNat % 4 = 0 ∧ s.pwLive x = true ∧ (s.pw x).personality = .pci ∧ (s.pw x).hostBridge = false ∧ u = ((s.closeWrite x).dropPrefetch x (·.inbound)) ∧ wr = some v :=
  ⟨pwLiveState .pci, .a, 4, _, _, 2, by decide, by decide, by decide, by decide, by rfl, by rfl⟩

theorem witness_PatchworkBusSideActs_19 : ∃ (s : State) (pin : SidebandPin) (asserted : Bool) (n : BitVec 6), pin = .host n :=
  ⟨awake, _, true, 5, by rfl⟩

theorem witness_PatchworkBusSideActs_20 : ∃ (s : State) (pin : SidebandPin) (asserted : Bool) (n : BitVec 6), pin = .heritage n :=
  ⟨awake, _, true, 5, by rfl⟩

theorem witness_ChannelEventsAct_1 : ∃ (s : State) (c : ChanNo) (high : Bool), s.boothRuns = true ∧ (s.chan c.val).prsntHigh = high :=
  ⟨awake, 0, true, by decide, by decide⟩

theorem witness_ChannelEventsAct_2 : ∃ (s : State) (c : ChanNo) (high : Bool) (u : State), s.boothRuns = true ∧ (s.chan c.val).prsntHigh = false ∧ high = true ∧ (u = s.modChan c.val fun x => { x with prsntHigh := true, absent := false, pfwPresence := x.pfwPresence || x.state.powered }) :=
  ⟨chanAt { state := .inserting, prsntHigh := false }, 0, _, _, by decide, by decide, by rfl, by rfl⟩

theorem witness_ChannelEventsAct_3 : ∃ (s : State) (c : ChanNo) (high : Bool) (u : State), s.boothRuns = true ∧ (s.chan c.val).prsntHigh = true ∧ high = false ∧ (u = s.modChan c.val fun x => { x with prsntHigh := false, absent := false, counters := if x.absent then x.counters else { x.counters with shortAbsences := inc48 x.counters.shortAbsences } }) :=
  ⟨chanAt { state := .empty }, 0, _, _, by decide, by decide, by rfl, by rfl⟩

theorem witness_ChannelEventsAct_4 : ∃ (s : State) (c : ChanNo), s.boothRuns = true ∧ (s.chan c.val).state = .inserting :=
  ⟨chanAt { state := .inserting, prsntHigh := false }, 0, by decide, by decide⟩

theorem witness_ChannelEventsAct_5 : ∃ (s : State) (c : ChanNo) (u : State), s.boothRuns = true ∧ (s.chan c.val).prsntHigh = true ∧ (s.chan c.val).absent = false ∧ (u = (s.modChan c.val fun y => { y with absent := true }).setPresent c.val false) ∧ (s.chan c.val).state.powered = true :=
  ⟨chanAt { state := .on, absent := false }, 0, _, by decide, by decide, by decide, by rfl, by decide⟩

theorem witness_ChannelEventsAct_6 : ∃ (s : State) (c : ChanNo) (u : State), s.boothRuns = true ∧ (s.chan c.val).prsntHigh = true ∧ (s.chan c.val).absent = false ∧ (u = (s.modChan c.val fun y => { y with absent := true }).setPresent c.val false) ∧ ((s.chan c.val).state = .lockout ∨ (s.chan c.val).state = .empty) :=
  ⟨chanAt { state := .lockout, absent := false }, 0, _, by decide, by decide, by decide, by rfl, by decide⟩

theorem witness_ChannelEventsAct_7 : ∃ (s : State) (c : ChanNo) (u : State), s.boothRuns = true ∧ (s.chan c.val).prsntHigh = true ∧ (s.chan c.val).absent = false ∧ (u = (s.modChan c.val fun y => { y with absent := true }).setPresent c.val false) ∧ (s.chan c.val).state = .retryWait :=
  ⟨chanAt { state := .retryWait, absent := false }, 0, _, by decide, by decide, by decide, by rfl, by decide⟩

theorem witness_ChannelEventsAct_8 : ∃ (s : State) (c : ChanNo), s.boothRuns = true ∧ (s.chan c.val).prsntHigh = false :=
  ⟨chanAt { state := .on, prsntHigh := false }, 0, by decide, by decide⟩

theorem witness_ChannelEventsAct_9 : ∃ (s : State) (c : ChanNo) (u : State), (u = s.modChan c.val fun x => { x with holdOffEnd := 0 }) :=
  ⟨awake, 0, _, by rfl⟩

theorem witness_ChannelEventsAct_10 : ∃ (s : State) (c : Nat), s.boothRuns = true ∧ s.slots.warning = false ∧ (((List.range 48).filter fun c => (s.chan c).state == .precharge || (s.chan c).state == .gateRise).length < s.slots.bus.startLimit) ∧ s.nextRequest = some c :=
  ⟨chanAt { state := .ready, request := some 0 }, 0, by decide, by decide, by decide, by decide⟩

theorem witness_ChannelEventsAct_11 : ∃ (s : State), s.boothRuns = true ∧ (s.slots.warning = true ∨ s.nextRequest = none) :=
  ⟨awake, by decide, by decide⟩

theorem witness_ChannelEventsAct_12 : ∃ (s : State) (c : ChanNo), s.boothRuns = true ∧ (s.chan c.val).state = .precharge :=
  ⟨chanAt { state := .precharge }, 0, by decide, by decide⟩

theorem witness_ChannelEventsAct_13 : ∃ (s : State) (c : ChanNo), s.boothRuns = true ∧ (s.chan c.val).state = .gateRise :=
  ⟨chanAt { state := .gateRise }, 0, by decide, by decide⟩

theorem witness_ChannelEventsAct_14 : ∃ (s : State) (c : ChanNo), s.boothRuns = true ∧ (s.chan c.val).state = .stabilising ∧ (s.chan c.val).breakerOn = false :=
  ⟨chanAt { state := .stabilising }, 0, by decide, by decide, by decide⟩

theorem witness_ChannelEventsAct_15 : ∃ (s : State) (c : ChanNo), s.boothRuns = true ∧ (s.chan c.val).state = .precharge :=
  ⟨chanAt { state := .precharge }, 0, by decide, by decide⟩

theorem witness_ChannelEventsAct_16 : ∃ (s : State) (c : ChanNo), s.boothRuns = true ∧ (s.chan c.val).state = .stabilising :=
  ⟨chanAt { state := .stabilising }, 0, by decide, by decide⟩

theorem witness_ChannelEventsAct_17 : ∃ (s : State) (c : ChanNo), s.boothRuns = true ∧ (s.chan c.val).state = .on :=
  ⟨chanAt { state := .on }, 0, by decide, by decide⟩

theorem witness_ChannelEventsAct_18 : ∃ (s : State) (c : ChanNo), s.boothRuns = true ∧ (s.chan c.val).state = .gateRise :=
  ⟨chanAt { state := .gateRise }, 0, by decide, by decide⟩

theorem witness_ChannelEventsAct_19 : ∃ (s : State) (c : ChanNo) (u : State), s.boothRuns = true ∧ (s.chan c.val).state.powered = true ∧ (u = s.modChan c.val fun x => { x with breakerOn := true }) :=
  ⟨chanAt { state := .on }, 0, _, by decide, by decide, by rfl⟩

theorem witness_ChannelEventsAct_20 : ∃ (s : State) (c : ChanNo), s.boothRuns = true :=
  ⟨awake, 0, by decide⟩

theorem witness_ChannelEventsAct_21 : ∃ (s : State) (c : ChanNo) (u : State), s.boothRuns = true ∧ (s.chan c.val).state.powered = true ∧ (s.chan c.val).breakerOn = true ∧ (u = ((s.modChan c.val fun x => { x with tripCause := 1, powerFault := true, counters := { x.counters with tripsBreaker := inc48 x.counters.tripsBreaker } }).report (slotSource c.val) 0x01 1).modChan c.val fun y => { y with retry := y.retry + 1 }) :=
  ⟨chanAt { state := .on, breakerOn := true }, 0, _, by decide, by decide, by decide, by rfl⟩

theorem witness_ChannelEventsAct_22 : ∃ (s : State) (c : ChanNo), s.slots.restarting = false ∧ s.boothRuns = true ∧ ((s.chan c.val).state.powered = true ∨ (s.chan c.val).state = .warnOff) :=
  ⟨chanAt { state := .on }, 0, by decide, by decide, by decide⟩

theorem witness_ChannelEventsAct_23 : ∃ (s : State) (c : ChanNo), s.slots.restarting = true ∧ ((s.chan c.val).qp = true ∨ (s.chan c.val).qm = true) :=
  ⟨(chanAt { state := .on, qm := true }).modSlots fun x => { x with restarting := true }, 0, by decide, by decide⟩

theorem witness_ChannelEventsAct_24 : ∃ (s : State) (c : ChanNo), s.boothRuns = true ∧ (s.chan c.val).state = .warnOff :=
  ⟨chanAt { state := .warnOff }, 0, by decide, by decide⟩

theorem witness_ChannelEventsAct_25 : ∃ (s : State) (c : ChanNo), s.boothRuns = true ∧ s.slots.restarting = false ∧ (s.chan c.val).state = .retryWait :=
  ⟨chanAt { state := .retryWait }, 0, by decide, by decide, by decide⟩

theorem witness_ChannelEventsAct_26 : ∃ (s : State) (c : ChanNo), s.slots.restarting = true :=
  ⟨(chanAt { state := .retryWait }).modSlots fun x => { x with restarting := true }, 0, by decide⟩

theorem witness_ChannelEventsAct_27 : ∃ (s : State) (c : ChanNo), s.boothRuns = true ∧ (s.chan c.val).state = .on :=
  ⟨chanAt { state := .on }, 0, by decide, by decide⟩

theorem witness_SlotBusEventsAct_1 : ∃ (s : State) (v : BitVec 16) (u : State), s.boothRuns = true ∧ s.slots.warning = false ∧ (u = s.modSlots fun x => { x.sampled v with busWarnings := inc48 x.busWarnings, warning := true, warnMin := v, warnSince := s.now }) :=
  ⟨awake, 7, _, by decide, by decide, by rfl⟩

theorem witness_SlotBusEventsAct_2 : ∃ (s : State) (v : BitVec 16), s.boothRuns = true ∧ s.slots.warning = true :=
  ⟨awake.modSlots fun x => { x with warning := true }, 7, by decide, by decide⟩

theorem witness_SlotBusEventsAct_3 : ∃ (s : State) (v : BitVec 16) (u : State), s.boothRuns = true ∧ s.slots.warning = true ∧ (u = s.modSlots fun x => { x.sampled v with warning := false }) :=
  ⟨awake.modSlots fun x => { x with warning := true }, 7, _, by decide, by decide, by rfl⟩

theorem witness_SlotBusEventsAct_4 : ∃ (s : State) (v : BitVec 16) (u : State), s.boothRuns = true ∧ (u = s.modSlots fun x => { x.sampled v with cut := true, busCuts := inc48 x.busCuts }) :=
  ⟨awake, 7, _, by decide, by rfl⟩

theorem witness_SlotBusEventsAct_5 : ∃ (s : State) (v : BitVec 16) (u : State) (w : State), s.boothRuns = true ∧ (u = (s.modSlots fun x => { x.sampled v with cut := false }).evSlotBus 3 false v 0) ∧ (w = u.each ((List.range 48).filter fun c => (u.chan c).state == .busCut) fun t c => if ((t.chanTo c .ready 0).chan c).set.autoOn then (t.chanTo c .ready 0).requestAt c (t.chanTo c .ready 0).slots.nextReq else t.chanTo c .ready 0) :=
  ⟨awake, 7, _, _, by decide, by rfl, by rfl⟩

theorem witness_SlotBusEventsAct_6 : ∃ (s : State) (c : ChanNo) (x : SlotSample) (v : BitVec 16), s.boothRuns = true :=
  ⟨awake, 0, {}, 7, by decide⟩

theorem witness_SlotBusEventsAct_7 : ∃ (s : State), s.slots.restarting = true :=
  ⟨awake.modSlots fun x => { x with restarting := true }, by decide⟩

theorem witness_SlotBusEventsAct_8 : ∃ (s : State) (u : State), s.boothRuns = true ∧ (u = s.modSlots fun x => { x with restarting := true, released := false, restartAt := s.now }) :=
  ⟨awake, _, by decide, by rfl⟩

theorem witness_SlotBusEventsAct_9 : ∃ (s : State) (prsnt : BitVec 48) (v : BitVec 16), s.slots.restarting = true :=
  ⟨awake.modSlots fun x => { x with restarting := true }, 0, 7, by decide⟩

theorem witness_FaultEventsAct_1 : ∃ (s : State) (src : BitVec 12) (code : BitVec 8) (detail : BitVec 64) (u : State), sourceExists src = true ∧ (errorRow src code).isSome = true ∧ (s.collectorOn = true ∨ (selvedgeSource src = false ∧ s.power.coreOn = true)) ∧ (u = s.modSource src fun x => { x with reports := addReport x.reports { code := code, detail := detail }, pair := if x.pair = .invalid then .invalid else .pending }) :=
  ⟨awake, 0x205, 1, 0, _, by decide, by decide, by decide, by rfl⟩

theorem witness_FaultEventsAct_2 : ∃ (s : State) (src : BitVec 12), sourceExists src = true ∧ s.collectorOn = true ∧ (s.source src).pair = .pending ∧ (s.source src).unsupervised = false ∧ (s.source src).seenAt = none :=
  ⟨{ awake with faults := { awake.faults with sources := [(0x205, { pair := .pending })] } }, 0x205, by decide, by decide, by decide, by decide, by decide⟩

theorem witness_FaultEventsAct_3 : ∃ (s : State) (src : BitVec 12), sourceExists src = true ∧ s.collectorOn = true ∧ (s.source src).pair = .invalid :=
  ⟨{ awake with faults := { awake.faults with sources := [(0x205, { pair := .invalid })] } }, 0x205, by decide, by decide, by decide⟩

theorem witness_FaultEventsAct_4 : ∃ (s : State) (src : BitVec 12) (code : BitVec 8) (r : Report) (x : Source) (u : State), errorGiven src code = true ∧ s.nextReport src = some r ∧ s.collectorOn = true ∧ r.code = code ∧ x = s.source src ∧ (u = s.modSource src fun y => ({ y with reports := y.reports.filter (fun z => decide (z.code ≠ code)), noReport := false }).settle) :=
  ⟨{ awake with faults := { awake.faults with sources := [(0x205, { pair := .pending, reports := [{ code := 1 }] })] } }, 0x205, 1, { code := 1 }, _, _, by decide, by decide, by decide, by decide, by rfl, by rfl⟩

theorem witness_FaultEventsAct_5 : ∃ (r q : FaultRec), r.severity ≠ svContained ∧ q = { r with unit := 0xFFFFF, multi := false } := ⟨{ source := 0, error := 0, severity := svFatal }, _, by decide, rfl⟩

theorem witness_FaultEventsAct_6 : ∃ (r q : FaultRec) (named : Option UnitId) (l : List UnitId), r.severity = svContained ∧ l = fencedBy r.source r.error r.detail named ∧ q = { r with unit := (l.head?.map UnitId.bits).getD 0xFFFFF, multi := decide (1 < l.length) } := ⟨{ source := 0x205, error := 1, severity := svContained }, _, none, _, by decide, rfl, rfl⟩

theorem witness_FaultEventsAct_7 : ∃ (s : State) (src : BitVec 12) (t : BitVec 32 × BitVec 30) (u : State), sourceExists src = true ∧ (s.source src).seenAt = some t ∧ s.collectorOn = true ∧ (s.source src).noReport = true ∧ (u = (s.modSource src fun y => ({ y with noReport := false }).settle).modFaults fun f => { f with pairOnly := inc48 f.pairOnly }) :=
  ⟨{ awake with faults := { awake.faults with sources := [(0x205, { pair := .pending, seenAt := some (0, 0), noReport := true })] } }, 0x205, (0, 0), _, by decide, by decide, by decide, by decide, by rfl⟩

theorem witness_FaultEventsAct_8 : ∃ (s : State) (src : BitVec 12) (u : State), sourceExists src = true ∧ (s.source src).unsupervised = false ∧ s.collectorOn = true ∧ (u = s.modSource src fun y => { y with pair := .invalid, unsupervised := true, seenAt := none, noReport := false }) :=
  ⟨awake, 0x205, _, by decide, by decide, by decide, by rfl⟩

theorem witness_FaultEventsAct_9 : ∃ (s : State) (src : BitVec 12) (code : BitVec 8) (m : Merge), sourceExists src = true ∧ s.collectorOn = true ∧ Tab.get none s.faults.merges (256 * src.toNat + code.toNat) = some m ∧ m.total = 0 :=
  ⟨{ awake with faults := { awake.faults with merges := [(256 * 0x205 + 1, some {})] } }, 0x205, 1, {}, by decide, by decide, by decide, by decide⟩

theorem witness_FaultEventsAct_10 : ∃ (s : State) (src : BitVec 12) (code : BitVec 8) (m : Merge), sourceExists src = true ∧ s.collectorOn = true ∧ Tab.get none s.faults.merges (256 * src.toNat + code.toNat) = some m ∧ m.total ≠ 0 :=
  ⟨{ awake with faults := { awake.faults with merges := [(256 * 0x205 + 1, some { total := 3 })] } }, 0x205, 1, { total := 3 }, by decide, by decide, by decide, by decide⟩

theorem witness_FaultEventsAct_11 : ∃ (s : State) (f : Frame) (r : Nat), f.wellFormed = true ∧ s.running = true ∧ f.hdr.poison = false ∧ 40 ≤ f.payload.length ∧ r = natOf (f.payload.drop 8) :=
  ⟨awake, { hdr := { type := tyManagement, subtype := 3, length := 40 }, payload := bytesOf 40 7 }, _, by decide, by decide, by decide, by decide, by rfl⟩

theorem witness_FaultEventsAct_12 : ∃ (s : State), s.faults.aliveRunning = true :=
  ⟨{ awake with faults := { awake.faults with aliveRunning := true } }, by decide⟩

theorem witness_FaultEventsAct_13 : ∃ (s : State), s.firmwareRuns = true :=
  ⟨awake, by decide⟩

theorem witness_FaultEventsAct_14 : ∃ (s : State) (u : State), (s.faults.suspended = false ∨ s.mgmt.weftReset = true ∨ s.power.inter = .waking) ∧ u = s.report 0xC04 0x01 0 :=
  ⟨{ awake with faults := { awake.faults with suspended := false } }, _, by decide, by rfl⟩

theorem witness_TestAndMonitorEventsAct_1 : ∃ (s : State) (u : UnitId) (r : BistRec), testable u = true ∧ s.bistRec u = some r ∧ r.active = true ∧ r.result = 1 ∧ s.isolated u = true :=
  ⟨testing 1, aUnit, aTest 1, by decide, by decide, by decide, by decide, by decide⟩

theorem witness_TestAndMonitorEventsAct_2 : ∃ (s : State) (u : UnitId) (x : EngineResult) (r : BistRec), testable u = true ∧ s.bistRec u = some r ∧ r.active = true ∧ r.result = 2 ∧ x.signature = r.expected ∧ x.comparesOk = true :=
  ⟨testing 2, aUnit, { signature := 0, comparesOk := true }, aTest 2, by decide, by decide, by decide, by decide, by decide, by decide⟩

theorem witness_TestAndMonitorEventsAct_3 : ∃ (s : State) (u : UnitId) (x : EngineResult) (r : BistRec), testable u = true ∧ s.bistRec u = some r ∧ r.active = true ∧ r.result = 2 ∧ (x.signature ≠ r.expected ∨ x.comparesOk = false) :=
  ⟨testing 2, aUnit, { signature := 1, comparesOk := true }, aTest 2, by decide, by decide, by decide, by decide, by decide⟩

theorem witness_TestAndMonitorEventsAct_4 : ∃ (s : State) (u : UnitId), testable u = true ∧ u ∈ s.testsEnded :=
  ⟨testing 3, aUnit, by decide, by decide⟩

theorem witness_TestAndMonitorEventsAct_5 : ∃ (s : State) (u : UnitId) (r : BistRec), testable u = true ∧ s.bistRec u = some r ∧ r.active = true ∧ r.result = 1 ∧ s.isolated u = false :=
  ⟨draining, aMidUnit, { unit := aMidUnit, result := 1, active := true }, by decide, by decide, by decide, by decide, by decide⟩

theorem witness_TestAndMonitorEventsAct_6 : ∃ (s : State) (mon : BitVec 9) (k : BitVec 3) (cyc : BitVec 64) (ctx : BitVec 128) (m : Pmon) (c : PmonCounter) (u : State), pmonExists mon.toNat = true ∧ m = s.pmonOf mon.toNat ∧ c = m.counter k.toNat ∧ c.enabled = true ∧ m.frozen = false ∧ s.pmonClocked mon.toNat = true ∧ (eventCounted c.event = false ∨ 0 < c.wraps) ∧ (u = s.modPmon mon.toNat fun m => m.modCounter k.toNat PmonCounter.wrap) ∧ c.samples = false :=
  ⟨counting 1, 0, 0, 0, 0, _, _, _, by decide, by rfl, by rfl, by decide, by decide, by decide, by decide, by rfl, by decide⟩

theorem witness_TestAndMonitorEventsAct_7 : ∃ (s : State) (mon : BitVec 9) (k : BitVec 3) (cyc : BitVec 64) (ctx : BitVec 128) (m : Pmon) (c : PmonCounter) (u : State), pmonExists mon.toNat = true ∧ m = s.pmonOf mon.toNat ∧ c = m.counter k.toNat ∧ c.enabled = true ∧ m.frozen = false ∧ s.pmonClocked mon.toNat = true ∧ (eventCounted c.event = false ∨ 0 < c.wraps) ∧ (u = s.modPmon mon.toNat fun m => m.modCounter k.toNat PmonCounter.wrap) ∧ c.samples = true ∧ m.samples.length < 64 ∧ m.samples.length ≠ 31 :=
  ⟨counting 3, 0, 0, 0, 0, _, _, _, by decide, by rfl, by rfl, by decide, by decide, by decide, by decide, by rfl, by decide, by decide, by decide⟩

theorem witness_TestAndMonitorEventsAct_8 : ∃ (s : State) (mon : BitVec 9) (k : BitVec 3) (cyc : BitVec 64) (ctx : BitVec 128) (m : Pmon) (c : PmonCounter) (u : State), pmonExists mon.toNat = true ∧ m = s.pmonOf mon.toNat ∧ c = m.counter k.toNat ∧ c.enabled = true ∧ m.frozen = false ∧ s.pmonClocked mon.toNat = true ∧ (eventCounted c.event = false ∨ 0 < c.wraps) ∧ (u = s.modPmon mon.toNat fun m => m.modCounter k.toNat PmonCounter.wrap) ∧ c.samples = true ∧ 64 ≤ m.samples.length :=
  ⟨fullSamples, 0, 0, 0, 0, _, _, _, by decide, by rfl, by rfl, by decide, by decide, by decide, by decide, by rfl, by decide, by decide⟩

theorem witness_TestAndMonitorEventsAct_9 : ∃ (s : State) (t : Nat) (clear : Bool) (u v w : State), s.bist.pending = some (t, clear) ∧ s.running = true ∧ t ≤ s.fabNs ∧ u = s.each pmonMons State.captureMon ∧ (v = u.each u.allPorts fun x p => x.captureMarks p clear) ∧ (w = if clear then v.each (List.range 128) State.resetPenaltyHwm else v) :=
  ⟨{ awake with bist := { awake.bist with pending := some (0, false) } }, 0, false, _, _, _, by decide, by decide, by decide, by rfl, by rfl, by rfl⟩

theorem witness_BootEventsAct_1 : ∃ (s : State), s.power.started = false :=
  ⟨State.reset, by decide⟩

theorem witness_BootEventsAct_2 : ∃ (s : State) (temp : Int) (u : State), s.part.lcX = false ∧ s.slots.restarting = false ∧ s.power.plan = .check ∧ temp < 0 ∧ (u = ((s.modPower fun x => { x with plan := .hold, holdSince := some s.now }).modMgmt fun m => { m with stage := stageHeld }).report 0xE04 0x01 0) :=
  ⟨planned .check, -5, _, by decide, by decide, by decide, by decide, by rfl⟩

theorem witness_BootEventsAct_3 : ∃ (s : State) (temp : Int), s.part.lcX = false ∧ s.slots.restarting = false ∧ s.power.plan = .check ∧ 0 ≤ temp :=
  ⟨planned .check, 5, by decide, by decide, by decide, by decide⟩

theorem witness_BootEventsAct_4 : ∃ (s : State) (temp : Int), s.part.lcX = false ∧ s.slots.restarting = false ∧ s.power.plan = .hold ∧ 0 ≤ temp :=
  ⟨planned .hold, 5, by decide, by decide, by decide, by decide⟩

theorem witness_BootEventsAct_5 : ∃ (s : State) (temp : Int), s.part.lcX = true ∧ s.slots.restarting = false ∧ s.power.plan = .check :=
  ⟨{ planned .check with part := { lcX := true } }, -5, by decide, by decide, by decide⟩

theorem witness_BootEventsAct_6 : ∃ (s : State) (temp : Int), s.part.lcX = true ∧ s.slots.restarting = false ∧ s.power.plan = .preheat :=
  ⟨{ planned .preheat with part := { lcX := true } }, 5, by decide, by decide, by decide⟩

theorem witness_BootEventsAct_7 : ∃ (s : State), s.power.plan = .preheat :=
  ⟨planned .preheat, by decide⟩

theorem witness_BootEventsAct_8 : ∃ (s : State), s.power.plan = .preheatWait :=
  ⟨planned .preheatWait, by decide⟩

theorem witness_BootEventsAct_9 : ∃ (s : State) (r : RailNo) (n : Nat), s.railRising r.val = true ∧ ((s.power.plan.order.filter fun n => decide (r.val < n)).head? = some n) :=
  ⟨rising, 1, 2, by decide, by decide⟩

theorem witness_BootEventsAct_10 : ∃ (s : State) (r : RailNo), s.railRising r.val = true ∧ ((s.power.plan.order.filter fun n => decide (r.val < n)).head? = none) ∧ s.power.plan = .up :=
  ⟨rising, 4, by decide, by decide, by decide⟩

theorem witness_BootEventsAct_11 : ∃ (s : State) (r : RailNo), s.railRising r.val = true :=
  ⟨rising, 1, by decide⟩

theorem witness_BootEventsAct_12 : ∃ (s : State), s.power.plan = .retry :=
  ⟨planned .retry, by decide⟩

theorem witness_BootEventsAct_13 : ∃ (s : State) (r : RailNo), s.power.coreOn = true ∧ nth false s.power.ok r.val = true :=
  ⟨{ awake with power := { awake.power with ok := [true, true, true, true, true] } }, 1, by decide, by decide⟩

theorem witness_BootEventsAct_14 : ∃ (s : State) (r : RailNo), s.power.plan.down = true ∧ nth false s.power.ok r.val = true ∧ nth false s.power.en r.val = false :=
  ⟨{ planned .downFailed with power := { (planned .downFailed).power with ok := [true, true, true, true, true] } }, 4, by decide, by decide, by decide⟩

theorem witness_BootEventsAct_15 : ∃ (s : State), s.power.plan = .upDone ∧ s.power.coreOn = false :=
  ⟨planned .upDone, by decide, by decide⟩

theorem witness_BootEventsAct_16 : ∃ (s : State), s.power.plan = .upDone ∧ s.power.coreOn = false :=
  ⟨planned .upDone, by decide, by decide⟩

theorem witness_BootEventsAct_17 : ∃ (s : State) (ok : Bool), s.power.coreOn = true ∧ s.mgmt.stage = stageRom :=
  ⟨{ awake with mgmt := { awake.mgmt with stage := stageRom } }, true, by decide, by decide⟩

theorem witness_BootEventsAct_18 : ∃ (s : State) (u v w : State), s.power.coreOn = true ∧ s.mgmt.stage = stageLoad ∧ s.power.wakeSrc = none ∧ (u = (s.modMgmt fun m => { m with stage := stageReady, bootMs := BitVec.ofNat 16 (min 65535 ((s.now - m.bootStart) / 1000000)), loggedSinceWeft := 0 }).loadDirectory.copyBooth) ∧ (v = ((if s.power.boot = .wake then u.wakeRestore else u).updateService.serveMailboxes.modFaults fun f => f.ready s.now (decide (s.power.boot = .wake))).modPower fun x => { x with inter := .no, retention := none, wakeSrc := none }) ∧ (w = if v.mgmt.fallback then v.raise 0x0002 [(v.mgmt.bootErr.toNat, 1)] [] else v) :=
  ⟨{ awake with mgmt := { awake.mgmt with stage := stageLoad } }, _, _, _, by decide, by decide, by decide, by rfl, by rfl, by rfl⟩

theorem witness_ResetAndPowerEventsAct_1 : ∃ (s : State) (u : State), s.power.started = true ∧ u = { s.coreReset with mgmt := { s.coreReset.mgmt with serialPtr := 0, serialData := [], serialAck := false }, car := {}, bist := {}, sideband := { hostIn := s.sideband.hostIn, herIn := s.sideband.herIn }, faults := { s.coreReset.faults with ffr := none, firstFatal := none, aliveLevel := false }, power := { started := true, boot := .cold, refclkAo := s.coreReset.power.refclkAo, refclkCore := s.coreReset.power.refclkCore } } :=
  ⟨awake, _, by decide, by rfl⟩

theorem witness_ResetAndPowerEventsAct_2 : ∃ (s : State), s.power.coreOn = true :=
  ⟨awake, by decide⟩

theorem witness_ResetAndPowerEventsAct_3 : ∃ (s : State) (m : Mgmt), m = s.mgmt.coreReset s.now :=
  ⟨awake, _, by rfl⟩

theorem witness_ResetAndPowerEventsAct_4 : ∃ (s : State) (b : Bool) (u v : State), s.mgmt.weftReset = true ∧ (u = s.finishTests.modMgmt fun m => { m with image := (if m.newImage then !m.image else m.image), fwVersion := (if m.newImage then (m.slot (if m.newImage then !m.image else m.image)).info.version else m.fwVersion), trial := m.trial || m.newImage, fallback := m.fallback && !m.newImage, stage := stageReady, weftReset := false, newImage := false }) ∧ b = s.mgmt.stagedDropped ∧ (v = u.serveMailboxes.modFaults fun f => { f with suspended := false, refreshed := s.now }) :=
  ⟨{ awake with mgmt := { awake.mgmt with weftReset := true } }, _, _, _, by decide, by rfl, by rfl, by rfl⟩

theorem witness_ResetAndPowerEventsAct_6 : ∃ (s : State) (u : State), s.running = true ∧ s.power.inter = .entering ∧ u = { s.coreReset with mgmt := { s.coreReset.mgmt with stage := stageIntermission }, faults := { s.coreReset.faults with severity := s.faults.severity, ffrLevel := s.faults.ffrLevel, aliveRunning := s.faults.aliveRunning }, power := { s.coreReset.power with retention := some s.retain, inter := .railsFalling, interSince := s.now, boot := .wake } } :=
  ⟨{ awake with power := { awake.power with inter := .entering } }, _, by decide, by decide, by rfl⟩

theorem witness_ResetAndPowerEventsAct_7 : ∃ (s : State), s.wakeOn 1 = true ∧ s.power.plan ≠ .gaveUp ∧ s.power.inter = .asleep :=
  ⟨{ awake with power := { awake.power with inter := .asleep, wakeMask := 0b00111 } }, by decide, by decide, by decide⟩

theorem witness_ResetAndPowerEventsAct_8 : ∃ (s : State), s.power.wakeTimer ≠ 0 ∧ s.power.inter = .asleep ∧ s.wakeOn 4 = true ∧ s.power.plan ≠ .gaveUp :=
  ⟨{ awake with power := { awake.power with inter := .asleep, wakeMask := 0b11111, wakeTimer := 5 } }, by decide, by decide, by decide, by decide⟩

theorem witness_ResetAndPowerEventsAct_9 : ∃ (s : State) (mw : Nat) (u : State), s.govRuns = true ∧ (u = s.modGov fun g => g.measure mw) :=
  ⟨awake, 5, _, by decide, by rfl⟩

theorem witness_ResetAndPowerEventsAct_10 : ∃ (s : State), s.govRuns = true ∧ 4 ∉ s.mgmt.cal.invalid ∧ 50 ≤ s.power.gov.sinceLadder :=
  ⟨awake, by decide, by decide, by decide⟩

theorem witness_ResetAndPowerEventsAct_11 : ∃ (s : State) (tj : Int) (u v : State), s.govRuns = true ∧ (u = s.modGov fun g => g.thermal tj) ∧ (v = if 105 ≤ tj ∧ s.power.gov.hot = false then u.report 0xC06 0x01 0 else u) :=
  ⟨awake, 120, _, _, by decide, by rfl, by rfl⟩

theorem witness_ResetAndPowerEventsAct_12 : ∃ (s : State) (r : RailNo), s.power.coreOn = true :=
  ⟨awake, 1, by decide⟩

theorem witness_ResetAndPowerEventsAct_13 : ∃ (s : State), s.power.refclkAo = true :=
  ⟨awake, by decide⟩

theorem witness_ResetAndPowerEventsAct_15 : ∃ (s : State) (r : RingNo), s.power.coreOn = true ∧ s.ringIsOff r.val = false :=
  ⟨awake, 1, by decide, by decide⟩

theorem witness_ResetAndPowerEventsAct_16 : ∃ (s : State) (u : State), s.power.coreOn = true ∧ (u = s.modPower fun x => { x with refclkCore := false }) :=
  ⟨awake, _, by decide, by rfl⟩

theorem witness_StepRunsFront_2 : (∃ s : State, s.pending = []) := ⟨State.reset, rfl⟩

theorem witness_WellFormedCommandsComplete_1 : (∃ i : Instr, i.wellFormed = true) := ⟨.doorbell 0, by decide⟩

theorem witness_WellFormedCommandsComplete_2 : (∃ i : Instr, i.wellFormed = false) := ⟨.prbsCheck 0 [3], by decide⟩

theorem witness_CommandsLeaveQueueClockAndPart_1 : (∃ (i : Instr) (s t : State), s.Sound ∧ exec i s = .next t) := ⟨.railPowerGood 0, State.reset, _, by unfold State.Sound Mgmt.Sound FabricTime.Sound Faults.Sound; decide, rfl⟩

theorem witness_SoundKept_1 : (∃ s t : State, s.Sound ∧ step s = .next t) := ⟨{ State.reset with pending := [.railPowerGood 0] }, _, by unfold State.Sound Mgmt.Sound FabricTime.Sound Faults.Sound; decide, rfl⟩

theorem witness_HeaderRoundTrip_3 : (∃ len : Nat, len ≤ 4096) := ⟨4096, by decide⟩

theorem witness_HeaderRoundTrip_4 : (∃ (m : Mailbox) (op tag len session : Nat) (dry : Bool), op < 2 ^ 16 ∧ tag < 2 ^ 16 ∧ len < 2 ^ 12 ∧ session < 2 ^ 32 ∧ m.cmd = cellsWrite [] 0 (bytesOf 16 (op + tag * 2 ^ 16 + len * 2 ^ 32 + b2n dry * 2 ^ 48 + session * 2 ^ 64))) := ⟨{ cmd := cellsWrite [] 0 (bytesOf 16 (65535 + 65535 * 2 ^ 16 + 4095 * 2 ^ 32 + b2n true * 2 ^ 48 + 4294967295 * 2 ^ 64)) }, 65535, 65535, 4095, 4294967295, true, by decide, by decide, by decide, by decide, rfl⟩

theorem witness_CommandNeedsSession_1 : (∃ (i : Instr) (s : State) (mb : Mb) (op : Nat) (priv : Bool), commandOf i = some (mb, op, priv) ∧ sessionless op = false ∧ s.Begins mb op ∧ (s.mbox mb).tokenOk (s.mbox mb).cmdHdr.session = false) := ⟨.sysHomeSet 5, noSession 5 1, 5, 1, true, rfl, by decide, by unfold State.Begins; decide, by decide⟩

theorem witness_CommandNeedsSession_2 : (∃ (s : State) (mb : Mb), (s.mbox mb).busy = false ∧ opcodeKnown (s.mbox mb).cmdHdr.opcode = false ∧ s.serves mb = true ∧ (s.mbox mb).cmdHdr.length ≤ 4080 ∧ (s.mbox mb).tokenOk (s.mbox mb).cmdHdr.session = false) := ⟨{ State.reset with mgmt := { available := true, stage := stageReady, mbox := [(5, { mbDefault 5 with cmd := cellsWrite [] 0 (bytesOf 16 0xFFFF) })] } }, 5, by decide, by decide, by decide, by decide, by decide⟩

theorem witness_CommandNeedsSession_3 : (∃ (s : State) (mb : Mb) (pl : Nat), (s.mbox mb).session = none ∧ s.Admits { opcode := 0x0000, priv := false, open_ := true, recovery := true, stopped := true, query := true } mb pl) := ⟨noSession 5 0, 5, 0, by decide, by unfold State.Admits; decide⟩

theorem witness_CommandNeedsSession_4 : (∃ (s : State) (mb : Mb) (pl : Nat), (s.mbox mb).session = none ∧ s.Admits { opcode := 0x0004, priv := false, open_ := true, query := true } mb pl) := ⟨noSession 5 4, 5, 0, by decide, by unfold State.Admits; decide⟩

theorem witness_CommandNeedsSession_5 : (∃ (s : State) (mb : Mb) (pl lease : Nat), s.Admits { opcode := 0x0100, priv := false, open_ := true, recovery := true, stopped := true, len := fun _ => 4, fields := [(0, 1), (16, 12)], checks := fun pl => [(16, decide (fld pl 16 12 ≤ 3600))] } mb pl ∧ (s.mbox mb).session = none ∧ lease = (if fld pl 16 12 = 0 then 60 else fld pl 16 12)) := ⟨noSession 5 (0x100 + 4 * 2 ^ 32), 5, 0, 60, by unfold State.Admits; decide, by decide, rfl⟩

theorem witness_PrivilegedCommandsRefused_1 : (∃ (i : Instr) (s : State) (mb : Mb) (op : Nat), commandOf i = some (mb, op, true) ∧ privilegedMb mb = false ∧ s.Begins mb op ∧ s.mgmt.stage ≠ stageRecovery ∧ (s.mbox mb).tokenOk (s.mbox mb).cmdHdr.session = true ∧ (s.mbox mb).repeated (s.mbox mb).cmdHdr = none) := ⟨.sysReset 5, held 5 0x0E02 1 0 id, 5, 0x0E02, rfl, by decide, by unfold State.Begins; decide, by decide, by decide, by decide⟩

theorem witness_PrivilegedCommandsRefused_2 : (∃ (i : Instr) (s t : State) (mb : Mb) (op : Nat), commandOf i = some (mb, op, true) ∧ privilegedMb mb = false ∧ exec i s = .next t) := ⟨.sysReset 5, held 5 0x0E02 1 0 id, _, 5, 0x0E02, rfl, by decide, rfl⟩

theorem witness_RepeatedCommandNotRun_1 : (∃ (i : Instr) (s : State) (mb : Mb) (op : Nat) (priv : Bool) (r : List Host.Cell), commandOf i = some (mb, op, priv) ∧ s.Begins mb op ∧ (sessionless op = true ∨ (s.mbox mb).tokenOk (s.mbox mb).cmdHdr.session = true) ∧ (s.mbox mb).repeated (s.mbox mb).cmdHdr = some r) := ⟨.sysReset 0, storedOnce, 0, 0x0E02, true, [(0, 2), (1, 14)], rfl, by unfold State.Begins; decide, by decide, by decide⟩

theorem witness_DryRunChangesNothing_1 : (∃ (i : Instr) (s t : State) (mb : Mb) (op : Nat) (priv : Bool), commandOf i = some (mb, op, priv) ∧ (s.mbox mb).cmdHdr.dryRun = true ∧ exec i s = .next t) := ⟨.sysReset 0, held 0 (0x0E02 + 2 ^ 48) 1 0 id, _, 0, 0x0E02, true, rfl, by decide, rfl⟩

theorem witness_CommandWaits_1 : (∃ (i : Instr) (s : State) (mb : Mb) (op : Nat) (priv : Bool), commandOf i = some (mb, op, priv) ∧ ((s.mbox mb).busy = false ∨ s.serves mb = false ∨ (s.mbox mb).cmdHdr.opcode ≠ op)) := ⟨.sysQuery 0, State.reset, 0, 0, false, rfl, by decide⟩

theorem witness_EventQueueHead_2 : (∃ (s : State) (n : Nat) (e : EvEntry), (s.mbox n).queued < 63 ∧ (e ≠ {} ∨ Tab.wf {} (s.mbox n).evq = true)) := ⟨State.reset, 0, {}, by decide, .inr (by decide)⟩

theorem witness_EventQueueHead_3 : (∃ (s : State) (n : Nat), (s.mbox n).queued = 63) := ⟨fullQueue, 0, by decide⟩

theorem witness_EventFindsFullQueue_1 : (∃ (s : State) (n : Nat), (s.mbox n).queued = 63) := ⟨fullQueue, 0, by decide⟩

/-! ### What WellFormed refuses -/

/-- A frame whose LENGTH does not give its payload, and one whose tunnelled TLP carries too little data. -/
def shortFrame : Frame := { hdr := { type := tyMemWrite, length := 4 }, payload := [0] }
def shortTlp : Tlp := { kind := .memWrite, len := 4, data := [0] }
def shortTunnel : Frame := { hdr := { type := tyPcie, length := 17 }, tlp := some shortTlp }

theorem test_refuses_short_frame : (Instr.mailboxFrameAccess none shortFrame).wellFormed = false := by decide
theorem test_refuses_short_tunnel : (Instr.completionUnwrap 0 shortTunnel).wellFormed = false := by decide
theorem test_refuses_remote_frame : (Instr.remoteMailboxReceive shortFrame).wellFormed = false := by decide
theorem test_refuses_symbol_errors : (Instr.prbsCheck 0 [0, 3]).wellFormed = false := by decide
theorem test_refuses_data_type : (Instr.dataBlockReceive 0 2 0).wellFormed = false := by decide
theorem test_refuses_idle_type : (Instr.idleBlockReceive 0 1).wellFormed = false := by decide
theorem test_refuses_nak_type : (Instr.nakBlockReceive 0 3 0).wellFormed = false := by decide
theorem test_refuses_credit_type : (Instr.creditBlockReceive 0 2 0).wellFormed = false := by decide
theorem test_refuses_power_type : (Instr.powerBlockReceive 0 4 0).wellFormed = false := by decide
theorem test_refuses_defined_type : (Instr.reservedTypeBlockReceive 0 5).wellFormed = false := by decide
theorem test_refuses_completion : (Instr.completionReceive shortFrame).wellFormed = false := by decide
theorem test_refuses_neighbours : (Instr.linkStateReceive 0 { sw := 0, uid := 0, seq := 0, nbrs := List.replicate 129 ⟨0, 0, 1⟩ }).wellFormed = false := by decide +kernel
theorem test_refuses_doorbell_frame : (Instr.moverDoorbell shortFrame).wellFormed = false := by decide
theorem test_refuses_mover_completion : (Instr.moverCompletionReceive shortFrame).wellFormed = false := by decide
theorem test_refuses_host_tlp : (Instr.hostTlpWrap 0 shortTlp).wellFormed = false := by decide
theorem test_refuses_target_tlp : (Instr.targetTlpWrap 0 0 { kind := .memRead, len := 4, data := [0] }).wellFormed = false := by decide
theorem test_refuses_header_length : (Instr.hostTlpWrap 0 { kind := .memRead, len := 4, hdrDw := 2 }).wellFormed = false := by decide
theorem test_refuses_config_register : (Instr.configEmulation 0 .upstream 2 none false).wellFormed = false := by decide
theorem test_refuses_patchwork_frame : (Instr.patchworkFrameReceive .a shortFrame).wellFormed = false := by decide
theorem test_refuses_failed_data : (Instr.busCycleEnd .a .noResponse [0]).wellFormed = false := by decide
theorem test_refuses_unaligned_cycle : (Instr.inboundCycleClaim .a { addr := 1, len := 2 }).wellFormed = false := by decide
theorem test_refuses_read_as_write : (Instr.inboundWrite .a { len := 1 }).wellFormed = false := by decide
theorem test_refuses_write_as_read : (Instr.inboundRead .a { len := 1, write := true, data := [0] }).wellFormed = false := by decide
theorem test_refuses_plain_rmw : (Instr.inboundRmw .a { len := 1 }).wellFormed = false := by decide
theorem test_refuses_repeated_write : (Instr.pciDelayedRepeat .b { len := 1, write := true, data := [0] }).wellFormed = false := by decide
theorem test_refuses_empty_write : (Instr.busWriteObserved .a 0 0 0).wellFormed = false := by decide
theorem test_refuses_no_error : (Instr.errorDetect 0x000 0xF0 0).wellFormed = false := by decide
theorem test_refuses_no_source : (Instr.pairChangeSeen 0x280).wellFormed = false := by decide
theorem test_refuses_no_report : (Instr.faultReportClassify 0x000 0xF0).wellFormed = false := by decide
theorem test_refuses_no_pair : (Instr.pairOnlyTimeout 0x280).wellFormed = false := by decide
theorem test_refuses_no_wire : (Instr.wireFault 0x280).wellFormed = false := by decide
theorem test_refuses_no_merge : (Instr.mergeIntervalEnd 0x280 0).wellFormed = false := by decide
theorem test_refuses_fault_frame : (Instr.faultFrameReceive shortFrame).wellFormed = false := by decide
theorem test_refuses_isolating_slot : (Instr.bistIsolationComplete ⟨9, 0⟩).wellFormed = false := by decide
theorem test_refuses_testing_quad_128 : (Instr.bistEngineEnd ⟨1, 128⟩ { signature := 0, comparesOk := true }).wellFormed = false := by decide
theorem test_refuses_returning_lane : (Instr.bistReinitComplete ⟨0, 0⟩).wellFormed = false := by decide
theorem test_refuses_idle_instance : (Instr.bistNotIdleTimeout ⟨7, 0⟩).wellFormed = false := by decide
theorem test_refuses_monitor_gap : (Instr.pmonCounterWrap 0x91 0 0 0).wellFormed = false := by decide
theorem test_refuses_width_3 : (Instr.pcieLinkUp 0 3 1 0 true).wellFormed = false := by decide
theorem test_refuses_config_byte : (Instr.deviceConfigCycle .b 1 none).wellFormed = false := by decide
theorem test_ill_formed_faults : (match exec (.prbsCheck 0 [3]) State.reset with | .fault f => decide (f = .illFormed) | _ => false) = true := by decide

/-! ### Steps, against the manual's examples and tables -/

/-- The status of a mailbox's response after a step (Table 11.6). -/
def statusAfter (n : Nat) : Host.Outcome State Fault Refusal → Option Nat
  | .next t => some (t.respStatus n)
  | _ => none

/-- A byte string of a mailbox's response after a step. -/
def respAfter (n a k : Nat) : Host.Outcome State Fault Refusal → Option (List Byte)
  | .next t => some (cellsRead (t.mbox n).resp a k)
  | _ => none

/-- The full-rate example of the Carousel chapter: a frame with 4,096 bytes fills 18 blocks and 18 cells. -/
theorem test_blocks_of_full_frame : blocksFor 4096 = 18 := by decide
/-- The slot-power example after R353: a trip 80 ms after pre-charge began waits 8 s. -/
theorem test_off_time_example : offTime 80000000 = 8000000000 := by decide
/-- The byte-lane example of the Patchwork chapter: fabric offset 0x40 is bus offset 0x43 with U = 4. -/
theorem test_lane_example : laneMap 2 0x40 = 0x43 := by decide
/-- The same example: the write takes two D16 cycles, at 0xC0_0040 and 0xC0_0042. -/
theorem test_split_example : (beatsOf { sizeLog2 := 16, base := 0x00100000, xlate := 0x00C00000, lanes := 2 } 0x40 4 1).map (fun b => (b.addr, b.len)) = [(0x40, 2), (0x42, 2)] := by decide
/-- R375, Table 11.3: a doorbell at a mailbox that is BUSY sets COLLISION. -/
theorem test_collision : (match exec (.doorbell 0) (held 0 0x0000 0 0 id) with | .next t => (t.mbox 0).collision | _ => false) = true := by decide
/-- R408, R510: SYS_QUERY returns the product code first, in two bytes, least significant first. -/
theorem test_sys_query_product : respAfter 0 16 2 (exec (.sysQuery 0) (held 0 0x0000 0 0 id)) = some [0x20, 0x51] := by decide
/-- R377, Table 11.6: a privileged command in a tenant mailbox is NOT_PERMITTED. -/
theorem test_not_permitted : statusAfter 5 (exec (.sysHomeSet 5) (held 5 0x0001 1 0 id)) = some stNotPermitted := by decide
/-- R377: the length of the payload is checked after the privilege. -/
theorem test_short_payload : statusAfter 0 (exec (.sysHomeSet 0) (held 0 0x0001 0 0 id)) = some stInvalidLength := by decide
/-- Table 11.5, R12: a reserved payload bit is INVALID_FIELD, with DETAIL naming the bit. -/
theorem test_reserved_bit : respAfter 0 7 5 (exec (.sysHomeSet 0) (held 0 0x0001 1 0x80 id)) = some [BitVec.ofNat 8 stInvalidField, 7, 0, 0, 0] := by decide
/-- R382: a command without the token of the open session is NO_SESSION. -/
theorem test_no_session : statusAfter 5 (exec (.eventSubscribe 5) (noSession 5 0x0102)) = some stNoSession := by decide
/-- R384: an event that finds a queue full counts EVQ_LOST. -/
theorem test_lost_event : ((fullQueue.deliver { code := 0x0100 } 0).mbox 0).evqLost = 1 := by decide
/-- R119: the incarnation numbers wrap modulo 256. -/
theorem test_incarnation_wraps : (0xFF : BitVec 8) + 1 = 0 := by decide
/-- R162: the nanosecond after 999,999,999 begins the next second. -/
theorem test_second_carries : (({ ns := 999999999 } : FabricTime).advance.seconds, ({ ns := 999999999 } : FabricTime).advance.ns) = (1, 0) := by decide
/-- Log entry 1: with no command waiting, one ns passes. -/
theorem test_idle_tick : (match step State.reset with | .next t => t.now | _ => 0) = 1 := by decide

end Sys2Proof.Tests
end

/-! SUPPORT. O44: power-on, the cold hold and the pre-heat step, the rail sequence and the boot. -/

namespace Sys2Proof.Machine

/-- An event whose guard holds acts. -/
theorem next_of_guard {c : Prop} [Decidable c] {t s : State} (h : c) : (.next (if c then t else s) : Out) = .next t := by rw [if_pos h]

/-- An event that a guard keeps from acting acts where the guard does not hold. -/
theorem next_of_not_guard {c : Prop} [Decidable c] {t s : State} (h : ¬c) : (.next (if c then s else t) : Out) = .next t := by rw [if_neg h]

/-- A hold that starts is reported with a duration of 0. -/
theorem State.evColdHold_start (s : State) (temp : Int) :
    s.evColdHold temp false = s.raise 0x0E07 [((BitVec.ofInt 16 temp).toNat, 2), (0, 1), (0, 8)] [] := by
  unfold State.evColdHold
  cases s.power.holdSince <;> rfl

/-! ### The start-up hold and the pre-heat step -/

/-- Below 0 °C an XM5120-LC-C whose rails are due holds, reports it and raises EV_COLD_HOLD (R2). -/
theorem exec_coldHoldCheck_holds {s : State} {temp : Int} (hc : s.part.lcX = false) (hr : s.slots.restarting = false)
    (hp : s.power.plan = .check) (ht : temp < 0) :
    exec (.coldHoldCheck temp) s = .next ((((s.modPower fun x => { x with plan := .hold, holdSince := some s.now }).modMgmt fun m =>
      { m with stage := stageHeld }).report 0xE04 0x01 0).evColdHold temp false) := by
  change execColdHoldCheck temp s = _
  simp [execColdHoldCheck, hc, hr, hp, ht, State.held]

theorem exec_coldHoldCheck_sequences {s : State} {temp : Int} (hc : s.part.lcX = false) (hr : s.slots.restarting = false)
    (hp : s.power.plan = .check) (ht : 0 ≤ temp) : exec (.coldHoldCheck temp) s = .next s.railsOn := by
  change execColdHoldCheck temp s = _
  simp [execColdHoldCheck, hc, hr, hp, Int.not_lt.2 ht]

theorem exec_coldHoldCheck_hold_ends {s : State} {temp : Int} (hc : s.part.lcX = false) (hr : s.slots.restarting = false)
    (hp : s.power.plan = .hold) (ht : 0 ≤ temp) :
    exec (.coldHoldCheck temp) s = .next (((s.evColdHold temp true).modPower fun x => { x with holdSince := none }).railsOn) := by
  change execColdHoldCheck temp s = _
  simp [execColdHoldCheck, hc, hr, hp, Int.not_lt.2 ht]

theorem exec_preheatCheck_check {s : State} (temp : Int) (hx : s.part.lcX = true) (hr : s.slots.restarting = false)
    (hp : s.power.plan = .check) : exec (.preheatCheck temp) s = .next (if temp < 0 then s.preheatStart else s.railsOn) := by
  change execPreheatCheck temp s = _
  simp [execPreheatCheck, hx, hr, hp]

theorem exec_preheatCheck_preheat {s : State} (temp : Int) (hx : s.part.lcX = true) (hr : s.slots.restarting = false)
    (hp : s.power.plan = .preheat) : exec (.preheatCheck temp) s = .next (if temp < 0 then s else s.railsOff .downPreheat) := by
  change execPreheatCheck temp s = _
  simp [execPreheatCheck, hx, hr, hp]

/-! ### Rails -/

/-- A rail that is good enables the next one of the sequence (R467). -/
theorem exec_railPowerGood_enables {s : State} {r : RailNo} {n : Nat} (hr : s.railRising r.val = true)
    (hn : (s.power.plan.order.filter fun n => decide (r.val < n)).head? = some n) :
    exec (.railPowerGood r) s = .next (s.modPower fun x => { x with ok := setAt x.ok r.val true, en := setAt x.en n true }) := by
  change execRailPowerGood r s = _
  simp only [execRailPowerGood, hr, if_true, State.modPower, hn]

/-- After the last rail of the sequence all are up (R467). -/
theorem exec_railPowerGood_last {s : State} {r : RailNo} (hr : s.railRising r.val = true)
    (hn : (s.power.plan.order.filter fun n => decide (r.val < n)).head? = none) (hp : s.power.plan = .up) :
    exec (.railPowerGood r) s = .next (s.modPower fun x => { x with ok := setAt x.ok r.val true, plan := .upDone }) := by
  change execRailPowerGood r s = _
  simp only [execRailPowerGood, hr, if_true, State.modPower, hn]
  simp only [hp, if_true]

/-! ### The rows together -/

/-- Settles O44: each row acts where its guard holds, and in the two checks of the temperature as the plan of the rails says. -/
theorem bootEventsAct : Obligations.BootEventsAct := by
  unfold Obligations.BootEventsAct
  refine ⟨?powerOn,
    ?coldHoldStart,
    fun s temp hc hr hp ht => exec_coldHoldCheck_sequences hc hr hp ht,
    fun s temp hc hr hp ht => exec_coldHoldCheck_hold_ends hc hr hp ht,
    fun s temp hx hr hp => exec_preheatCheck_check temp hx hr hp,
    fun s temp hx hr hp => exec_preheatCheck_preheat temp hx hr hp,
    ?preheatTimeout,
    ?preheatRetry,
    fun s r n hr hn => exec_railPowerGood_enables hr hn,
    fun s r hr hn hp => exec_railPowerGood_last hr hn hp,
    ?railPowerGoodTimeout,
    ?railSequenceRetry,
    ?railPowerFail,
    ?railPwrOkFall,
    ?refclkCoreStartTimeout,
    ?coreRelease,
    ?imageSelect,
    ?bootReady⟩
  case powerOn => exact fun s hs => next_of_not_guard (by simp only [hs, Bool.false_eq_true, not_false_eq_true])
  case coldHoldStart =>
    intro s temp u hc hr hp ht hu
    rw [exec_coldHoldCheck_holds hc hr hp ht, ← hu, State.evColdHold_start]
  case preheatTimeout => exact fun s hp => next_of_guard hp
  case preheatRetry => exact fun s hp => next_of_guard hp
  case railPowerGoodTimeout => exact fun s r hr => next_of_guard hr
  case railSequenceRetry => exact fun s hp => next_of_guard hp
  case railPowerFail => exact fun s r hon hok => next_of_guard ⟨hon, hok⟩
  case railPwrOkFall => exact fun s r hd hok hen => next_of_guard (by simp only [hd, hok, hen, Bool.not_false, Bool.and_self])
  case refclkCoreStartTimeout => exact fun s hp hon => next_of_guard ⟨hp, hon⟩
  case coreRelease => exact fun s hp hon => next_of_guard ⟨hp, hon⟩
  case imageSelect => exact fun s ok hon hrom => next_of_guard ⟨hon, hrom⟩
  case bootReady =>
    intro s u v w hon hload hwake hu hv hw
    rw [hw, hv, hu]
    change execBootReady s = _
    simp only [execBootReady, hon, hload, hwake, ne_eq, not_true_eq_false, Bool.true_eq_false, or_self, if_false, decide_eq_true_eq]

end Sys2Proof.Machine

/-! SUPPORT. O47: every command completes where it is well-formed, and faults where it is not. -/

namespace Sys2Proof.Machine

/-- The outcome of a command whose operands are well-formed exactly if `wf`: a next state, or the fault `illFormed`. -/
def CompletesIf (wf : Bool) (o : Out) : Prop := ∃ t : State, o = require wf (.next t)

namespace CompletesIf

theorem exists_next {o : Out} (h : CompletesIf true o) : ∃ t : State, o = .next t := h

theorem eq_fault {o : Out} (h : CompletesIf false o) : o = .fault .illFormed := h.choose_spec

theorem next {t : State} : CompletesIf true (.next t) := ⟨t, rfl⟩

theorem branch {wf : Bool} {c : Prop} [Decidable c] {a b : Out} (ha : CompletesIf wf a) (hb : CompletesIf wf b) :
    CompletesIf wf (if c then a else b) := by
  split
  · exact ha
  · exact hb

/-- The check of the operands stands in front of a body that always completes. -/
theorem checked {wf : Bool} {o : Out} (h : CompletesIf true o) : CompletesIf wf (require wf o) :=
  h.imp fun _ ht => congrArg (require wf) ht

end CompletesIf

open CompletesIf (next branch checked)

/-! ### Mailboxes -/

theorem execMailboxFrameAccess_completes (entry : Option PortNo) (f : Frame) (s : State) :
    CompletesIf f.wellFormed (execMailboxFrameAccess entry f s) :=
  checked (branch next (branch next (branch (branch next next) (branch next next))))

theorem execRemoteMailboxReceive_completes (f : Frame) (s : State) : CompletesIf f.wellFormed (execRemoteMailboxReceive f s) :=
  checked (branch next (branch next (branch next (branch next next))))

theorem execSerialBlockWrite_completes (ptr : BitVec 16) (data : List Byte) (pecOk : Bool) (s : State) :
    CompletesIf true (execSerialBlockWrite ptr data pecOk s) :=
  branch next (branch next next)

theorem execSerialSendByte_completes (pecOk : Bool) (s : State) : CompletesIf true (execSerialSendByte pecOk s) :=
  branch next (branch next next)

theorem execSerialWriteWord_completes (ptr : BitVec 16) (pecOk : Bool) (s : State) :
    CompletesIf true (execSerialWriteWord ptr pecOk s) :=
  branch next next

theorem execSerialBlockRead_completes (s : State) : CompletesIf true (execSerialBlockRead s) := branch next next

theorem execSessionLeaseExpiry_completes (mb : Mb) (s : State) : CompletesIf true (execSessionLeaseExpiry mb s) := branch next next

theorem execWeftResetEnd_completes (s : State) : CompletesIf true (execWeftResetEnd s) := branch next next

/-! ### Lanes and ports -/

theorem State.laneEvent_completes (s : State) (ln : Nat) (ok : Stage → Bool) (f : Nat → State → State) :
    CompletesIf true (s.laneEvent ln ok f) := by
  unfold State.laneEvent
  split <;> exact next

theorem execClockLaneLoss_completes (q : QuadNo) (s : State) : CompletesIf true (execClockLaneLoss q s) := by
  unfold execClockLaneLoss
  split <;> exact next

/-! ### Fault reports -/

theorem execPairChangeSeen_completes (src : BitVec 12) (s : State) : CompletesIf (sourceExists src) (execPairChangeSeen src s) :=
  checked (branch next (branch next (branch next next)))

theorem execFaultReportClassify_completes (src : BitVec 12) (code : BitVec 8) (s : State) :
    CompletesIf (errorGiven src code) (execFaultReportClassify src code s) := by
  refine checked ?_
  split
  · exact next
  · exact branch next next

theorem execPairOnlyTimeout_completes (src : BitVec 12) (s : State) : CompletesIf (sourceExists src) (execPairOnlyTimeout src s) := by
  refine checked ?_
  dsimp only
  split
  · exact next
  · exact branch next next

theorem execWireFault_completes (src : BitVec 12) (s : State) : CompletesIf (sourceExists src) (execWireFault src s) :=
  checked (branch next (branch next (branch next next)))

theorem execMergeIntervalEnd_completes (src : BitVec 12) (code : BitVec 8) (s : State) :
    CompletesIf (sourceExists src) (execMergeIntervalEnd src code s) := by
  refine checked (branch ?_ ?_)
  all_goals
    split
    · exact next
    · exact branch next next

theorem execFaultFrameReceive_completes (f : Frame) (s : State) : CompletesIf f.wellFormed (execFaultFrameReceive f s) :=
  checked (branch next (branch next next))

theorem execFencedInputCleanup_completes (pu : QuadNo) (s : State) : CompletesIf true (execFencedInputCleanup pu s) := branch next next

/-! ### Patchwork -/

theorem execPatchworkFrameReceive_completes (x : PwPort) (f : Frame) (s : State) :
    CompletesIf f.wellFormed (execPatchworkFrameReceive x f s) := by
  refine checked (branch next (branch next (branch next (branch next ?_))))
  split
  · exact next
  · split
    · exact next
    · exact branch next (branch next next)

theorem execDeviceConfigCycle_completes (x : PwPort) (reg : BitVec 8) (wr : Option (BitVec 32)) (s : State) :
    CompletesIf (decide (reg.toNat % 4 = 0)) (execDeviceConfigCycle x reg wr s) := by
  refine checked (branch next ?_)
  cases wr with
  | none => exact next
  | some v => exact branch next (branch next next)

theorem execCycleStoreLifetimeExpiry_completes (x : PwPort) (s : State) : CompletesIf true (execCycleStoreLifetimeExpiry x s) := by
  unfold execCycleStoreLifetimeExpiry
  split <;> exact next

theorem execDelayedDiscardTimeout_completes (x : PwPort) (entry : BitVec 8) (s : State) :
    CompletesIf true (execDelayedDiscardTimeout x entry s) := by
  unfold execDelayedDiscardTimeout
  split
  · exact next
  · split <;> exact next

theorem execYieldTimeout_completes (x : PwPort) (blockedNs : BitVec 32) (s : State) :
    CompletesIf true (execYieldTimeout x blockedNs s) := by
  unfold execYieldTimeout
  dsimp only
  split
  · exact next
  · exact branch next (branch next (branch next next))

theorem execPrefetchHoldExpiry_completes (x : PwPort) (buf : BitVec 5) (s : State) :
    CompletesIf true (execPrefetchHoldExpiry x buf s) := by
  unfold execPrefetchHoldExpiry
  split <;> exact next

theorem execVddHbLoss_completes (x : PwPort) (s : State) : CompletesIf true (execVddHbLoss x s) := branch next next

theorem execVddHbReturn_completes (x : PwPort) (fiveVolt : Bool) (s : State) : CompletesIf true (execVddHbReturn x fiveVolt s) :=
  branch next next

theorem execBusTimerExpiry_completes (x : PwPort) (s : State) : CompletesIf true (execBusTimerExpiry x s) := by
  refine branch next ?_
  split <;> exact next

/-! ### Slot power -/

theorem execFastTrip_completes (c : ChanNo) (s : State) : CompletesIf true (execFastTrip c s) := branch next next

theorem execRetryWaitExpiry_completes (c : ChanNo) (s : State) : CompletesIf true (execRetryWaitExpiry c s) := branch next next

/-! ### Self-test and monitors -/

theorem execBistIsolationComplete_completes (u : UnitId) (s : State) : CompletesIf (testable u) (execBistIsolationComplete u s) := by
  refine checked ?_
  split
  · exact next
  · exact branch next next

theorem execBistEngineEnd_completes (u : UnitId) (x : EngineResult) (s : State) : CompletesIf (testable u) (execBistEngineEnd u x s) := by
  refine checked ?_
  split
  · exact next
  · exact branch next next

theorem execBistNotIdleTimeout_completes (u : UnitId) (s : State) : CompletesIf (testable u) (execBistNotIdleTimeout u s) := by
  refine checked ?_
  split <;> exact next

theorem execPmonCounterWrap_completes (mon : BitVec 9) (k : BitVec 3) (cycles : BitVec 64) (ctx : BitVec 128) (s : State) :
    CompletesIf (pmonExists mon.toNat) (execPmonCounterWrap mon k cycles ctx s) :=
  checked (branch next (branch next (branch next (branch next next))))

theorem execSnapshotCapture_completes (s : State) : CompletesIf true (execSnapshotCapture s) := by
  unfold execSnapshotCapture
  split <;> exact next

/-! ### Power-on and boot -/

theorem execColdHoldCheck_completes (temp : Int) (s : State) : CompletesIf true (execColdHoldCheck temp s) := by
  refine branch next ?_
  split <;> exact next

theorem execPreheatCheck_completes (temp : Int) (s : State) : CompletesIf true (execPreheatCheck temp s) := by
  refine branch next ?_
  split <;> exact next

theorem execBootReady_completes (s : State) : CompletesIf true (execBootReady s) := branch next next

/-! ### Every command -/

/-- Row by row: the meaning of a command checks its operands as `Instr.wellFormed` says, and completes past that check.
The last case holds the rows whose meaning is one next state, behind that check or without one. -/
theorem exec_completes (i : Instr) (s : State) : CompletesIf i.wellFormed (exec i s) := by
  cases i with
  | mailboxFrameAccess entry f => exact execMailboxFrameAccess_completes entry f s
  | remoteMailboxReceive f => exact execRemoteMailboxReceive_completes f s
  | serialBlockWrite ptr data pecOk => exact execSerialBlockWrite_completes ptr data pecOk s
  | serialSendByte pecOk => exact execSerialSendByte_completes pecOk s
  | serialWriteWord ptr pecOk => exact execSerialWriteWord_completes ptr pecOk s
  | serialBlockRead => exact execSerialBlockRead_completes s
  | sessionLeaseExpiry mb => exact execSessionLeaseExpiry_completes mb s
  | weftResetEnd => exact execWeftResetEnd_completes s
  | trainingFrameReceive | fecLock | alignmentMarkerReceive | fecLockLoss | deskewLoss | lossOfSignal =>
    unfold exec
    exact State.laneEvent_completes s _ _ _
  | clockLaneLoss q => exact execClockLaneLoss_completes q s
  | pairChangeSeen src => exact execPairChangeSeen_completes src s
  | faultReportClassify src code => exact execFaultReportClassify_completes src code s
  | pairOnlyTimeout src => exact execPairOnlyTimeout_completes src s
  | wireFault src => exact execWireFault_completes src s
  | mergeIntervalEnd src code => exact execMergeIntervalEnd_completes src code s
  | faultFrameReceive f => exact execFaultFrameReceive_completes f s
  | fencedInputCleanup pu => exact execFencedInputCleanup_completes pu s
  | patchworkFrameReceive x f => exact execPatchworkFrameReceive_completes x f s
  | deviceConfigCycle x reg wr => exact execDeviceConfigCycle_completes x reg wr s
  | cycleStoreLifetimeExpiry x => exact execCycleStoreLifetimeExpiry_completes x s
  | delayedDiscardTimeout x entry => exact execDelayedDiscardTimeout_completes x entry s
  | yieldTimeout x blockedNs => exact execYieldTimeout_completes x blockedNs s
  | prefetchHoldExpiry x buf => exact execPrefetchHoldExpiry_completes x buf s
  | vddHbLoss x => exact execVddHbLoss_completes x s
  | vddHbReturn x fiveVolt => exact execVddHbReturn_completes x fiveVolt s
  | busTimerExpiry x => exact execBusTimerExpiry_completes x s
  | fastTrip c => exact execFastTrip_completes c s
  | retryWaitExpiry c => exact execRetryWaitExpiry_completes c s
  | bistIsolationComplete u => exact execBistIsolationComplete_completes u s
  | bistEngineEnd u x => exact execBistEngineEnd_completes u x s
  | bistNotIdleTimeout u => exact execBistNotIdleTimeout_completes u s
  | pmonCounterWrap mon k cycles ctx => exact execPmonCounterWrap_completes mon k cycles ctx s
  | snapshotCapture => exact execSnapshotCapture_completes s
  | coldHoldCheck temp => exact execColdHoldCheck_completes temp s
  | preheatCheck temp => exact execPreheatCheck_completes temp s
  | bootReady => exact execBootReady_completes s
  | _ => exact ⟨_, rfl⟩

/-- Settles O47: the meaning of every command is a next state behind the check `Instr.wellFormed` of its operands. -/
theorem wellFormedCommandsComplete : Obligations.WellFormedCommandsComplete := by
  unfold Obligations.WellFormedCommandsComplete
  refine ⟨fun i s hwf => ?_, fun i s hwf => ?_⟩
  · have h := exec_completes i s
    rw [hwf] at h
    exact h.exists_next
  · have h := exec_completes i s
    rw [hwf] at h
    exact h.eq_fault

end Sys2Proof.Machine

/-! SUPPORT. O4: the lane commands of group 0x02. -/

namespace Sys2Proof.Machine

/-! ### What the body of a lane command reads after the lease is renewed -/

@[simp] theorem State.begun_port (s : State) (n p : Nat) : (s.begun n).port p = s.port p := rfl
@[simp] theorem State.begun_lane (s : State) (n ln : Nat) : (s.begun n).lane ln = s.lane ln := rfl
@[simp] theorem State.begun_portOfLane (s : State) (n ln : Nat) : (s.begun n).portOfLane ln = s.portOfLane ln := rfl
@[simp] theorem State.begun_pcieLane (s : State) (n ln : Nat) : (s.begun n).pcieLane ln = s.pcieLane ln := rfl
@[simp] theorem State.begun_diagRefusal (s : State) (n p : Nat) : (s.begun n).diagRefusal p = s.diagRefusal p := rfl

/-! ### The target of a command -/

/-- A mailbox that runs a privileged command is privileged (R377). -/
theorem State.Admits.privilegedMb {s : State} {c : CmdSpec} {n pl : Nat} (h : s.Admits c n pl) (hc : c.priv = true) : privilegedMb n = true := by
  obtain ⟨-, -, -, -, -, -, -, -, hpriv, -⟩ := h
  exact hpriv hc

/-- Renewing the lease leaves what the mailbox of a command may name. -/
theorem State.Admits.mayName_begun {s : State} {c : CmdSpec} {n pl : Nat} {o : BitVec 8} (h : s.Admits c n pl) (hm : s.mayName n o = true) :
    (s.begun n).mayName n o = true := by
  obtain ⟨hbusy, -⟩ := h
  rw [State.mayName_begun hbusy, hm]

/-- A privileged mailbox may name every lane. -/
theorem State.onLane_privileged {s : State} {n ln : Nat} {k : CmdResult} (h : privilegedMb n = true) : s.onLane n ln k = k := by
  simp only [State.onLane, h, if_true]

/-- A mailbox may name the lanes of a port that it may name (R85). -/
theorem State.onLane_named {s : State} {n ln p : Nat} {k : CmdResult} (hp : s.portOfLane ln = some p) (hm : s.mayName n (s.portOwner p) = true) :
    s.onLane n ln k = k := by
  simp only [State.onLane, hp, hm, if_true, ite_self]

/-- A privileged command that names a port acts on it. -/
theorem State.Admits.onPort {s : State} {c : CmdSpec} {n pl q sub at_ p : Nat} {k : Nat → CmdResult} (h : s.Admits c n pl) (hc : c.priv = true)
    (hp : s.portNamed q sub = some p) : (s.begun n).onPort n q sub at_ k = k p :=
  State.onPort_named hp (State.mayName_privileged (h.privilegedMb hc) _)

/-! ### LANE_PRBS -/

/-- What R377 needs to know of LANE_PRBS (Table 2.18). -/
def lanePrbsSpec : CmdSpec :=
  { opcode := 0x0205, priv := true, len := fun _ => 2, fields := [(0, 9), (9, 1), (10, 2), (12, 1), (13, 1), (14, 1)],
    checks := fun pl => [(10, decide (fld pl 10 2 ≠ 3))] }

/-- The pattern, generator and checker that the payload of LANE_PRBS asks of a lane (R78). -/
def Lane.setPrbs (l : Lane) (pl : Nat) : Lane :=
  { l with prbs := fbv pl 10 2, genEn := bitOf pl 12, chkEn := bitOf pl 13, precode := bitOf pl 14, prbsSync := false, prbsRun := 0, prbsHist := [] }

/-- LANE_PRBS with a pattern and a generator or checker on sets every lane of a port that is free, or the one that it names. -/
theorem lanePrbs_on {s : State} {mb : Mb} {pl p : Nat} (h : s.Admits lanePrbsSpec mb pl) (hp : s.portOfLane (fld pl 0 9) = some p)
    (hsel : fld pl 10 2 ≠ 0) (hen : (bitOf pl 12 || bitOf pl 13) = true) (hpre : ((s.port p).pcie && bitOf pl 14) = false)
    (hfree : s.diagRefusal p = none) :
    Obeys (.lanePrbs mb) s mb ((if bitOf pl 9 then (s.begun mb).modLanes p (·.setPrbs pl)
      else (s.begun mb).modLane (fld pl 0 9) (·.setPrbs pl)).diagStage p) [] := by
  refine obeys_of h rfl ?_
  simp only [State.begun_portOfLane, State.begun_port, State.begun_diagRefusal, hp, hsel, hen, hpre, hfree, ne_eq, not_false_eq_true,
    decide_true, Bool.true_and, Bool.false_eq_true, if_false, if_true]
  rfl

/-! ### The commands together -/

/-- Settles O4: the target of every command is one that its mailbox may name, and its body there comes to the effect of its row. -/
theorem laneCommandsAct : Obligations.LaneCommandsAct := by
  unfold Obligations.LaneCommandsAct
  refine ⟨fun s mb pl h hmb => obeys_of h rfl (State.onLane_privileged hmb),
    fun s mb pl p h hp hm => obeys_of h rfl (State.onLane_named hp (h.mayName_begun hm)),
    ?laneFirSet,
    ?prbsOnOfLane,
    ?prbsOnOfPort,
    ?prbsOffOfPort,
    ?loopbackSet,
    ?loopbackCleared,
    fun s mb pl h hmb => obeys_of h rfl (State.onLane_privileged hmb),
    fun s mb pl h => obeys_of h rfl rfl⟩
  case laneFirSet =>
    intro s mb pl h hnative
    refine obeys_of h rfl ?_
    simp only [State.begun_pcieLane, hnative, Bool.false_eq_true, if_false]
    rfl
  case prbsOnOfLane =>
    intro s mb pl p h hp hsel hen hone hpre hfree
    have hon := lanePrbs_on h hp hsel hen hpre hfree
    rwa [if_neg (Bool.eq_false_iff.1 hone)] at hon
  case prbsOnOfPort =>
    intro s mb pl p h hp hsel hen hall hpre hfree
    have hon := lanePrbs_on h hp hsel hen hpre hfree
    rwa [if_pos hall] at hon
  case prbsOffOfPort =>
    intro s mb pl p h hp hsel hall htest hpre
    have hprbs : fbv pl 10 2 = 0 := BitVec.eq_of_toNat_eq (by rw [← fld_eq_fbv, hsel]; rfl)
    refine obeys_of h rfl ?_
    simp only [State.begun_portOfLane, State.begun_port, hp, hsel, hprbs, hall, htest, hpre, ne_eq, not_true_eq_false, decide_false, decide_true,
      Bool.false_and, Bool.true_or, Bool.false_eq_true, if_false, if_true]
  case loopbackSet =>
    intro s mb pl p h hp hty hfar hlead hfree
    refine obeys_of h rfl ((h.onPort rfl hp).trans ?_)
    have hok : ¬((fld pl 9 3 = 3 ∧ (s.port p).pcie = true) ∨ (fld pl 9 3 = 4 ∧ (s.port p).pcie = false)) := by
      rintro (⟨h3, hpcie⟩ | ⟨h4, hpcie⟩)
      · simp only [hfar h3, Bool.false_eq_true] at hpcie
      · simp only [hlead h4, Bool.true_eq_false] at hpcie
    simp only [State.begun_port, State.begun_diagRefusal, if_neg hok, hty, hfree, if_false]
  case loopbackCleared =>
    intro s mb pl p h hp hty hstage
    refine obeys_of h rfl ((h.onPort rfl hp).trans ?_)
    simp only [State.begun_port, hty, hstage, BitVec.ofNat_eq_ofNat, OfNat.zero_ne_ofNat, false_and, or_self, if_false, if_true]

end Sys2Proof.Machine

/-! SUPPORT. O28 and O29: the events of a port and of its lanes, each in the stage in which it acts. -/

namespace Sys2Proof.Machine

/-! ### Where an event of a port acts -/

theorem State.AtStage.stage_eq {s : State} {p : Nat} {g : Stage} (h : s.AtStage p g) : (s.port p).stage = g := h.2.2

/-- An event acts on a port in a stage if its guard picks the port (Table 2.8). -/
theorem State.AtStage.portEvent {s : State} {p : Nat} {g : Stage} {ok : Port → Bool} {f : State → State} (h : s.AtStage p g)
    (hok : ok (s.port p) = true) : s.portEvent p ok f = .next (f s) := by
  obtain ⟨hrun, hconf, -⟩ := h
  simp only [State.portEvent, hrun, hconf, hok, Bool.and_self, if_true]

/-- An event whose guard asks for one stage only acts on every port in it. -/
theorem State.AtStage.portEvent_of_stage {s : State} {p : Nat} {g : Stage} {f : State → State} (h : s.AtStage p g) :
    s.portEvent p (fun x => x.stage == g) f = .next (f s) :=
  h.portEvent (beq_iff_eq.2 h.stage_eq)

/-- An event of a lane acts on the native port that uses the lane, in a stage that its guard picks. -/
theorem State.AtStage.laneEvent {s : State} {ln p : Nat} {g : Stage} {ok : Stage → Bool} {f : Nat → State → State} (h : s.AtStage p g)
    (hl : s.portOfLane ln = some p) (hn : (s.port p).pcie = false) (hok : ok g = true) : s.laneEvent ln ok f = .next (f p s) := by
  obtain ⟨hrun, hconf, rfl⟩ := h
  simp only [State.laneEvent, hl]
  exact State.AtStage.portEvent ⟨hrun, hconf, rfl⟩ (by simp only [hn, hok, Bool.not_false, Bool.and_self])

/-! ### Bring-up -/

/-- A training control word changes its lane, and may end TRAIN, only where its CRC is correct (R67, R68). -/
theorem exec_trainingFrameReceive {s : State} {ln : LaneNo} {w : BitVec 128} {p : Nat} (hl : s.portOfLane ln = some p)
    (h : s.AtStage p .train) (hn : (s.port p).pcie = false) :
    exec (.trainingFrameReceive ln w) s = .next (if (crc16 0xFFFF w.toNat 112).toNat = fld w.toNat 112 16 then
      (s.modLane ln fun l => l.control w.toNat).trainDone p else s) := by
  change execTrainingFrameReceive ln w s = _
  rw [execTrainingFrameReceive, h.laneEvent hl hn rfl]
  simp only [controlOk, beq_iff_eq]

/-- A marker in a wrong place or with too much skew fails the attempt; another one places its lane (R59, R60). -/
theorem exec_alignmentMarkerReceive {s : State} {ln : LaneNo} {lip : BitVec 4} {a p : Nat} (hl : s.portOfLane ln = some p)
    (h : s.AtStage p .lock) (hn : (s.port p).pcie = false) :
    exec (.alignmentMarkerReceive ln lip a) s = .next (if lip.toNat / 4 ≠ ln.val / 4 - leadOf p then s.attemptDown p 0x07
      else if s.skewOk p ln a then (s.modLane ln fun l => { l with lip := lip, marker := some a }).deskew p
      else s.attemptDown p 0x06) := by
  change execAlignmentMarkerReceive ln lip a s = _
  rw [execAlignmentMarkerReceive, h.laneEvent hl hn rfl]
  cases s.skewOk p ln a <;> rfl

/-- A signal that is lost fails the attempt in each stage from TRAIN to EXCHANGE (R61). -/
theorem exec_lossOfSignal {s : State} {ln : LaneNo} {p : Nat} {g : Stage} (hl : s.portOfLane ln = some p) (h : s.AtStage p g)
    (hn : (s.port p).pcie = false) (hg : g = .train ∨ g = .lock ∨ g = .exchange) :
    exec (.lossOfSignal ln) s = .next (s.attemptDown p 0x01) := by
  have hok : (g == .train || g == .lock || g == .exchange) = true := by
    obtain rfl | rfl | rfl := hg <;> rfl
  change execLossOfSignal ln s = _
  exact h.laneEvent hl hn hok

/-- Settles O28: every event of the bring-up acts on a port in the stage that its row asks for. -/
theorem trainingEventsAct : Obligations.TrainingEventsAct := by
  unfold Obligations.TrainingEventsAct
  refine ⟨?detectAttempt,
    ?trainFailWaitEnd,
    fun s ln w p hl h hn => exec_trainingFrameReceive hl h hn,
    fun s p h => show execForwardedClockLockTimeout p s = _ from h.portEvent_of_stage,
    fun s p h => show execTrainTimeout p s = _ from h.portEvent_of_stage,
    fun s ln p hl h hn => show execFecLock ln s = _ from h.laneEvent hl hn rfl,
    fun s ln lip a p hl h hn => exec_alignmentMarkerReceive hl h hn,
    ?lockComplete,
    fun s p h => show execLockTimeout p s = _ from h.portEvent_of_stage,
    fun s ln p g hl h hn hg => exec_lossOfSignal hl h hn hg⟩
  case detectAttempt =>
    intro s p found h hw
    change execDetectAttempt p found s = _
    exact h.portEvent (by simp only [h.stage_eq, hw, beq_self_eq_true, Bool.not_false, Bool.and_self])
  case trainFailWaitEnd =>
    intro s p found h hw
    change execTrainFailWaitEnd p found s = _
    exact h.portEvent (by simp only [h.stage_eq, hw, beq_self_eq_true, Bool.and_self])
  case lockComplete =>
    intro s p h hlocked
    have hl : s.locked p = true := hlocked
    change execLockComplete p s = _
    exact h.portEvent (by simp only [h.stage_eq, hl, beq_self_eq_true, Bool.and_self])

/-! ### Retraining -/

/-- Four uncorrectable codewords lose the lane's FEC lock; past LOCK the port retrains (R62). -/
theorem exec_fecLockLoss {s : State} {ln : LaneNo} {p : Nat} {g : Stage} (hl : s.portOfLane ln = some p) (h : s.AtStage p g)
    (hn : (s.port p).pcie = false) (hg : g = .lock ∨ g = .exchange ∨ g = .active) :
    exec (.fecLockLoss ln) s = .next (if g = .lock then s.modLane ln fun l => { l with fecLock := false, cwUncorr := satAdd l.cwUncorr 4 }
      else (s.modLane ln fun l => { l with fecLock := false, cwUncorr := satAdd l.cwUncorr 4 }).retrain p rsPhy) := by
  have hok : (g == .lock || g == .exchange || g == .active) = true := by
    obtain rfl | rfl | rfl := hg <;> rfl
  change execFecLockLoss ln s = _
  rw [execFecLockLoss, h.laneEvent hl hn hok, h.stage_eq]

theorem exec_deskewLoss {s : State} {ln : LaneNo} {p : Nat} {g : Stage} (hl : s.portOfLane ln = some p) (h : s.AtStage p g)
    (hn : (s.port p).pcie = false) (hg : g = .exchange ∨ g = .active) : exec (.deskewLoss ln) s = .next (s.retrain p rsPhy) := by
  have hok : (g == .exchange || g == .active) = true := by
    obtain rfl | rfl := hg <;> rfl
  change execDeskewLoss ln s = _
  exact h.laneEvent hl hn hok

/-- A lost clock lane is reported; it retrains a port past LOCK and is remembered in LOCK (R54). -/
theorem exec_clockLaneLoss {s : State} {q : QuadNo} {p : Nat} {g : Stage} (hq : s.mainPortOfQuad q = some p) (h : s.AtStage p g)
    (hn : (s.port p).pcie = false) (hg : g = .exchange ∨ g = .active ∨ g = .lock) :
    exec (.clockLaneLoss q) s = .next (if g = .lock then
      (s.report (laneSource q) 0x02 0).modPort p fun x => { x with clockLost := true }
      else (s.report (laneSource q) 0x02 0).retrain p rsPhy) := by
  have hok : (g == .active || g == .exchange || g == .lock) = true := by
    obtain rfl | rfl | rfl := hg <;> rfl
  change execClockLaneLoss q s = _
  simp only [execClockLaneLoss, hq]
  rw [h.portEvent (by simp only [hn, h.stage_eq, hok, Bool.not_false, Bool.and_self]), h.stage_eq]

/-! ### Exchange, sleep wake and monitors -/

/-- A record is due in EXCHANGE, and in ACTIVE until a good block of another type has come (R70, R97). -/
theorem exec_exchangeRecordSend {s : State} {p : PortNo} {g : Stage} (h : s.AtStage p g)
    (hg : g = .exchange ∨ (g = .active ∧ (s.link p).sawOther = false)) :
    exec (.exchangeRecordSend p) s = .next (s.modLink p fun l => { l with recordDue := true }) := by
  change execExchangeRecordSend p s = _
  refine h.portEvent ?_
  obtain rfl | ⟨rfl, hso⟩ := hg
  · simp only [h.stage_eq, beq_self_eq_true, Bool.true_or]
  · simp only [h.stage_eq, hso, beq_self_eq_true, Bool.not_false, Bool.and_self, Bool.or_true]

/-- The alarm of a lane follows the errors of its window, and is raised and reported where it comes on (R81). -/
theorem exec_serAlarmWindow {s : State} {ln : LaneNo} {above : Bool} (hrun : s.running = true)
    (ha : above = decide ((s.lane ln).threshold ≠ 0 ∧ (s.lane ln).threshold < (s.lane ln).window)) :
    exec (.serAlarmWindow ln) s = .next (if above && !(s.lane ln).alarm then
      ((s.modLane ln fun l => { l with window := 0, alarm := above }).raise 0x0201 [(ln, 2)]
        (((s.portOfLane ln).toList).map s.portOwner)).report (laneSource (ln / 4)) 0x01 (BitVec.ofNat 64 ln)
      else s.modLane ln fun l => { l with window := 0, alarm := above }) := by
  subst ha
  exact next_of_not_guard (by simp only [hrun, Bool.true_eq_false, not_false_eq_true])

/-- An event of a port in Quad Sleep that is waking acts (R73). -/
theorem State.AtStage.portEvent_of_waking {s : State} {p : Nat} {f : State → State} (h : s.AtStage p .sleep) (hw : (s.port p).waking = true) :
    s.portEvent p (fun x => x.stage == .sleep && x.waking) f = .next (f s) :=
  h.portEvent (by simp only [h.stage_eq, hw, beq_self_eq_true, Bool.and_self])

/-- A checker that is on takes in the symbols that it is sent (R78). -/
theorem exec_prbsCheck {s : State} {ln : LaneNo} {errs : List Nat} (hrun : s.running = true) (hchk : (s.lane ln).chkEn = true)
    (herrs : (errs.all fun n => decide (n ≤ 2)) = true) :
    exec (.prbsCheck ln errs) s = .next ((s.modLane ln fun l => errs.foldl Lane.prbsSymbol l).pmon (ln / 4) 0x043 (ln % 4)
      (errs.foldl (fun (a : Lane × Nat) n => (a.1.prbsSymbol n, if a.1.prbsSync then a.2 + n else a.2)) (s.lane ln, 0)).2) := by
  change execPrbsCheck ln errs s = _
  simp only [execPrbsCheck, require, herrs, hrun, hchk, Bool.and_self, if_true]

/-! ### PCI Express links -/

theorem exec_pcieLinkDown {s : State} {p : PortNo} {training : Bool} {ltssm : BitVec 6} {g : Stage} (h : s.AtStage p g)
    (hp : (s.port p).pcie = true) (hg : g = .pcieTraining ∨ g = .pcieL0 ∨ g = .pcieL1) :
    exec (.pcieLinkDown p training ltssm) s = .next ((s.modPort p fun x =>
      { x with ltssm := ltssm, hotReset := false, lastFail := if training then 0x0C else x.lastFail }).goDown p .pcieTraining rsPhy
        (if training then 0x0C else 0)) := by
  have hok : (g == .pcieTraining || g == .pcieL0 || g == .pcieL1) = true := by
    obtain rfl | rfl | rfl := hg <;> rfl
  change execPcieLinkDown p training ltssm s = _
  exact h.portEvent (by simp only [hp, h.stage_eq, hok, Bool.and_self])

/-- A port whose store is empty comes up from link training, at a width and a rate that PCI Express has (R76, R177). -/
theorem exec_pcieLinkUp {s : State} {p : PortNo} {width : BitVec 5} {rate : BitVec 3} {ltssm : BitVec 6} {host : Bool}
    (h : s.AtStage p .pcieTraining) (hp : (s.port p).pcie = true) (hstore : s.storeCells p = 0)
    (hwidth : width.toNat ∈ [1, 2, 4, 8, 16]) (hrate : rate.toNat ≤ 5) :
    exec (.pcieLinkUp p width rate ltssm host) s =
      .next (((s.partnerChange p fun s => s.pcieUp p width rate ltssm host).resetWoken p).checkLapses) := by
  change execPcieLinkUp p width rate ltssm host s = _
  unfold execPcieLinkUp
  rw [decide_eq_true ⟨hwidth, hrate⟩]
  rw [require, if_pos rfl]
  exact h.portEvent (by simp only [hp, h.stage_eq, hstore, beq_self_eq_true, decide_true, Bool.and_self])

/-- Settles O29: every one of these events acts on a port in a stage that its row asks for. -/
theorem retrainEventsAct : Obligations.RetrainEventsAct := by
  unfold Obligations.RetrainEventsAct
  refine ⟨fun s ln p g hl h hn hg => exec_fecLockLoss hl h hn hg,
    fun s ln p g hl h hn hg => exec_deskewLoss hl h hn hg,
    fun s q p g hq h hn hg => exec_clockLaneLoss hq h hn hg,
    fun s p h => show execRetrainSignalReceive p s = _ from h.portEvent_of_stage,
    fun s p g h hg => exec_exchangeRecordSend h hg,
    ?exchangeBlockReceive,
    fun s p h => show execExchangeTimeout p s = _ from h.portEvent_of_stage,
    fun s ln above hrun ha => exec_serAlarmWindow hrun ha,
    fun s p h hw => show execFastRetrainTimeout p s = _ from h.portEvent_of_waking hw,
    fun s p h hw => show execFastRetrainComplete p s = _ from h.portEvent_of_waking hw,
    ?prbsCheck,
    fun s p training ltssm g h hp hg => exec_pcieLinkDown h hp hg,
    fun s p width rate ltssm host h hp hstore hwidth hrate => exec_pcieLinkUp h hp hstore hwidth hrate⟩
  case exchangeBlockReceive =>
    rintro s p pl r h rfl
    change execExchangeBlockReceive p pl s = _
    exact h.portEvent_of_stage
  case prbsCheck =>
    rintro s ln errs a hrun hchk herrs rfl
    exact exec_prbsCheck hrun hchk herrs

end Sys2Proof.Machine

/-! SUPPORT. O5 and O31: the commands of group 0x03, and the timers and tables of a link. -/

namespace Sys2Proof.Machine

@[simp] theorem State.begun_link (s : State) (n p : Nat) : (s.begun n).link p = s.link p := rfl

/-! ### The link-layer commands -/

/-- A query that names a port acts on it where its mailbox may name the owner of the port (R85). -/
theorem State.Admits.onPort_owned {s : State} {c : CmdSpec} {n pl q sub at_ p : Nat} {k : Nat → CmdResult} (h : s.Admits c n pl)
    (hp : s.portNamed q sub = some p) (hm : s.mayName n (s.portOwner p) = true) : (s.begun n).onPort n q sub at_ k = k p :=
  State.onPort_named hp (h.mayName_begun hm)

/-- A privileged command that names a native port acts on it. -/
theorem State.Admits.onNative {s : State} {c : CmdSpec} {n pl q at_ p : Nat} {k : Nat → CmdResult} (h : s.Admits c n pl) (hc : c.priv = true)
    (hp : s.portNamed q 0 = some p) (hn : (s.port p).pcie = false) : (s.begun n).onNative n q at_ k = k p :=
  State.onNative_named hp (State.mayName_privileged (h.privilegedMb hc) _) hn

/-- Settles O5: every command acts on the port that its payload names, and passes the checks of its own body there. -/
theorem linkCommandsAct : Obligations.LinkCommandsAct := by
  unfold Obligations.LinkCommandsAct
  refine ⟨?linkConfig, ?linkCreditSet, ?linkQuery,
    fun s mb pl p h hp hm => obeys_of h rfl (h.onPort_owned hp hm),
    ?linkErrorInject⟩
  case linkConfig =>
    intro s mb pl p h hp hpcie
    refine obeys_of h rfl ((h.onPort rfl hp).trans ?_)
    simp only [State.begun_port, hpcie, Bool.false_eq_true, if_false]
  case linkCreditSet =>
    rintro s mb pl p _ h hp hn rfl hfit hvc6 hvc7
    refine obeys_of h rfl ((h.onNative rfl hp hn).trans ?_)
    simp only [State.begun_port, if_neg (Nat.not_lt.2 hfit), if_neg (Nat.not_lt.2 hvc6), if_neg (Nat.not_lt.2 hvc7)]
  case linkQuery =>
    rintro s mb pl p _ _ h hp hm rfl rfl
    exact obeys_of h rfl (h.onPort_owned hp hm)
  case linkErrorInject =>
    intro s mb pl p h hp hactive
    refine obeys_of h rfl ((h.onPort rfl hp).trans ?_)
    simp only [State.begun_port, hactive, ne_eq, not_true_eq_false, if_false]

/-! ### Timers of a link in ACTIVE -/

/-- The replay timer asks for the oldest block of U again (R106). -/
theorem exec_replayTimerExpiry {s : State} {p : PortNo} {b : TxData} {l : List TxData} (h : s.AtStage p .active)
    (ht : (s.link p).timerOn = true) (hu : (s.link p).u = b :: l) :
    exec (.replayTimerExpiry p) s = .next ((s.pmon (leadOf p) 0x069 0 1).requeue p b.seq .timer) := by
  change execReplayTimerExpiry p s = _
  rw [execReplayTimerExpiry, h.portEvent (by simp only [h.stage_eq, ht, beq_self_eq_true, Bool.and_self]), hu]

/-- A port to which no SYNC comes after a retrain retrains again, and its link goes down the second time in a row (R117). -/
theorem exec_syncTimeout {s : State} {p : PortNo} (h : s.AtStage p .active) (hs : (s.link p).awaitSync = true) :
    exec (.syncTimeout p) s = .next (if (s.link p).syncTimeouts = 0 then (s.modLink p fun l => { l with syncTimeouts := 1 }).retrain p rsSyncTimeout
      else s.goDown p .detect rsSyncTimeout 0) := by
  change execSyncTimeout p s = _
  exact h.portEvent (by simp only [h.stage_eq, hs, beq_self_eq_true, Bool.and_self])

/-- A link on which no block but EXCHANGE records arrives goes down (R97). -/
theorem exec_firstBlockTimeout {s : State} {p : PortNo} (h : s.AtStage p .active) (ho : (s.link p).sawOther = false) :
    exec (.firstBlockTimeout p) s = .next (s.goDown p .detect rsProtocol 0) := by
  change execFirstBlockTimeout p s = _
  exact h.portEvent (by simp only [h.stage_eq, ho, beq_self_eq_true, Bool.not_false, Bool.and_self])

/-! ### Outstanding requests -/

/-- The request that expires leaves the table of its port and is counted (R121). -/
theorem exec_npExpiry {s : State} {p : PortNo} {req : Geid} {tag : BitVec 12} {g : Stage} {o : OutReq} (h : s.AtStage p g)
    (ho : (s.link p).outReqs.find? (fun o => decide (o.requester = req ∧ o.tag = tag)) = some o) :
    exec (.npExpiry p req tag) s = .next (((s.instFall p req tag).modLink p fun l => { l with outReqs := l.outReqs.erase o }).countLink p fun c =>
      { c with npExpired := inc48 c.npExpired }) := by
  change execNpExpiry p req tag s = _
  rw [execNpExpiry, h.portEvent rfl]
  simp only [ho]

/-! ### Quad Sleep -/

/-- A port with an IDLE_SLEEP limit requests entry to Quad Sleep at its end (R471). -/
theorem exec_idleSleepTimeout {s : State} {p : PortNo} (h : s.AtStage p .active) (hn : (s.port p).pcie = false)
    (hi : (s.link p).sleep.idleUs ≠ 0) : exec (.idleSleepTimeout p) s = .next (s.modLink p Link.sleepRequest) := by
  change execIdleSleepTimeout p s = _
  exact h.portEvent (by simp only [hn, h.stage_eq, hi, ne_eq, not_false_eq_true, decide_true, beq_self_eq_true, Bool.not_false, Bool.and_self])

/-- An entry under way for which no SLEEP_GO has come is abandoned and counted (R471). -/
theorem exec_sleepAnswerTimeout {s : State} {p : PortNo} (h : s.AtStage p .active)
    (hb : ((s.link p).sleep.reqSent || (s.link p).sleep.ackSent) = true) (hg : (s.link p).sleep.goRcvd = false) :
    exec (.sleepAnswerTimeout p) s =
      .next (s.modLink p fun l => { l with sleep := { l.sleep.resume with abandoned := inc48 l.sleep.abandoned } }) := by
  have hbusy : (s.link p).sleep.busy = true := hb
  change execSleepAnswerTimeout p s = _
  exact h.portEvent (by simp only [h.stage_eq, hbusy, hg, beq_self_eq_true, Bool.not_false, Bool.and_self])

/-- A wake pulse on the clock lane of a port in Quad Sleep wakes it (R473). -/
theorem exec_wakePulseDetect {s : State} {p : PortNo} (h : s.AtStage p .sleep) (hn : (s.port p).pcie = false) :
    exec (.wakePulseDetect p) s = .next (s.modPort p fun x => { x with waking := true }) := by
  change execWakePulseDetect p s = _
  rw [execWakePulseDetect, h.portEvent (by simp only [hn, h.stage_eq, beq_self_eq_true, Bool.not_false, Bool.and_self]), State.wakePort,
    if_pos h.stage_eq]

/-- Work for a port wakes it from Quad Sleep; a port that has sent SLEEP_GO wakes once it sleeps (R473). -/
theorem exec_sleepWake {s : State} {p : PortNo} {g : Stage} (h : s.AtStage p g) (hn : (s.port p).pcie = false) :
    exec (.sleepWake p) s = .next (if g = .sleep then s.modPort p fun x => { x with waking := true } else if (s.link p).sleep.goSent then
      s.modLink p fun l => { l with sleep := { l.sleep with wakePending := true } } else s) := by
  change execSleepWake p s = _
  rw [execSleepWake, h.portEvent (by simp only [hn, Bool.not_false]), State.wakePort, h.stage_eq]

/-- Settles O31: every one of these events acts on a port in the stage that its row asks for, those of R123 and of the back-off in any stage. -/
theorem linkTimersAct : Obligations.LinkTimersAct := by
  unfold Obligations.LinkTimersAct
  exact ⟨fun s p b l h ht hu => exec_replayTimerExpiry h ht hu,
    fun s p h hs => exec_syncTimeout h hs,
    fun s p h ho => exec_firstBlockTimeout h ho,
    fun s p g h => show execLinkUpHoldoffEnd p s = _ from h.portEvent rfl,
    fun s p req tag g o h ho => exec_npExpiry h ho,
    fun s p h hn hi => exec_idleSleepTimeout h hn hi,
    fun s p h hb hg => exec_sleepAnswerTimeout h hb hg,
    fun s p g h => show execSleepNakBackoffEnd p s = _ from h.portEvent rfl,
    fun s p h hn => exec_wakePulseDetect h hn,
    fun s p g h hn => exec_sleepWake h hn⟩

end Sys2Proof.Machine

/-! SUPPORT. O51: what the headers of frames and of commands carry, and the blocks of a frame. -/

namespace Sys2Proof.Machine

/-! ### Fields of a structure by their place -/

/-- The field at place `i` of a structure stands above the widths `ws` of those before it. -/
theorem fbv_packBits_at {l : List (Nat × Nat)} {ws : List Nat} (hws : l.map Prod.snd = ws) {i v w lo : Nat} (h : l[i]? = some (v, w))
    (hlo : (ws.take i).sum = lo) : fbv (packBits l) lo w = BitVec.ofNat w v := by
  subst hws hlo
  induction l generalizing i with
  | nil => simp at h
  | cons e r ih =>
    cases i with
    | zero =>
      obtain rfl : e = (v, w) := by simpa using h
      exact fbv_packBits_head v w r
    | succ i =>
      rw [List.map_cons, List.take_succ_cons, List.sum_cons, fbv_packBits_cons e.1 e.2 r _ w (Nat.le_add_right _ _), Nat.add_sub_cancel_left]
      exact ih (by simpa using h)

theorem fld_packBits_at {l : List (Nat × Nat)} {ws : List Nat} (hws : l.map Prod.snd = ws) {i v w lo : Nat} (h : l[i]? = some (v, w))
    (hlo : (ws.take i).sum = lo) (hv : v < 2 ^ w) : fld (packBits l) lo w = v := by
  rw [fld_eq_fbv, fbv_packBits_at hws h hlo, BitVec.toNat_ofNat, Nat.mod_eq_of_lt hv]

theorem bitOf_packBits_at {l : List (Nat × Nat)} {ws : List Nat} (hws : l.map Prod.snd = ws) {i lo : Nat} {b : Bool}
    (h : l[i]? = some (b2n b, 1)) (hlo : (ws.take i).sum = lo) : bitOf (packBits l) lo = b := by
  have hbit : bitOf (packBits l) lo = (fbv (packBits l) lo 1).getLsbD 0 := by
    simp only [bitOf, fbv, BitVec.getLsbD_ofNat, Nat.testBit_shiftRight, Nat.add_zero, Nat.lt_one_iff, decide_true, Bool.true_and]
  rw [hbit, fbv_packBits_at hws h hlo]
  cases b <;> rfl

/-- A structure whose widths add up to `n` bytes is a number of `n` bytes. -/
theorem packBits_lt_of_widths {l : List (Nat × Nat)} {ws : List Nat} (hws : l.map Prod.snd = ws) {n : Nat} (hn : ws.sum = 8 * n) :
    packBits l < 256 ^ n := by
  have hlt := packBits_lt l
  rwa [hws, hn, Nat.pow_mul] at hlt

end Sys2Proof.Machine

namespace Sys2Proof
open Sys2Proof.Machine

/-! ### The frame header (Table 4.2) -/

/-- The fields of Table 4.2 with their widths. -/
def Hdr.fields (h : Hdr) : List (Nat × Nat) :=
  [(h.dst.toNat, 20), (h.src.toNat, 20), (h.type.toNat, 6), (h.cls.toNat, 3), (h.tag.toNat, 12), (b2n h.poison, 1), (h.colour.toNat, 2),
    (h.length.toNat, 13), (h.part.toNat, 8), (h.inst.toNat, 12), (h.epoch.toNat, 2), (h.hops.toNat, 5), (h.status.toNat, 4),
    (h.subtype.toNat, 8), (0, 12), (h.addr.toNat, 64), (h.tw.toNat, 64)]

/-- The widths of Table 4.2; place 14 is the reserved field. -/
def hdrWidths : List Nat := [20, 20, 6, 3, 12, 1, 2, 13, 8, 12, 2, 5, 4, 8, 12, 64, 64]

theorem Hdr.toNat_eq (h : Hdr) : h.toNat = packBits h.fields := rfl

theorem Hdr.fields_widths (h : Hdr) : h.fields.map Prod.snd = hdrWidths := rfl

/-- A field of the header is read from the number at the field's place. -/
theorem Hdr.fbv_toNat (h : Hdr) (i lo : Nat) {w : Nat} (x : BitVec w) (hi : h.fields[i]? = some (x.toNat, w))
    (hlo : (hdrWidths.take i).sum = lo) : fbv h.toNat lo w = x := by
  rw [h.toNat_eq, fbv_packBits_at h.fields_widths hi hlo, BitVec.ofNat_toNat, BitVec.setWidth_eq]

theorem Hdr.bitOf_toNat (h : Hdr) : bitOf h.toNat 61 = h.poison := bitOf_packBits_at h.fields_widths (i := 5) rfl rfl

theorem Hdr.ofNat_toNat (h : Hdr) : Hdr.ofNat h.toNat = h := by
  unfold Hdr.ofNat
  rw [h.fbv_toNat 0 0 h.dst rfl rfl, h.fbv_toNat 1 20 h.src rfl rfl, h.fbv_toNat 2 40 h.type rfl rfl, h.fbv_toNat 3 46 h.cls rfl rfl,
    h.fbv_toNat 4 49 h.tag rfl rfl, h.bitOf_toNat, h.fbv_toNat 6 62 h.colour rfl rfl, h.fbv_toNat 7 64 h.length rfl rfl,
    h.fbv_toNat 8 77 h.part rfl rfl, h.fbv_toNat 9 85 h.inst rfl rfl, h.fbv_toNat 10 97 h.epoch rfl rfl, h.fbv_toNat 11 99 h.hops rfl rfl,
    h.fbv_toNat 12 104 h.status rfl rfl, h.fbv_toNat 13 108 h.subtype rfl rfl, h.fbv_toNat 15 128 h.addr rfl rfl,
    h.fbv_toNat 16 192 h.tw rfl rfl]

theorem Hdr.toNat_lt (h : Hdr) : h.toNat < 256 ^ 32 := packBits_lt_of_widths h.fields_widths rfl

/-- The first 32 bytes of a frame spell its header. -/
theorem Frame.natOf_take_bytes (f : Frame) : natOf (f.bytes.take 32) = f.hdr.toNat := by
  rw [Frame.bytes, List.take_left' (bytesOf_length 32 _), natOf_bytesOf, Nat.mod_eq_of_lt f.hdr.toNat_lt]

end Sys2Proof

namespace Sys2Proof.Machine

/-! ### Blocks (R92) -/

/-- The blocks of a frame are the least number that holds its header and payload. -/
theorem blocksFor_least (len : Nat) : 32 + len ≤ 240 * blocksFor len ∧ 240 * blocksFor len < 32 + len + 240 := by
  unfold blocksFor ceilDiv
  omega

theorem blocksFor_le {len : Nat} (h : len ≤ 4096) : blocksFor len ≤ 18 := by
  have hlt := (blocksFor_least len).2
  omega

/-! ### The command header (Table 11.4) -/

/-- A number that a mailbox holds from its first byte is read back. -/
theorem cellsNat_cellsWrite_bytesOf {n v : Nat} (h : v < 256 ^ n) : cellsNat (cellsWrite [] 0 (bytesOf n v)) 0 n = v := by
  rw [cellsNat_eq _ _ _ (cellsWrite_wf _ _ _ rfl), cellsRead_cellsWrite _ _ _ (by simp), List.drop_zero,
    List.take_of_length_le (by simp), natOf_bytesOf, Nat.mod_eq_of_lt h]

/-- The fields of Table 11.4 with their widths, the reserved ones 0. -/
def cmdHdrFields (op tag len session : Nat) (dry : Bool) : List (Nat × Nat) :=
  [(op, 16), (tag, 16), (len, 12), (0, 4), (b2n dry, 1), (0, 15), (session, 32), (0, 32)]

/-- The widths of Table 11.4. -/
def cmdHdrWidths : List Nat := [16, 16, 12, 4, 1, 15, 32, 32]

theorem cmdHdrFields_widths (op tag len session : Nat) (dry : Bool) : (cmdHdrFields op tag len session dry).map Prod.snd = cmdHdrWidths := rfl

theorem packBits_cmdHdrFields {op tag len session : Nat} (dry : Bool) (hop : op < 2 ^ 16) (htag : tag < 2 ^ 16) (hlen : len < 2 ^ 12)
    (hses : session < 2 ^ 32) :
    packBits (cmdHdrFields op tag len session dry) = op + tag * 2 ^ 16 + len * 2 ^ 32 + b2n dry * 2 ^ 48 + session * 2 ^ 64 := by
  have hdry : b2n dry < 2 ^ 1 := by cases dry <;> decide
  simp only [cmdHdrFields, packBits, Nat.mod_eq_of_lt hop, Nat.mod_eq_of_lt htag, Nat.mod_eq_of_lt hlen, Nat.mod_eq_of_lt hses,
    Nat.mod_eq_of_lt hdry, Nat.zero_mod]
  omega

/-- The command header is read from CMD at the places of Table 11.4. -/
theorem cmdHdr_of_cmdHdrFields {m : Mailbox} {op tag len session : Nat} {dry : Bool} (hop : op < 2 ^ 16) (hlen : len < 2 ^ 12)
    (hcmd : m.cmd = cellsWrite [] 0 (bytesOf 16 (packBits (cmdHdrFields op tag len session dry)))) :
    m.cmdHdr = { opcode := op, tag := BitVec.ofNat 16 tag, length := len, dryRun := dry, reserved := false, session := BitVec.ofNat 32 session } := by
  have hws := cmdHdrFields_widths op tag len session dry
  have hv : cellsNat m.cmd 0 16 = packBits (cmdHdrFields op tag len session dry) := by
    rw [hcmd, cellsNat_cellsWrite_bytesOf (packBits_lt_of_widths hws rfl)]
  simp only [Mailbox.cmdHdr, hv, fld_packBits_at hws (i := 0) (lo := 0) rfl rfl hop, fbv_packBits_at hws (i := 1) (lo := 16) rfl rfl,
    fld_packBits_at hws (i := 2) (lo := 32) rfl rfl hlen, fld_packBits_at hws (i := 3) (lo := 44) rfl rfl (Nat.two_pow_pos 4),
    bitOf_packBits_at hws (i := 4) (lo := 48) (b := dry) rfl rfl, fld_packBits_at hws (i := 5) (lo := 49) rfl rfl (Nat.two_pow_pos 15),
    fbv_packBits_at hws (i := 6) (lo := 64) rfl rfl, fld_packBits_at hws (i := 7) (lo := 96) rfl rfl (Nat.two_pow_pos 32),
    ne_eq, not_true_eq_false, or_self, decide_false]

/-- Settles O51: a field of a packed header is read back at its place, and the bytes of frame and mailbox spell the packed number. -/
theorem headerRoundTrip : Obligations.HeaderRoundTrip := by
  unfold Obligations.HeaderRoundTrip
  refine ⟨Hdr.ofNat_toNat, ?frameBytes, fun len h => ⟨(blocksFor_least len).1, (blocksFor_least len).2, blocksFor_le h⟩, ?cmdHdr⟩
  case frameBytes =>
    intro f
    rw [Frame.natOf_take_bytes, Hdr.ofNat_toNat]
  case cmdHdr =>
    intro m op tag len session dry hop htag hlen hses hcmd
    rw [← packBits_cmdHdrFields dry hop htag hlen hses] at hcmd
    exact cmdHdr_of_cmdHdrFields hop hlen hcmd

end Sys2Proof.Machine

/-! SUPPORT. O6 and O7: the commands of group 0x04. -/

namespace Sys2Proof.Machine

/-! ### What the body of a fabric command reads after the lease is renewed -/

@[simp] theorem State.begun_busyTable (s : State) (n : Nat) (l : List TableKind) : (s.begun n).busyTable l = s.busyTable l := rfl

/-! ### The tables -/

/-- The entry of ENDPOINT_WRITE by its KIND (Table 4.13). -/
theorem EndpointEntry.ofBits_eq (pl : Nat) : EndpointEntry.ofBits pl =
    if fld pl 8 3 = 1 then .port (fld pl 11 8) (fld pl 19 1) else if fld pl 8 3 = 2 then .internal (fld pl 20 4) else .unassigned := by
  unfold EndpointEntry.ofBits
  split
  case h_1 h => rw [if_pos h]
  case h_2 h => rw [h, if_neg (by decide), if_pos rfl]
  case h_3 h1 h2 => rw [if_neg h1, if_neg h2]

/-- Settles O6: every command of the tables passes the checks of its own body and comes to the effect of its row. -/
theorem tableCommandsAct : Obligations.TableCommandsAct := by
  unfold Obligations.TableCommandsAct
  refine ⟨fun s mb pl h hm => obeys_of h rfl (if_neg (ne_false_of_eq_true hm)),
    fun s mb pl h hm => obeys_of h rfl (if_neg (ne_false_of_eq_true hm)),
    fun s mb pl h => obeys_of h rfl rfl,
    ?endpointWrite,
    ?tableCommit,
    fun s mb pl h => obeys_of h rfl rfl,
    ?epochWait,
    ?tableRead⟩
  case endpointWrite =>
    intro s mb pl h
    rw [← EndpointEntry.ofBits_eq]
    exact obeys_of h rfl rfl
  case tableCommit =>
    intro s mb pl k l h hl hfree
    have ht : tablesOf (fld pl 0 5) = k :: l := hl
    refine obeys_of h rfl ?_
    simp only [ht, State.begun_busyTable, hfree]
  case epochWait =>
    rintro s mb pl _ _ h rfl rfl
    exact obeys_of h rfl rfl
  case tableRead =>
    rintro s mb pl _ _ h rfl rfl
    exact obeys_of h rfl rfl

/-! ### Configuration, discovery, time and counters -/

/-- A privileged mailbox may name every PU. -/
theorem State.onPu_privileged {s : State} {n pu : Nat} {k : CmdResult} (h : privilegedMb n = true) : s.onPu n pu k = k := by
  simp only [State.onPu, h, Bool.true_or, if_true]

/-- Settles O7: every command acts on the fields, or on the port or PU, that its payload names. -/
theorem fabricCommandsAct : Obligations.FabricCommandsAct := by
  unfold Obligations.FabricCommandsAct
  refine ⟨?fabricConfig,
    fun s mb pl p h hp hm => obeys_of h rfl (h.onPort_owned hp hm),
    ?topologyQuery,
    ?timeConfig,
    ?timeConfigOfPort,
    fun s mb pl h => obeys_of h rfl rfl,
    ?countersRead,
    fun s mb pl p h hp => obeys_of h rfl (h.onPort rfl hp)⟩
  case fabricConfig =>
    rintro s mb pl _ h hidle rfl
    exact obeys_of h rfl (if_neg (Bool.eq_false_iff.1 hidle))
  case topologyQuery =>
    rintro s mb pl _ h rfl
    exact obeys_of h rfl rfl
  case timeConfig =>
    intro s mb pl h hport
    exact obeys_of h rfl (if_neg (Bool.eq_false_iff.1 hport))
  case timeConfigOfPort =>
    intro s mb pl p h hport hp hn
    exact obeys_of h rfl ((if_pos hport).trans (h.onNative rfl hp hn))
  case countersRead =>
    rintro s mb pl _ h hmb rfl
    exact obeys_of h rfl (State.onPu_privileged hmb)

end Sys2Proof.Machine

/-! SUPPORT. O33: fabric time. -/

namespace Sys2Proof.Machine

/-- A native port with its link up sends the present time (R162). -/
theorem exec_timeSyncExchange {s : State} {p : PortNo} (hrun : s.firmwareRuns = true) (hn : (s.port p).pcie = false)
    (hup : (s.port p).linkUp = true) : exec (.timeSyncExchange p) s = .next (s.sendLocal p 2 (Config.timeBytes s.fabNs)) :=
  next_of_guard (by simp only [hrun, hn, hup, Bool.not_false, Bool.and_self])

/-- A time message adds a delay and an offer, and steers fabric time where it comes from the source (R163). -/
theorem exec_timeMessageReceive {s u v : State} {p : PortNo} {m : TimeMsg} (hrun : s.firmwareRuns = true) (hu : u = s.takeLocal p 2)
    (hn : (u.port p).pcie = false) (hup : (u.port p).linkUp = true)
    (hv : v = (u.modTime fun t =>
      { t with delays := Tab.mod [] t.delays p fun l => (((m.t4 - m.t1) - (m.t3 - m.t2)) / 2 :: l).take 16
               offers := Tab.put none t.offers p (some (m.gmPrio, m.gmId, m.hops)) }).chooseSource)
    {err : Int} (herr : err = (m.timeNs : Int) * 1000 + (mean (Tab.get [] v.fabric.time.delays p) - Tab.get 0 v.fabric.time.asym p) - (v.fabNs : Int) * 1000) :
    exec (.timeMessageReceive p m) s = .next (if v.fabric.time.source = some p.val then
      ((v.steer err).passSnapshot v.fabNs).setTimeState (timeStateAfter v.fabric.time.state err) else v) := by
  subst hu herr hv
  exact next_of_guard (by simp only [hrun, hn, hup, Bool.not_false, Bool.and_self])

/-- The second that a PPS_IN edge marks is the one preset, or the nearest (R164). -/
theorem State.ppsSecond_eq (s : State) : s.ppsSecond =
    (s.fabric.time.presetSec.map fun n => n.toNat * 1000000000).getD ((s.fabNs + 500000000) / 1000000000 * 1000000000) := by
  unfold State.ppsSecond
  cases s.fabric.time.presetSec with
  | none => rw [Option.map_none, Option.getD_none]
  | some n => rw [Option.map_some, Option.getD_some]

/-- A PPS_IN edge steers the time of a grandmaster with PPS_IN enabled to the second that it marks (R164). -/
theorem exec_ppsInEdge_steers {s u : State} (hu : u = s.wake 3) (hrun : u.running = true) (hen : u.fabric.time.ppsInEn = true)
    (hgm : u.isGm = true) {err : Int} (herr : err = ((u.ppsSecond : Int) - (u.fabNs : Int)) * 1000) :
    exec .ppsInEdge s = .next ((((u.modTime fun t => { t with presetSec := none }).steer err).passSnapshot u.fabNs).setTimeState
      (timeStateAfter u.fabric.time.state err)) := by
  subst hu herr
  exact next_of_guard (by simp only [hrun, hen, hgm, Bool.and_self])

/-- Settles O33: every event acts where the core die runs; the edge of PPS_IN wakes first (R476), and reads what it then finds. -/
theorem timeEventsAct : Obligations.TimeEventsAct := by
  unfold Obligations.TimeEventsAct
  refine ⟨fun s p hrun hn hup => exec_timeSyncExchange hrun hn hup,
    fun s p m u v err hrun hu hn hup hv herr => exec_timeMessageReceive hrun hu hn hup hv herr,
    ?ppsInEdgeSteers, ?ppsInEdgeOnlyWakes,
    fun s hrun => next_of_guard hrun⟩
  case ppsInEdgeSteers =>
    intro s u err hu hrun hen hgm herr
    rw [← State.ppsSecond_eq] at herr
    exact exec_ppsInEdge_steers hu hrun hen hgm herr
  case ppsInEdgeOnlyWakes =>
    rintro s _ rfl hidle
    exact next_of_not_guard (Bool.eq_false_iff.1 hidle)

end Sys2Proof.Machine

/-! SUPPORT. O36: the work of the Jugglers, the doorbells and completions of the mover, and the resets of instances. -/

namespace Sys2Proof.Machine

/-! ### The choice of work (R279, R280) -/

/-- A Juggler tries its five kinds of work in order, and does the first that it has. -/
theorem State.jugglerStep_eq (s : State) (j : Nat) : s.jugglerStep j =
    (((s.stepSynth j).map fun t => t.countStep j 1).orElse fun _ => ((s.stepAer j).map fun t => t.countStep j 2).orElse fun _ =>
      ((s.stepBridge j).map fun t => t.countStep j 3).orElse fun _ => ((s.stepConfig j).map fun t => t.countStep j 4).orElse fun _ =>
      (s.stepMover j).map fun t => t.countStep j 5).getD s := by
  unfold State.jugglerStep
  cases s.stepSynth j with
  | some t => rfl
  | none =>
    cases s.stepAer j with
    | some t => rfl
    | none =>
      cases s.stepBridge j with
      | some t => rfl
      | none =>
        cases s.stepConfig j with
        | some t => rfl
        | none => cases s.stepMover j <;> rfl

/-- A Juggler that is in service does its work once the ends that wait have been tried (R281). -/
theorem exec_jugglerStep {s : State} {j : JugglerNo} (hrun : s.running = true) (hok : s.jugglerOk j.val = true) :
    exec (.jugglerStep j) s = .next ((s.retryEnds (j.val / 4)).jugglerStep j.val) :=
  next_of_guard (by simp only [hrun, hok, Bool.and_self])

/-! ### Doorbells (R288) -/

/-- A doorbell that stands in no inbox takes the place of the next lookup. -/
theorem exec_moverDoorbell {s : State} {f : Frame} (hwf : f.wellFormed = true) (hrun : s.running = true) (hk : f.hdr.kind ≠ .completion)
    (hin : s.inboxFrame 2 f = none) : exec (.moverDoorbell f) s = .next (s.doorbell f s.car.lookups) := by
  change execMoverDoorbell f s = _
  simp only [execMoverDoorbell, require, hwf, hrun, hk, hin, ne_eq, not_false_eq_true, decide_true, Bool.and_self, if_true]

/-- A doorbell of the ring's owner, of the right form and in order, moves TAIL. -/
theorem State.doorbell_moves {s : State} {f : Frame} {r : MoverRing} {order : Nat} (hr : s.moverRing (f.hdr.addr.toNat / 8) = some r)
    (hty : f.hdr.type = tyMemWrite) (haddr : f.hdr.addr.toNat % 8 = 0) (hlen : f.hdr.length = 4) (hpart : f.hdr.part = s.ringOwner r)
    (hst : r.state ≠ .disabled) (htail : natOf f.payload % 32768 < 2 ^ r.n) (hpoison : f.hdr.poison = false) (hord : r.doorbell ≤ order) :
    s.doorbell f order =
      s.modMover (f.hdr.addr.toNat / 8) fun r => { r with tail := natOf f.payload % 32768, doorbell := order } := by
  have hok : ¬(f.hdr.type ≠ tyMemWrite ∨ f.hdr.addr.toNat % 8 ≠ 0 ∨ f.hdr.length ≠ 4 ∨ f.hdr.part ≠ s.ringOwner r ∨ r.state = .disabled ∨
      2 ^ r.n ≤ natOf f.payload % 32768) := by
    rintro (h | h | h | h | h | h)
    · exact h hty
    · exact h haddr
    · exact h hlen
    · exact h hpart
    · exact hst h
    · exact Nat.not_le.2 htail h
  have hnew : ¬(f.hdr.poison = true ∨ order < r.doorbell) := by
    rintro (h | h)
    · exact ne_false_of_eq_true h hpoison
    · exact Nat.not_lt.2 hord h
  simp only [State.doorbell, hr, if_neg hok, if_neg hnew]

/-- A doorbell of no ring is denied and counted. -/
theorem State.doorbell_denied {s : State} {f : Frame} {order : Nat} (hr : s.moverRing (f.hdr.addr.toNat / 8) = none) :
    s.doorbell f order = s.modJug fun x => { x with moverDbDeny := inc48 x.moverDbDeny } := by
  simp only [State.doorbell, hr]

/-! ### Completions (R294) -/

/-- A completion that stands in no inbox is taken as it is. -/
theorem exec_moverCompletionReceive {s : State} {f : Frame} (hwf : f.wellFormed = true) (hrun : s.running = true)
    (hk : f.hdr.kind = .completion) (hin : s.inboxFrame 2 f = none) : exec (.moverCompletionReceive f) s = .next (s.moverCpl f) := by
  have htake : s.takeInbox 2 f = s := by simp only [State.takeInbox, hin]
  change execMoverCompletionReceive f s = _
  simp only [execMoverCompletionReceive, require, hwf, hrun, hk, htake, decide_true, Bool.and_self, if_true]

/-- A completion with a tag that is not in use is unexpected (R138). -/
theorem State.moverCpl_unexpected {s : State} {f : Frame} (hu : s.tagUse (s.geid 3) f.hdr.tag = none) :
    s.moverCpl f = s.countFab (f.hdr.tag.toNat / 32) fun c => { c with unexpectedCpl := inc48 c.unexpectedCpl } := by
  simp only [State.moverCpl, hu, Nat.div_div_eq_div_mul]

/-- A completion that does not end its request adds its data to the read (R294). -/
theorem State.moverCpl_partial {s : State} {f : Frame} {u : TagUse} {t : MoverTag} (hu : s.tagUse (s.geid 3) f.hdr.tag = some u)
    (ht : Tab.get none (s.juggler (f.hdr.tag.toNat / 8)).tags (f.hdr.tag.toNat % 8) = some t) (hsrc : u.dst = f.hdr.src)
    (hend : endsRequest f = false) :
    s.moverCpl f = s.modJuggler (f.hdr.tag.toNat / 8) fun x =>
      { x with tags := Tab.put none x.tags (f.hdr.tag.toNat % 8) (some { t with data := t.data ++ f.payload, poison := t.poison || f.hdr.poison }) } := by
  simp only [State.moverCpl, hu, ht, hsrc, hend, ne_eq, not_true_eq_false, Bool.false_eq_true, if_false]

/-! ### Instances (R263 to R266) -/

/-- Instances that have not failed enter FAILED, and their rings are reset (R266). -/
theorem State.failInst_live {s : State} {p id cause : Nat} {r : InstRec} (hr : s.policy.instAt p id = some r)
    (hlive : (s.instRun p id).state ≠ .failed) :
    s.failInst p id cause = (s.setInst p id .failed cause).each (s.instRings p id) State.resetRing := by
  have hnot : ¬((s.policy.instAt p id).isNone = true ∨ (s.instRun p id).state = .failed) := by
    rintro (h | h)
    · simp only [hr, Option.isNone_some, Bool.false_eq_true] at h
    · exact hlive h
  simp only [State.failInst, if_neg hnot]

/-- The check of instances that are QUIESCING finds them quiet, or finds that their time has passed, or changes nothing (R263). -/
theorem exec_quiesceCheck {s : State} {p : PortNo} {id : BitVec 8} {r : InstRec} (q late : Bool) (hrun : s.firmwareRuns = true)
    (hr : s.policy.instAt p.val id.toNat = some r) (hst : (s.instRun p.val id.toNat).state = .quiescing) :
    exec (.quiesceCheck p id q late) s = .next (if s.quiet p.val id.toNat q then s.setInst p.val id.toNat .quiesced 1
      else if late then s.evInst p.val id.toNat 6 else s) :=
  next_of_guard (by simp only [hrun, hr, hst, Option.isSome_some, decide_true, Bool.and_self])

/-- The endpoint clears RESET_REQ in RESETTING: the reset ends, unless it is forced and the lifetime limit has not passed (R264, R265). -/
theorem exec_resetReqCleared {s u : State} {p : PortNo} {id : BitVec 8} {r : InstRec} {x : InstRun} (hrun : s.firmwareRuns = true)
    (hr : s.policy.instAt p.val id.toNat = some r) (hx : x = s.instRun p.val id.toNat) (hst : x.state = .resetting) (hreq : x.icb.resetReq = true)
    (hgone : x.gone = false) (hnew : x.reqCleared = false)
    (hu : u = (s.modInst p.val id.toNat fun y =>
      { y with reqCleared := true, aborted := [], icb := { y.icb with resetReq := false, quiesceReq := false } }).modLink p.val fun l =>
      { l with outReqs := l.outReqs.filter fun o => !x.aborted.contains (o.requester, o.tag) }) :
    exec (.resetReqCleared p id) s = .next (if x.forced ∧ x.lifePassed = false then u else u.endReset p.val id.toNat) := by
  subst hx hu
  have hwait : ((s.instRun p.val id.toNat).forced && !(s.instRun p.val id.toNat).lifePassed) = true ↔
      (s.instRun p.val id.toNat).forced = true ∧ (s.instRun p.val id.toNat).lifePassed = false := by
    rw [Bool.and_eq_true, Bool.not_eq_true']
  simp only [← hwait]
  exact next_of_guard (by simp only [hrun, hr, hst, hreq, hgone, hnew, Option.isSome_some, decide_true, Bool.not_false, Bool.and_self])

/-- Instances in RESETTING whose endpoint has not cleared RESET_REQ in time are FAILED and reported (R266). -/
theorem exec_resetTimeout {s : State} {p : PortNo} {id : BitVec 8} {r : InstRec} (hrun : s.firmwareRuns = true)
    (hr : s.policy.instAt p.val id.toNat = some r) (hst : (s.instRun p.val id.toNat).state = .resetting)
    (hreq : (s.instRun p.val id.toNat).icb.resetReq = true) (hgone : (s.instRun p.val id.toNat).gone = false)
    (hnew : (s.instRun p.val id.toNat).reqCleared = false) :
    exec (.resetTimeout p id) s = .next (((s.setInst p.val id.toNat .failed 7).each (s.instRings p.val id.toNat) State.resetRing).report
      (BitVec.ofNat 12 (0x800 + leadOf p.val)) 4 (id.setWidth 64)) := by
  have hlive : (s.instRun p.val id.toNat).state ≠ .failed := by simp only [hst, ne_eq, reduceCtorEq, not_false_eq_true]
  rw [← State.failInst_live hr hlive]
  exact next_of_guard (by simp only [hrun, hr, hst, hreq, hgone, hnew, Option.isSome_some, decide_true, Bool.not_false, Bool.and_self])

/-- The lifetime limit passes for a forced reset: the reset ends if RESET_REQ has been cleared (R265). -/
theorem exec_resettingLifetimePass {s : State} {p : PortNo} {id : BitVec 8} {r : InstRec} (hrun : s.firmwareRuns = true)
    (hr : s.policy.instAt p.val id.toNat = some r) (hst : (s.instRun p.val id.toNat).state = .resetting)
    (hforced : (s.instRun p.val id.toNat).forced = true) (hgone : (s.instRun p.val id.toNat).gone = false) :
    exec (.resettingLifetimePass p id) s = .next (if (s.instRun p.val id.toNat).reqCleared then s.endReset p.val id.toNat
      else s.modInst p.val id.toNat fun y => { y with lifePassed := true }) :=
  next_of_guard (by simp only [hrun, hr, hst, hforced, hgone, Option.isSome_some, decide_true, Bool.not_false, Bool.and_self])

/-- Settles O36: a Juggler's step, the frames of the mover and the events of instances each act where their guards hold. -/
theorem jugglerAndInstanceEventsAct : Obligations.JugglerAndInstanceEventsAct := by
  unfold Obligations.JugglerAndInstanceEventsAct
  refine ⟨?jugglerStep, ?doorbellMoves, ?doorbellDenied, ?completionUnexpected, ?completionPartial,
    fun s p id q late r hrun hr hst => exec_quiesceCheck q late hrun hr hst,
    fun s p id r x u hrun hr hx hst hreq hgone hnew hu => exec_resetReqCleared hrun hr hx hst hreq hgone hnew hu,
    ?resetTimeout, ?lifetimePass⟩
  case jugglerStep =>
    rintro s j _ hrun hok rfl
    rw [exec_jugglerStep hrun hok, State.jugglerStep_eq]
  case doorbellMoves =>
    intro s f r hwf hrun hk hin hr hty haddr hlen hpart hst htail hpoison hord
    rw [exec_moverDoorbell hwf hrun hk hin, State.doorbell_moves hr hty haddr hlen hpart hst htail hpoison hord]
  case doorbellDenied =>
    intro s f hwf hrun hk hin hr
    rw [exec_moverDoorbell hwf hrun hk hin, State.doorbell_denied hr]
  case completionUnexpected =>
    intro s f hwf hrun hk hin hu
    rw [exec_moverCompletionReceive hwf hrun hk hin, State.moverCpl_unexpected hu]
  case completionPartial =>
    intro s f u t hwf hrun hk hin hu ht hsrc hend
    rw [exec_moverCompletionReceive hwf hrun hk hin, State.moverCpl_partial hu ht hsrc hend]
  case resetTimeout =>
    rintro s p id r _ hrun hr rfl hst hreq hgone hnew
    exact exec_resetTimeout hrun hr hst hreq hgone hnew
  case lifetimePass =>
    rintro s p id r _ hrun hr rfl hst hforced hgone
    exact exec_resettingLifetimePass hrun hr hst hforced hgone

end Sys2Proof.Machine

/-! SUPPORT. O8: the commands of group 0x05. -/

namespace Sys2Proof.Machine

/-! ### The target of a query -/

/-- A mailbox may name a PU whose quad a port that it may name uses (R85). -/
theorem State.Admits.onPu_owned {s : State} {c : CmdSpec} {n pl pu p : Nat} {k : CmdResult} (h : s.Admits c n pl)
    (hp : (s.portsOfQuad pu).contains p = true) (hm : s.mayName n (s.portOwner p) = true) : (s.begun n).onPu n pu k = k := by
  have hany : ((s.begun n).portsOfQuad pu).any (fun p => (s.begun n).mayName n ((s.begun n).portOwner p)) = true :=
    List.any_eq_true.2 ⟨p, List.contains_iff_mem.1 hp, h.mayName_begun hm⟩
  simp only [State.onPu, hany, Bool.or_true, if_true]

/-! ### The commands together -/

/-- Settles O8: every command acts on the port or PU that its payload names, and passes the checks of its own body there. -/
theorem carouselCommandsAct : Obligations.CarouselCommandsAct := by
  unfold Obligations.CarouselCommandsAct
  refine ⟨fun s mb pl h => obeys_of h rfl rfl,
    ?voqLimitSet,
    fun s mb pl h => obeys_of h rfl rfl,
    ?pcieStoreSet,
    ?countersReadPrivileged,
    ?countersReadOwned,
    fun s mb pl p h hp hm => obeys_of h rfl (h.onPort_owned hp hm)⟩
  case voqLimitSet =>
    intro s mb pl p h hp hfit
    exact obeys_of h rfl ((h.onPort rfl hp).trans (if_neg (Nat.not_lt.2 hfit)))
  case pcieStoreSet =>
    intro s mb pl p h hp hpcie
    refine obeys_of h rfl ((h.onPort rfl hp).trans ?_)
    simp only [State.begun_port, hpcie, Bool.true_eq_false, if_false]
  case countersReadPrivileged =>
    rintro s mb pl _ h hmb rfl
    exact obeys_of h rfl (State.onPu_privileged hmb)
  case countersReadOwned =>
    intro s mb pl p h hp hm hkeep
    refine obeys_of h rfl ((h.onPu_owned hp hm).trans ?_)
    simp only [hkeep, Bool.false_eq_true, if_false, State.begun_car]

end Sys2Proof.Machine

/-! SUPPORT. O34: admission to VOQs, the slots of the two stages, the arrival of cells, gaps and middle buffers. -/

namespace Sys2Proof.Machine

/-! ### Admission (R174, R259) -/

section Admission

variable {s : State} {src vc uid : Nat} {l : List Nat} {r : FrameRec}

/-- The head of an input waits where the share of its instance is full, and is counted once. -/
theorem State.tryVoq_shareFull (hw : s.waitingAt src vc = uid :: l) (hf : s.frame? uid = some r) (hp : r.place = .lookedUp)
    (hwhole : r.whole = true) (hi : s.instRoom r = false) :
    s.tryVoq src vc = if r.instWaited then s else (s.countPart (puOf src) fun c =>
      { c with instWaits := inc48 c.instWaits }).setFrame uid (some { r with instWaited := true }) := by
  simp only [State.tryVoq, hw, hf, hp, hwhole, hi, ne_eq, not_true_eq_false, Bool.true_eq_false, or_self, if_false, if_true]

/-- The head of an input waits where its VOQ is full, and is counted once. -/
theorem State.tryVoq_voqFull (hw : s.waitingAt src vc = uid :: l) (hf : s.frame? uid = some r) (hp : r.place = .lookedUp)
    (hwhole : r.whole = true) (hi : s.instRoom r = true) (hv : s.voqRoom r = false) :
    s.tryVoq src vc = if r.waited then s else (s.countCar (puOf src) fun c =>
      { c with voqWaits := inc48 c.voqWaits }).setFrame uid (some { r with waited := true }) := by
  simp only [State.tryVoq, hw, hf, hp, hwhole, hi, hv, ne_eq, not_true_eq_false, Bool.true_eq_false, or_self, if_false, if_true]

/-- The head of an input that has room joins its VOQ, which marks its occupancy for a port. -/
theorem State.tryVoq_joins {t u : State} (hw : s.waitingAt src vc = uid :: l) (hf : s.frame? uid = some r) (hp : r.place = .lookedUp)
    (hwhole : r.whole = true) (hi : s.instRoom r = true) (hv : s.voqRoom r = true)
    (ht : t = (s.pmon (puOf src) 0x108 r.frame.hdr.vc 1).pmon (puOf src) 0x109 r.frame.hdr.vc r.frame.blocks)
    (hu : u = ((t.modWaiting src vc (·.erase uid)).setFrame uid (some { r with place := .admitted })).modVoq r.flow fun v =>
      { v with frames := v.frames ++ [uid] }) :
    s.tryVoq src vc = if 256 ≤ src then u else u.modCar fun c =>
      { c with hwm := Tab.mod {} c.hwm src fun h => { h with voq := modAt h.voq r.frame.hdr.vc (max (u.cellsLeft (u.voq r.flow).frames)) } } := by
  subst ht hu
  simp only [State.tryVoq, hw, hf, hp, hwhole, hi, hv, ne_eq, not_true_eq_false, Bool.true_eq_false, or_self, if_false]

end Admission

/-! ### The arrival of a cell at an output (R186, R188) -/

section Arrival

variable {s u v : State} {o : Nat} {c : Cell} {rest : List Cell}

/-- No cell arrives at an output at which none stands. -/
theorem State.takeCell_empty (ha : Tab.get [] s.car.arrivals o = []) : s.takeCell o = s := by
  simp only [State.takeCell, ha]

/-- A cell that arrives is counted, and dropped where the PU is out of service. -/
theorem State.takeCell_puOut (ha : Tab.get [] s.car.arrivals o = c :: rest)
    (hu : u = (s.modCar fun x => { x with arrivals := Tab.put [] x.arrivals o rest }).countCar o fun x => x.arrived c.state)
    (hv : v = if c.first then u.modFrame c.uid fun r => { r with firstAt := some o } else u) (hout : v.puRuns o = false) :
    s.takeCell o = v.dropCell c o .fenced := by
  subst hu hv
  simp only [State.takeCell, ha, hout, if_true]

/-- A cell that arrives for a port is dropped where the port or its quad is down or the cell is stale, and is otherwise resequenced. -/
theorem State.takeCell_port {p : Nat} (ha : Tab.get [] s.car.arrivals o = c :: rest)
    (hu : u = (s.modCar fun x => { x with arrivals := Tab.put [] x.arrivals o rest }).countCar o fun x => x.arrived c.state)
    (hv : v = if c.first then u.modFrame c.uid fun r => { r with firstAt := some o } else u) (hruns : v.puRuns o = true)
    (he : c.egress ≤ 1) (hp : v.outPort o c.egress = some p) :
    s.takeCell o = if v.up p = false ∨ Tab.get false v.power.quadOn o = false ∨ c.state = 3 ∨ c.inc ≠ (v.link p).inc then
      v.dropCell c o .linkDown else (v.reseqCell (flowKey c.src (8 * leadOf p + p % 2) c.vc) o (leadOf p) (some p) c).markPool p := by
  subst hu hv
  simp only [State.takeCell, ha, hruns, he, hp, Bool.true_eq_false, if_false, if_true]

end Arrival

/-! ### Middle buffers and fenced inputs (R194, R195, R425) -/

/-- A draining middle buffer that is empty, or has drained for 16 periods, is skipped. -/
theorem exec_middleBufferDrainEnd {s : State} {m : MidNo} (hrun : s.running = true) (hst : (s.mid m.val).state = .draining)
    (hend : (s.mid m.val).queues = [] ∨ 16 ≤ (s.mid m.val).drained) :
    exec (.middleBufferDrainEnd m) s = .next (s.modMid m.val fun b =>
      { b with state := if b.forOff then .skippedOff else .skippedFenced, queues := [], recent := [], drained := 0 }) := by
  have hdone : ((s.mid m.val).queues.isEmpty || decide (16 ≤ (s.mid m.val).drained)) = true := by
    rwa [Bool.or_eq_true, List.isEmpty_iff, decide_eq_true_eq]
  exact next_of_guard (by simp only [hrun, hst, hdone, decide_true, Bool.and_self])

/-- A skipped middle buffer that nothing holds serves again. -/
theorem exec_middleBufferReturn {s : State} {m : MidNo} (hrun : s.running = true)
    (hst : (s.mid m.val).state = .skippedFenced ∨ (s.mid m.val).state = .skippedOff) (hheld : midHeld s.out m.val = false)
    (hring : s.ringIsOff (ringOf m.val) = false) :
    exec (.middleBufferReturn m) s = .next (s.modMid m.val fun b =>
      { b with state := .inService, queues := [], recent := [], drained := 0, forOff := false, bad := false }) := by
  have hskipped : ((s.mid m.val).state == .skippedFenced || (s.mid m.val).state == .skippedOff) = true := by
    rwa [Bool.or_eq_true, beq_iff_eq, beq_iff_eq]
  exact next_of_guard (by simp only [hrun, hskipped, hheld, hring, Bool.not_false, Bool.and_self])

/-- The cleanup of a fenced input loses its incomplete frames and forgets its resequencers. -/
theorem exec_fencedInputCleanup {s u : State} {q : PuNo} {srcs : List Nat} (hsrcs : srcs = (256 + q.val) :: s.portsOfQuad q.val)
    (hu : u = s.each (s.framesWith fun r => srcs.contains r.src && decide (r.place = .carousel)) fun t uid =>
      (t.frame? uid).elim t fun r => t.loseFrame uid r.egress.pu)
    (hq : q.val ∈ s.faults.cleanup) :
    exec (.fencedInputCleanup q) s = .next ((u.modCar fun c =>
      { c with reseqs := c.reseqs.filter fun e => !srcs.contains (flowSrc e.1) }).modFaults fun f =>
      { f with cleanup := f.cleanup.filter fun x => decide (x ≠ q.val) }) := by
  subst hsrcs hu
  have hwaits : ¬s.faults.cleanup.contains q.val = false := ne_false_of_eq_true (List.contains_iff_mem.2 hq)
  have hlose : (fun (t : State) (uid : Nat) => (t.frame? uid).elim t fun r => t.loseFrame uid r.egress.pu) =
      fun t uid => match t.frame? uid with
        | some r => t.loseFrame uid r.egress.pu
        | none => t := by
    funext t uid
    cases t.frame? uid <;> rfl
  rw [hlose]
  exact if_neg hwaits

/-! ### The events together -/

/-- Settles O34: every event acts where the core die runs, and its operation comes to the case of its row. -/
theorem carouselEventsAct : Obligations.CarouselEventsAct := by
  unfold Obligations.CarouselEventsAct
  refine ⟨?admitShareFull, ?admitVoqFull, ?admitJoins,
    fun s hrun => next_of_guard hrun,
    fun s hrun => next_of_guard hrun,
    ?periodStart, ?noCell, ?cellAtPuOut, ?cellForPort,
    fun s p src vc hrun => next_of_guard hrun,
    fun s m hrun hst hend => exec_middleBufferDrainEnd hrun hst hend,
    fun s m hrun hst hheld hring => exec_middleBufferReturn hrun hst hheld hring,
    fun s q srcs u hsrcs hu hq => exec_fencedInputCleanup hsrcs hu hq⟩
  case admitShareFull =>
    intro s src vc uid l r hw hf hrun hp hwhole hi
    rw [← State.tryVoq_shareFull hw hf hp hwhole hi]
    exact next_of_guard hrun
  case admitVoqFull =>
    intro s src vc uid l r hw hf hrun hp hwhole hi hv
    rw [← State.tryVoq_voqFull hw hf hp hwhole hi hv]
    exact next_of_guard hrun
  case admitJoins =>
    intro s src vc uid l r t u hw hf hrun hp hwhole hi hv ht hu
    rw [← State.tryVoq_joins hw hf hp hwhole hi hv ht hu]
    exact next_of_guard hrun
  case periodStart =>
    rintro s _ hrun rfl
    exact next_of_guard hrun
  case noCell =>
    intro s o hrun ha
    exact (next_of_guard hrun).trans (congrArg _ (State.takeCell_empty ha))
  case cellAtPuOut =>
    intro s o c rest u v hrun ha hu hv hout
    rw [← State.takeCell_puOut ha hu hv hout]
    exact next_of_guard hrun
  case cellForPort =>
    intro s o c rest u v p hrun ha hu hv hruns he hp
    rw [← State.takeCell_port ha hu hv hruns he hp]
    exact next_of_guard hrun

end Sys2Proof.Machine

/-! SUPPORT. O9: the commands of group 0x06 that act on schedulers, shapers and time gates, and the marks. -/

namespace Sys2Proof.Machine

/-! ### What the body of a scheduler command reads after the lease is renewed -/

@[simp] theorem State.begun_schedOf (s : State) (n p : Nat) : (s.begun n).schedOf p = s.schedOf p := rfl

/-! ### Gate lists (R226, Table 6.9) -/

/-- GATE_LIST_SET leaves the list of its payload, or none with ENABLE 0, pending until its start. -/
theorem State.scheduleGate_gateListOf {s : State} {pl p base start : Nat} (hs : start = firstBoundary base (fld pl 128 30) (s.fabNs + 10000)) :
    s.scheduleGate p (gateListOf pl base) base (fld pl 128 30) = s.modSched p fun x =>
      { x with gatePending := some { list := if bitOf pl 9 then some { guard := fld pl 25 10, base := base, cycle := fld pl 128 30, start := start, entries := (List.range (gateCount pl)).map fun i => (fbv pl (192 + 48 * i) 9, fld pl (192 + 48 * i + 16) 30) } else none, start := start, base := base, cycle := fld pl 128 30 } } := by
  subst hs
  unfold State.scheduleGate gateListOf
  cases bitOf pl 9 <;> rfl

/-! ### The commands together -/

/-- Settles O9: every command acts on the port or PU that its payload names; SHAPER_SET tells the port's shaper from a queue's,
GATE_LIST_SET a list from none, GATE_QUERY a scheduler with lists from one without, and HWM_READ a PU from a port. -/
theorem schedulerCommandsAct : Obligations.SchedulerCommandsAct := by
  unfold Obligations.SchedulerCommandsAct
  refine ⟨fun s mb pl p h hp => obeys_of h rfl (h.onPort rfl hp),
    ?shaperSetPort,
    ?shaperSetQueue,
    ?gateListSet,
    ?gateQuery,
    fun s mb pl p h hp hm => obeys_of h rfl (h.onPort_owned hp hm),
    fun s mb pl h htarget hmb => obeys_of h rfl ((if_pos htarget).trans (State.onPu_privileged hmb)),
    fun s mb pl p h htarget hp hm => obeys_of h rfl ((if_neg (Bool.eq_false_iff.1 htarget)).trans (h.onPort_owned hp hm))⟩
  case shaperSetPort =>
    intro s mb pl p h hp hport
    refine obeys_of h rfl ((h.onPort rfl hp).trans ?_)
    simp only [if_pos hport, Bucket.configure]
  case shaperSetQueue =>
    intro s mb pl p h hp hqueue
    have hport : fld pl 9 4 ≠ 15 := by omega
    refine obeys_of h rfl ((h.onPort rfl hp).trans ?_)
    simp only [if_neg hport, Bucket.configure]
  case gateListSet =>
    rintro s mb pl p _ _ h hp rfl rfl
    exact obeys_of h rfl ((h.onPort rfl hp).trans (congrArg (CmdResult.done · _) (State.scheduleGate_gateListOf rfl)))
  case gateQuery =>
    rintro s mb pl p _ h hp hm rfl
    refine obeys_of h rfl ((h.onPort_owned hp hm).trans ?_)
    simp only [State.begun_schedOf]
    cases (s.schedOf p).gate <;> cases (s.schedOf p).gatePending <;> rfl

end Sys2Proof.Machine

/-! SUPPORT. O35: the scheduler's choice at a frame boundary, the refill, the penalty queues, the gates and the order holds. -/

namespace Sys2Proof.Machine

/-! ### A frame boundary (R203, R204) -/

section Boundary

variable {s : State} {p : Nat} {fc : BitVec 3}

/-- The head of the merge queue goes before every other frame. -/
theorem State.frameBoundary_mergeQueue {x : Nat × FrameRec} (h : (s.sweepQueues p).mqHead p = some x) :
    s.frameBoundary p fc = (s.sweepQueues p).send p x.1 x.2 := by
  simp only [State.frameBoundary, h]

variable (h : (s.sweepQueues p).mqHead p = none) {u : State} (hu : u = (s.sweepQueues p).countShaperWaits p)
include h hu

/-- With no such head, the waits for shapers are counted, and the port's peak bucket decides whether a frame of VC0 to VC6 is chosen. -/
theorem State.frameBoundary_noMergeQueue : s.frameBoundary p fc =
    if (u.schedOf p).portPeak.peakOk = false then
      if (List.range 9).any (fun k => !((u.schedOf p).queue k).frames.isEmpty) then
        u.modSched p fun x => { x with portShaperWaits := inc48 x.portShaperWaits } else u
    else u.boundaryChoice p fc := by
  rw [hu, State.frameBoundary, h]

/-- Where the port's peak bucket allows a frame, the gates, shapers and priorities choose. -/
theorem State.frameBoundary_choice (hpeak : (u.schedOf p).portPeak.peakOk = true) : s.frameBoundary p fc = u.boundaryChoice p fc :=
  (State.frameBoundary_noMergeQueue h hu).trans (if_neg (ne_false_of_eq_true hpeak))

/-- Where it does not, no frame starts, and the port counts a wait if a frame stands in its queues. -/
theorem State.frameBoundary_shaped (hpeak : (u.schedOf p).portPeak.peakOk = false) :
    s.frameBoundary p fc = if (List.range 9).any (fun k => !((u.schedOf p).queue k).frames.isEmpty) then
      u.modSched p fun x => { x with portShaperWaits := inc48 x.portShaperWaits } else u :=
  (State.frameBoundary_noMergeQueue h hu).trans (if_pos hpeak)

end Boundary

/-- The event acts where the core die runs and a port stands at a boundary. -/
theorem exec_egressFrameBoundary {s : State} {p : PortNo} {fc : BitVec 3} (hrun : s.running = true) (hb : s.atBoundary p.val = true) :
    exec (.egressFrameBoundary p fc) s = .next (s.frameBoundary p.val fc) :=
  next_of_guard (by simp only [hrun, hb, Bool.and_self])

/-! ### Penalty queues (R219) -/

/-- What the event comes to for the frame at the head of its input. -/
theorem exec_penaltyQueueAdmit {s : State} {src : SrcNo} {vc : VcNo} {uid : Nat} {l : List Nat} {r : FrameRec}
    (hw : s.waitingAt src.val vc.val = uid :: l) (hf : s.frame? uid = some r) (hrun : s.running = true) :
    exec (.penaltyQueueAdmit src vc) s =
      .next (if r.place = .penaltyFull ∧ (s.penalty r.endPu).full = false then s.joinPenalty uid r.endPu else s) := by
  change execPenaltyQueueAdmit src vc s = _
  simp only [execPenaltyQueueAdmit, hrun, hw, hf, Bool.true_eq_false, if_false]

/-! ### Gates (R222, R227) -/

/-- The operational list of a port goes on to its next entry. -/
theorem exec_gateEntryChange {s : State} {p : PortNo} {g : GateList} (hrun : s.running = true) (hg : (s.schedOf p.val).gate = some g) :
    exec (.gateEntryChange p) s = .next (s.modSched p.val fun x =>
      { x with gateEntry := (g.next x.gateEntry x.gateCycles).1, gateCycles := (g.next x.gateEntry x.gateCycles).2 }) := by
  refine (next_of_guard hrun).trans ?_
  rw [hg]

/-- A pending list becomes the operational one at its entry 0, and its start is told. -/
theorem State.startGate_pending {s : State} {p : Nat} {g : PendingGate} (hg : (s.schedOf p).gatePending = some g) :
    s.startGate p = (s.modSched p fun x => { x with gate := g.list, gatePending := none, gateEntry := 0, gateCycles := 0 }).raise
      0x0601 [(p, 1), (g.start / 1000000000, 6), (g.start % 1000000000, 4)] [s.portOwner p] := by
  simp only [State.startGate, hg]

/-! ### Order holds (R249) -/

/-- A held frame whose time has passed is counted and released. -/
theorem exec_orderHoldRelease {s : State} {p : PortNo} {uid : Nat} (hrun : s.running = true) (hheld : uid ∈ Tab.get [] s.parts.held p.val) :
    exec (.orderHoldRelease p uid) s =
      .next ((s.countPart (leadOf p.val) fun c => { c with orderTimeout := inc48 c.orderTimeout }).unhold p.val uid) :=
  next_of_guard (by simp only [hrun, List.contains_iff_mem.2 hheld, Bool.and_self])

/-! ### The events together -/

/-- Settles O35: every event acts where the core die runs, and its operation comes to the case of its row. -/
theorem schedulerEventsAct : Obligations.SchedulerEventsAct := by
  unfold Obligations.SchedulerEventsAct
  refine ⟨?mergeQueue, ?choice, ?shaped, ?refill, ?admitted, ?stillFull,
    fun s p g hrun hg => exec_gateEntryChange hrun hg,
    ?gateListStart,
    fun s p uid hrun hheld => exec_orderHoldRelease hrun hheld⟩
  case mergeQueue =>
    intro s p fc x hrun hb hx
    rw [exec_egressFrameBoundary hrun hb, State.frameBoundary_mergeQueue hx]
  case choice =>
    intro s p fc u hrun hb hnone hu hpeak
    rw [exec_egressFrameBoundary hrun hb, State.frameBoundary_choice hnone hu hpeak]
  case shaped =>
    intro s p fc u hrun hb hnone hu hpeak
    rw [exec_egressFrameBoundary hrun hb, State.frameBoundary_shaped hnone hu hpeak]
  case refill =>
    rintro s _ _ rfl rfl hrun
    exact next_of_guard hrun
  case admitted =>
    intro s src vc uid l r hw hf hrun hp hroom
    rw [exec_penaltyQueueAdmit hw hf hrun, if_pos ⟨hp, hroom⟩]
  case stillFull =>
    intro s src vc uid l r hw hf hrun hp hfull
    rw [exec_penaltyQueueAdmit hw hf hrun, if_neg (fun hroom => Bool.eq_false_iff.1 hroom.2 hfull)]
  case gateListStart =>
    intro s p g hrun hg
    rw [← State.startGate_pending hg]
    exact next_of_guard hrun

end Sys2Proof.Machine

/-! SUPPORT. O11 and O12: the commands of partitions and virtual hierarchies of group 0x07. -/

namespace Sys2Proof.Machine

/-! ### What the body of a group 0x07 command reads after the lease is renewed -/

@[simp] theorem State.begun_usablePart (s : State) (n o : Nat) : (s.begun n).usablePart o = s.usablePart o := rfl
@[simp] theorem State.begun_ownsVirtual (s : State) (n : Nat) (o : BitVec 8) : (s.begun n).ownsVirtual o = s.ownsVirtual o := rfl
@[simp] theorem State.begun_portBusy (s : State) (n p : Nat) : (s.begun n).portBusy p = s.portBusy p := rfl
@[simp] theorem State.begun_stagedPolicy (s : State) (n : Nat) : (s.begun n).stagedPolicy = s.stagedPolicy := rfl
@[simp] theorem State.begun_vhRec (s : State) (n v : Nat) : (s.begun n).vhRec v = s.vhRec v := rfl
@[simp] theorem State.begun_bindOk (s : State) (n : Nat) (t : Policy) (vk : Nat) (o : BitVec 8) (b : Binding) :
    (s.begun n).bindOk t vk o b = s.bindOk t vk o b := rfl

/-! ### Partitions -/

/-- Settles O11: every command passes the checks of its own body; PARTITION_ASSIGN tells a port, a Patchwork port and a mailbox by KIND. -/
theorem partitionCommandsAct : Obligations.PartitionCommandsAct := by
  unfold Obligations.PartitionCommandsAct
  refine ⟨fun s mb pl h => obeys_of h rfl rfl,
    ?destroy, ?assignPort, ?assignPw, ?assignMailbox, ?config,
    fun s mb pl h hok => obeys_of h rfl (if_neg (Bool.eq_false_iff.1 hok)),
    fun s mb pl p h hp => obeys_of h rfl (h.onPort rfl hp),
    fun s mb pl h hm => obeys_of h rfl (if_pos (h.mayName_begun hm)),
    ?countersRead⟩
  case destroy =>
    intro s mb pl h husable hfree
    refine obeys_of h rfl ?_
    simp only [State.begun_usablePart, State.begun_ownsVirtual, husable, hfree, Bool.true_eq_false, Bool.false_eq_true, if_false]
  case assignPort =>
    intro s mb pl p h hkind hp husable hfree
    refine obeys_of h rfl ?_
    simp only [hkind]
    refine (h.onPort rfl hp).trans ?_
    simp only [State.begun_usablePart, State.begun_portBusy, husable, hfree, Bool.true_eq_false, Bool.false_eq_true, if_false]
  case assignPw =>
    intro s mb pl h hkind husable
    refine obeys_of h rfl ?_
    simp only [hkind, State.begun_usablePart, husable, Bool.true_eq_false, if_false]
  case assignMailbox =>
    intro s mb pl h hkind husable
    refine obeys_of h rfl ?_
    simp only [hkind, State.begun_usablePart, husable, Bool.true_eq_false, if_false]
  case config =>
    intro s mb pl h husable htiming
    have hok : ¬(s.usablePart (fld pl 0 8) = false ∨ bitOf pl 8 = true ∧ s.timingOk (BitVec.ofNat 8 (fld pl 0 8)) = false) := by
      rintro (hunusable | ⟨hon, hbroken⟩)
      · exact Bool.eq_false_iff.1 hunusable husable
      · exact Bool.eq_false_iff.1 hbroken (htiming hon)
    exact obeys_of h rfl (if_neg hok)
  case countersRead =>
    rintro s mb pl _ h hmb rfl
    exact obeys_of h rfl (State.onPu_privileged hmb)

/-! ### Virtual hierarchies -/

/-- Settles O12: every command finds the port, or the VH in the table with its staged writes, that its payload names, and passes the checks of its own body there. -/
theorem virtualCommandsAct : Obligations.VirtualCommandsAct := by
  unfold Obligations.VirtualCommandsAct
  refine ⟨?create, ?destroy, ?unbind, ?bind, ?query, ?sharedEndpoint⟩
  case create =>
    rintro s mb pl p h hp ⟨hpcie, hup⟩ hfree hnone
    have hside : ¬((s.port p).pcie = false ∨ (s.port p).upstream = false) := by
      simp only [hpcie, hup, Bool.true_eq_false, or_self, not_false_eq_true]
    refine obeys_of h rfl ((h.onPort rfl hp).trans ((if_neg hside).trans (if_neg ?_)))
    rintro (hused | hcarries)
    · simp only [State.begun_stagedPolicy, hfree, Option.isSome_none, Bool.false_eq_true] at hused
    · obtain ⟨⟨v, o⟩, hmem, hport⟩ := List.any_eq_true.1 hcarries
      have hother := of_decide_eq_true (List.all_eq_true.1 hnone _ hmem)
      cases o with
      | none => exact Bool.false_ne_true hport
      | some r => exact hother (congrArg some (of_decide_eq_true hport))
  case destroy =>
    intro s mb pl r h hr hunbound
    refine obeys_of h rfl ?_
    simp only [State.begun_stagedPolicy, hr, hunbound, Option.isNone_some, Bool.false_eq_true, if_false]
  case unbind =>
    intro s mb pl r h hr hk hnone
    refine obeys_of h rfl ?_
    simp only [State.begun_stagedPolicy, hr, if_neg (Nat.not_le.2 hk), hnone]
  case bind =>
    rintro s mb pl r _ h hr hk hsome rfl hok
    refine obeys_of h rfl ?_
    simp only [State.begun_stagedPolicy, hr, if_neg (Nat.not_le.2 hk), State.begun_bindOk]
    generalize fld pl 12 2 = kind at hsome hok
    match kind, hsome with
    | 1, _ => exact if_pos hok
    | kind + 2, _ => exact if_pos hok
  case query =>
    intro s mb pl r h hr hm
    refine obeys_of h rfl ?_
    simp only [State.begun_vhRec, hr]
    exact if_pos (h.mayName_begun hm)
  case sharedEndpoint =>
    intro s mb pl p c h hp hn hkind hlo hhi
    have hok : ¬((s.partner p).kind ≠ 2 ∨ c.toNat % 512 = 0 ∨ 256 < c.toNat % 512) := by
      rintro (hother | hzero | hmany)
      · exact hother hkind
      · omega
      · omega
    exact obeys_of h rfl ((h.onNative rfl hp hn).trans (if_neg hok))

end Sys2Proof.Machine

/-! SUPPORT. O13: the commands of instances of group 0x07. -/

namespace Sys2Proof.Machine

/-! ### What the body of an instance command reads after the lease is renewed -/

@[simp] theorem State.begun_instRun (s : State) (n p id : Nat) : (s.begun n).instRun p id = s.instRun p id := rfl
@[simp] theorem State.begun_freeMeter (s : State) (n : Nat) (t : Policy) (p : Nat) : (s.begun n).freeMeter t p = s.freeMeter t p := rfl
@[simp] theorem State.begun_poolsSupply (s : State) (n : Nat) (t : Policy) (p id buffer credits mover : Nat) :
    (s.begun n).poolsSupply t p id buffer credits mover = s.poolsSupply t p id buffer credits mover := rfl

/-- A command that names an instance acts on it once the lease is renewed. -/
theorem State.Admits.onInst {s : State} {c : CmdSpec} {n pl p id : Nat} {r : InstRec} {k : Nat → InstRec → CmdResult} (h : s.Admits c n pl)
    (hi : s.NamesInst n pl p id r) : (s.begun n).onInst n (fld pl 0 8) (fld pl 8 8) k = k p r := by
  obtain ⟨hp, hid, hcap, hrec, hm, hgone⟩ := hi
  exact State.onInst_named ⟨hp, hid, hcap, hrec, h.mayName_begun hm, hgone⟩

/-- The ID that such a command names stands in its payload. -/
theorem State.NamesInst.id_eq {s : State} {n pl p id : Nat} {r : InstRec} (h : s.NamesInst n pl p id r) : id = fld pl 8 8 := h.2.1

/-! ### The commands together -/

/-- Settles O13: every command finds the port or the instance that its payload names, in a state that its row asks for. -/
theorem instanceCommandsAct : Obligations.InstanceCommandsAct := by
  unfold Obligations.InstanceCommandsAct
  refine ⟨?create, ?shareSet, ?quiesce, ?resume, ?reset, ?resetForce, ?destroy, ?xlateSet, ?query⟩
  case create =>
    rintro s mb pl p a sh m h hp hn hsh hid husable hfree hcount hpools hm hsome ha
    have hmeter : (bitOf pl 61 && m.isNone) = false := by
      rw [← hsome]
      cases m <;> rfl
    have hroom : ¬(4096 ≤ s.stagedPolicy.inst.length ∨
        s.poolsSupply s.stagedPolicy p (fld pl 8 8) (fld pl 32 16) (fld pl 48 13) (fld pl 64 16) = false) := by
      rintro (hfull | hnone)
      · exact Nat.not_lt.2 hfull hcount
      · exact Bool.eq_false_iff.1 hnone hpools
    refine obeys_of h rfl ((h.onNative rfl hp hn).trans ?_)
    simp only [State.begun_stagedPolicy, State.begun_usablePart, State.begun_poolsSupply, State.begun_freeMeter, hsh, if_neg (Nat.not_le.2 hid),
      husable, hfree, if_neg hroom, ha, ← hm, hmeter, Option.isSome_none, Bool.true_eq_false, Bool.false_eq_true, if_false]
  case shareSet =>
    rintro s mb pl p id b c v n a m r h hi rfl rfl rfl rfl hm hsome ha hpools
    obtain rfl := hi.id_eq
    have hok : ¬(s.poolsSupply s.stagedPolicy p (fld pl 8 8) (keepZero (fld pl 32 16) r.buffer) (keepZero (fld pl 48 13) r.credits)
        (keepZero (fld pl 64 16) r.mover) = false ∨ bitOf pl 61 = true ∧ m = none) := by
      rintro (hnone | ⟨hwanted, rfl⟩)
      · exact Bool.eq_false_iff.1 hnone hpools
      · exact Bool.false_ne_true (hsome hwanted)
    refine ⟨_, rfl, obeys_of h rfl ((h.onInst hi).trans ?_)⟩
    simp only [State.begun_stagedPolicy, State.begun_poolsSupply, State.begun_freeMeter, ← hm, ha, if_neg hok]
  case quiesce =>
    intro s mb pl p id r h hi hactive
    obtain rfl := hi.id_eq
    exact obeys_of h rfl ((h.onInst hi).trans (if_neg (not_not_intro hactive)))
  case resume =>
    intro s mb pl p id r h hi hquiet
    obtain rfl := hi.id_eq
    refine obeys_of h rfl ((h.onInst hi).trans (if_neg ?_))
    rintro ⟨hnotQuiescing, hnotQuiesced⟩
    exact hquiet.elim hnotQuiescing hnotQuiesced
  case reset =>
    intro s mb pl p id r h hi hquiesced
    obtain rfl := hi.id_eq
    exact obeys_of h rfl ((h.onInst hi).trans (if_neg (not_not_intro hquiesced)))
  case resetForce =>
    intro s mb pl p id r h hi hlive
    obtain rfl := hi.id_eq
    exact obeys_of h rfl ((h.onInst hi).trans (if_neg hlive))
  case destroy =>
    intro s mb pl p id r h hi hended
    obtain rfl := hi.id_eq
    refine obeys_of h rfl ((h.onInst hi).trans ?_)
    obtain hst | hst := hended
    · simp only [State.begun_instRun, hst, if_true]
    · simp only [State.begun_instRun, hst, reduceCtorEq, if_false]
  case xlateSet =>
    intro s mb pl p id r h hi hfit
    exact obeys_of h rfl ((h.onInst hi).trans (if_neg (Nat.not_lt.2 hfit)))
  case query =>
    intro s mb pl p id r h hi
    obtain rfl := hi.id_eq
    exact obeys_of h rfl (h.onInst hi)

end Sys2Proof.Machine

/-! SUPPORT. O37: the TLPs, configuration accesses and resets of a virtual hierarchy. -/

namespace Sys2Proof.Machine

/-! ### TLPs from a host (R246) -/

/-- A count at a monitor leaves the ports that carry TLPs. -/
@[simp] theorem State.pmon_tlpPort (s : State) (mon ev qual n p : Nat) (up : Bool) : (s.pmon mon ev qual n).tlpPort p up = s.tlpPort p up := by
  unfold State.pmon
  extract_lets m
  split <;> rfl

section HostTlp

variable {s u : State} {p : PortNo} {t : Tlp} (hwf : t.wellFormed = true) (hport : s.tlpPort p.val true = true)
  (hu : u = s.pmon (leadOf p.val) 0x070 0 1)
include hwf hport hu

/-- A TLP that an upstream port of a VH receives is counted and handled in its hierarchy. -/
theorem exec_hostTlpWrap {v : Nat} (hv : u.vhOf p.val = some v) : exec (.hostTlpWrap p t) s = .next (u.hostTlp p.val v t) := by
  subst hu
  change execHostTlpWrap p t s = _
  simp only [execHostTlpWrap, require, hwf, hport, State.pmon_tlpPort, hv, if_true]

/-- On an upstream port of no VH a non-posted TLP is answered Unsupported Request, and another one is counted. -/
theorem exec_hostTlpWrap_noVh (hv : u.vhOf p.val = none) :
    exec (.hostTlpWrap p t) s = .next (if tlpCode t.kind = 1 then u.tlpToPort p.val (tlpReply t 0 psUR [])
      else u.countPart (leadOf p.val) fun x => { x with vhMiss := inc48 x.vhMiss }) := by
  subst hu
  change execHostTlpWrap p t s = _
  simp only [execHostTlpWrap, require, hwf, hport, State.pmon_tlpPort, hv, if_true, State.answerTlp]
  split <;> rfl

end HostTlp

/-- A memory or I/O request goes to BAR0 of the management function, to the vDSP whose window holds it, or to nothing (Table 7.7). -/
theorem State.hostTlp_request {s : State} {p v : Nat} {t : Tlp} (hk : t.kind = .memRead ∨ t.kind = .memWrite ∨ t.kind = .ioRead ∨ t.kind = .ioWrite) :
    s.hostTlp p v t = if isMem t && s.memOn v 1 && decide (s.barBase v 1 ≤ t.addr.toNat ∧ t.addr.toNat + t.len ≤ s.barBase v 1 + 65536)
      then s.barAccess p v t else (s.vdspFor v t).elim (s.unclaimed p v t) fun k =>
        (s.toTarget v k t).elim (s.answerTlp p t (s.instFnId v k) psUR []) fun x => s.wrapTlp p x.1 x.2.1 x.2.2 := by
  cases hvdsp : s.vdspFor v t with
  | none => obtain hk | hk | hk | hk := hk <;> simp only [State.hostTlp, hk, hvdsp, Option.elim_none]
  | some k =>
    cases hto : s.toTarget v k t <;> obtain hk | hk | hk | hk := hk <;>
      simp only [State.hostTlp, hk, hvdsp, hto, Option.elim_some, Option.elim_none]

/-! ### TLPs from targets (R247) -/

/-- A TLP of the partner of a downstream port is counted and routed by its downstream bridge. -/
theorem exec_targetTlpWrap {s : State} {p : PortNo} {i : BitVec 12} {t : Tlp} (hwf : t.wellFormed = true) (hport : s.tlpPort p.val false = true) :
    exec (.targetTlpWrap p i t) s = .next ((s.pmon (leadOf p.val) 0x070 0 1).targetTlp p.val t) := by
  change execTargetTlpWrap p i t s = _
  simp only [execTargetTlpWrap, require, hwf, hport, if_true]

/-- A TLP of an instance arrives as a tunnel frame at the native port of its shared endpoint. -/
theorem exec_targetTlpWrap_shared {s : State} {p : PortNo} {i : BitVec 12} {t : Tlp} (hwf : t.wellFormed = true) (hrun : s.running = true)
    (hup : (s.port p.val).nativeUp = true) (hshared : s.actsAs s.policy p.val = 2) (hport : s.tlpPort p.val false = false) :
    exec (.targetTlpWrap p i t) s =
      .next (s.arrive p.val (s.instTunnel p.val i t).hdr.vc (s.instTunnel p.val i t) (s.instTunnel p.val i t).blocks) := by
  change execTargetTlpWrap p i t s = _
  simp only [execTargetTlpWrap, require, hwf, hport, hrun, hup, hshared, decide_true, Bool.and_self, Bool.false_eq_true, if_false, if_true]

/-! ### Configuration and Slot Control (R244, R361) -/

/-- An access that no ENDPOINT binding forwards is emulated, and its reply is kept. -/
theorem exec_configEmulation {s : State} {vh : VhNo} {fn : EmulatedFn} {reg : BitVec 12} {wr : Option (BitVec 32)} {poison : Bool}
    (hreg : reg.toNat % 4 = 0) (hrun : s.running = true) (hfwd : s.forwardCfg vh.val fn (fun bus => forwardedCfg bus reg wr poison) = none) :
    exec (.configEmulation vh fn reg wr poison) s = .next ((s.cfgAccess vh.val (fnNumber fn) reg.toNat wr poison).1.modParts fun x =>
      { x with cfgReply := some (s.cfgAccess vh.val (fnNumber fn) reg.toNat wr poison).2 }) := by
  change execConfigEmulation vh fn reg wr poison s = _
  simp only [execConfigEmulation, require, hreg, hrun, hfwd, decide_true, if_true]

/-- A write of Slot Control reaches the slot registers while mailboxes are served and the booth controller runs. -/
theorem exec_slotControlWrite {s : State} {vh : VhNo} {k : VdspNo} {w : BitVec 16} (ha : s.mgmt.available = true) (hb : s.boothRuns = true) :
    exec (.slotControlWrite vh k w) s = .next (s.slotControl vh.val k.val w) :=
  next_of_guard (by simp only [ha, hb, Bool.and_self])

/-- Slot Control of a vDSP without a channel changes nothing. -/
theorem State.slotControl_unmapped {s : State} {v k : Nat} {w : BitVec 16} (hc : s.vdspChan v k = none) : s.slotControl v k w = s := by
  simp only [State.slotControl, hc]

/-- Power Controller Control powers the channel of its vDSP off or asks for its start, where the host may (Table 10.5). -/
theorem State.slotControl_mapped {s u : State} {v k c : Nat} {w : BitVec 16} (hc : s.vdspChan v k = some c)
    (hu : u = s.modChan c fun x => { x with pcc := w.getLsbD 10, cmdCompleted := true }) :
    s.slotControl v k w = if (u.chan c).set.hostPower = false then u
      else if w.getLsbD 10 then (if (u.chan c).state.powered then u.warnOff c 0x09 else u)
      else if (u.chan c).state = .ready then u.requestStart c else u := by
  subst hu
  simp only [State.slotControl, hc]

/-! ### Resets (R251, R464) -/

/-- A reset of the secondary bus of a vDSP resets its target, and tells of a target to which no reset is signalled. -/
theorem exec_secondaryBusReset {s : State} {vh : VhNo} {k : VdspNo} (hrun : s.running = true) (hk : k.val ∈ s.vdsps vh.val) :
    exec (.secondaryBusReset vh k) s = .next (if (s.resetTarget vh.val k.val).2 = [] then (s.resetTarget vh.val k.val).1
      else (s.resetTarget vh.val k.val).1.evVhReset vh.val (s.resetTarget vh.val k.val).2) :=
  next_of_guard (by simp only [hrun, List.contains_iff_mem.2 hk, Bool.and_self])

/-- A hot reset on the upstream port of a VH resets the hierarchy. -/
theorem exec_hotResetReceive {s : State} {p : PortNo} {v : Nat} (hport : s.tlpPort p.val true = true) (hv : s.vhOf p.val = some v) :
    exec (.hotResetReceive p) s = .next (s.vhReset v) := by
  change execHotResetReceive p s = _
  simp only [execHotResetReceive, hport, hv, if_true]

/-! ### Completions (R250) -/

section Completion

variable {s : State} {p : PortNo} {f : Frame} (hwf : f.wellFormed = true) (hrun : s.running = true) (hpcie : (s.port p.val).pcie = true)
  (hup : (s.port p.val).linkUp = true) (hk : f.hdr.kind = .completion)
include hwf hrun hpcie hup hk

/-- A completion that stands in an egress queue of a port leaves the queue. -/
theorem exec_completionUnwrap_queued {uid : Nat} (hq : s.queuedFrame p.val f = some uid) :
    exec (.completionUnwrap p f) s = .next ((s.discard uid).cplToPort p.val f) := by
  change execCompletionUnwrap p f s = _
  simp only [execCompletionUnwrap, require, hwf, hrun, hpcie, hup, hk, hq, decide_true, Bool.and_self, if_true]

/-- A completion that stands in no queue of a port is unwrapped as it is. -/
theorem exec_completionUnwrap_unqueued (hq : s.queuedFrame p.val f = none) :
    exec (.completionUnwrap p f) s = .next (s.cplToPort p.val f) := by
  change execCompletionUnwrap p f s = _
  simp only [execCompletionUnwrap, require, hwf, hrun, hpcie, hup, hk, hq, decide_true, Bool.and_self, if_true]

end Completion

/-- The last completion TLP for a tag in use is sent, and frees the tag. -/
theorem State.cplToPort_ends {s : State} {p : Nat} {f : Frame} {u : TagUse} {t : Tlp} (hu : s.tagUse f.hdr.dst f.hdr.tag = some u)
    (hdst : u.dst = f.hdr.src) (ht : f.tlp = some t) (hend : endsRequest f = true) :
    s.cplToPort p f = (s.sendTlp p { t with ep := t.ep || f.hdr.poison }).setTag f.hdr.dst f.hdr.tag none := by
  simp only [State.cplToPort, hu, hdst, ht, hend, ne_eq, not_true_eq_false, if_false, if_true]

/-! ### The events together -/

/-- Settles O37: every event acts on a port or a VH that its row asks for, and its operation comes to the case of its row. -/
theorem virtualEventsAct : Obligations.VirtualEventsAct := by
  unfold Obligations.VirtualEventsAct
  refine ⟨?hostRequest,
    fun s p t u v hwf hport hu hv => exec_hostTlpWrap hwf hport hu hv,
    fun s p t u hwf hport hu hv => exec_hostTlpWrap_noVh hwf hport hu hv,
    fun s p i t hwf hport => exec_targetTlpWrap hwf hport,
    ?targetShared,
    fun s vh fn reg wr poison hreg hrun hfwd => exec_configEmulation hreg hrun hfwd,
    ?slotUnmapped, ?slotMapped,
    fun s vh k hrun hk => exec_secondaryBusReset hrun hk,
    fun s p v hport hv => exec_hotResetReceive hport hv,
    fun s p f uid hwf hrun hpcie hup hk hq => exec_completionUnwrap_queued hwf hrun hpcie hup hk hq,
    ?completionEnds⟩
  case hostRequest =>
    intro s p t u v hwf hport hu hv hk
    rw [exec_hostTlpWrap hwf hport hu hv, State.hostTlp_request hk]
  case targetShared =>
    rintro s p i t _ hwf hrun hup hshared hport rfl
    exact exec_targetTlpWrap_shared hwf hrun hup hshared hport
  case slotUnmapped =>
    intro s vh k w ha hb hc
    rw [exec_slotControlWrite ha hb, State.slotControl_unmapped hc]
  case slotMapped =>
    intro s vh k w c u ha hb hc hu
    rw [exec_slotControlWrite ha hb, State.slotControl_mapped hc hu]
  case completionEnds =>
    intro s p f u t hwf hrun hpcie hup hk hq hu hdst ht hend
    rw [exec_completionUnwrap_unqueued hwf hrun hpcie hup hk hq, State.cplToPort_ends hu hdst ht hend]

end Sys2Proof.Machine

/-! SUPPORT. O14: the commands of group 0x08. -/

namespace Sys2Proof.Machine

/-! ### What the body of a group 0x08 command reads after the lease is renewed -/

@[simp] theorem State.begun_engineNeeds (s : State) (n : Nat) : (s.begun n).engineNeeds = s.engineNeeds := rfl
@[simp] theorem State.begun_hasJuggler (s : State) (n pu : Nat) (o : BitVec 8) : (s.begun n).hasJuggler pu o = s.hasJuggler pu o := rfl
@[simp] theorem State.begun_moverRing (s : State) (n id : Nat) : (s.begun n).moverRing id = s.moverRing id := rfl
@[simp] theorem State.begun_ringOwner (s : State) (n : Nat) (r : MoverRing) : (s.begun n).ringOwner r = s.ringOwner r := rfl
@[simp] theorem State.begun_ringsWith (s : State) (n : Nat) (t : MoverRing → Bool) : (s.begun n).ringsWith t = s.ringsWith t := rfl
@[simp] theorem State.begun_ringsOn (s : State) (n j : Nat) : (s.begun n).ringsOn j = s.ringsOn j := rfl
@[simp] theorem State.begun_eligible (s : State) (n p : Nat) (o : BitVec 8) : (s.begun n).eligible p o = s.eligible p o := rfl
@[simp] theorem State.begun_placeOn (s : State) (n p : Nat) (o : BitVec 8) : (s.begun n).placeOn p o = s.placeOn p o := rfl

/-! ### The ring that a command names (R304) -/

/-- A command that names a ring of an owner whom its mailbox may name acts on that ring. -/
theorem State.onRing_named {s : State} {n id : Nat} {r : MoverRing} {k : MoverRing → CmdResult} (hr : s.moverRing id = some r)
    (hm : s.mayName n (s.ringOwner r) = true) : s.onRing n id k = k r := by
  simp only [State.onRing, hr, hm, if_true]

/-- It does so once the lease is renewed. -/
theorem State.Admits.onRing {s : State} {c : CmdSpec} {n pl id : Nat} {r : MoverRing} {k : MoverRing → CmdResult} (h : s.Admits c n pl)
    (hr : s.moverRing id = some r) (hm : s.mayName n (s.ringOwner r) = true) : (s.begun n).onRing n id k = k r :=
  State.onRing_named hr (h.mayName_begun hm)

/-- A privileged command may name every ring. -/
theorem State.Admits.onRing_privileged {s : State} {c : CmdSpec} {n pl id : Nat} {r : MoverRing} {k : MoverRing → CmdResult}
    (h : s.Admits c n pl) (hc : c.priv = true) (hr : s.moverRing id = some r) : (s.begun n).onRing n id k = k r :=
  h.onRing hr (State.mayName_privileged (h.privilegedMb hc) _)

/-! ### The commands together -/

/-- Settles O14: every command finds the ring or the Juggler that its payload names, in a state that its row asks for. -/
theorem jugglerCommandsAct : Obligations.JugglerCommandsAct := by
  unfold Obligations.JugglerCommandsAct
  refine ⟨?alloc,
    fun s mb pl h => obeys_of h rfl rfl,
    ?setOld, ?setNew, ?start, ?stop, ?reset,
    fun s mb pl r h hr hm => obeys_of h rfl (h.onRing hr hm),
    ?place, ?countersOfJuggler, ?countersOfRing⟩
  case alloc =>
    rintro s mb pl _ s2 h rfl hkept hmoved
    refine obeys_of h rfl ?_
    simp only [State.begun_engineNeeds, State.begun_hasJuggler, hkept, hmoved, Bool.false_eq_true, if_false]
  case setOld =>
    rintro s mb pl p id r x _ h hi hshare hring hx hnotRunning hnotStopping rfl
    have hidle : ¬(x.state = .running ∨ x.state = .stopping) := not_or.2 ⟨hnotRunning, hnotStopping⟩
    refine obeys_of h rfl ((h.onInst hi).trans ((if_neg (Nat.not_le.2 hshare)).trans ?_))
    simp only [State.begun_ringsWith, State.begun_moverRing, hring, hx, if_neg hidle]
    cases State.moverRing _ id <;> rfl
  case setNew =>
    intro s mb pl p id j r h hi hshare hnone hid hj
    refine obeys_of h rfl ((h.onInst hi).trans ((if_neg (Nat.not_le.2 hshare)).trans ?_))
    simp only [State.begun_ringsWith, State.begun_moverRing, State.begun_placeOn, hnone, List.head?_nil, hid, hj]
  case start =>
    intro s mb pl r h hr hm hop hstopped
    refine obeys_of h rfl ((h.onRing hr hm).trans ?_)
    simp only [hop, hstopped, if_true]
  case stop =>
    intro s mb pl r h hr hm hop hrunning
    refine obeys_of h rfl ((h.onRing hr hm).trans ?_)
    simp only [hop, hrunning, if_true]
  case reset =>
    intro s mb pl r h hr hm hop hended
    refine obeys_of h rfl ((h.onRing hr hm).trans ?_)
    simp only [hop, hended, if_true]
  case place =>
    intro s mb pl r h hr heligible hroom
    refine obeys_of h rfl ((h.onRing_privileged rfl hr).trans ?_)
    simp only [State.begun_eligible, State.begun_ringOwner, State.begun_ringsOn, heligible, hroom, decide_true, Bool.and_self, if_true]
  case countersOfJuggler =>
    rintro s mb pl _ h hmb hkind rfl
    refine obeys_of h rfl ((if_pos hkind).trans (if_neg ?_))
    simp only [hmb, Bool.true_eq_false, not_false_eq_true]
  case countersOfRing =>
    intro s mb pl r h hkind hr hm
    exact obeys_of h rfl ((if_neg (Bool.eq_false_iff.1 hkind)).trans (h.onRing hr hm))

end Sys2Proof.Machine

/-! SUPPORT. O39: the cycles of other masters, the timers and events of the heritage buses, and the side-band pins. -/

namespace Sys2Proof.Machine

/-! ### Cycles of other masters (R316, R324, R325, R329) -/

/-- At a live port the window that claims a cycle acts on it, once the burst that the cycle does not continue has ended; one of no window is not answered. -/
theorem State.claimCycle_live {s u : State} {x : PwPort} {c : BusCycle} {act : State → Nat → PwWindow → State} (hlive : s.pwLive x = true)
    (hu : u = if c.continued then s else (s.closeWrite x).dropPrefetch x (·.inbound)) :
    s.claimCycle x c act = ((u.pw x).inMatch c).elim (u.modPw x fun p => { p with answer := .none_ }) fun e => act u e.1 e.2 := by
  simp only [State.claimCycle, hlive, Bool.true_eq_false, if_false, ← hu]
  cases (u.pw x).inMatch c <;> rfl

section Cycle

variable {s u : State} {x : PwPort} {c : BusCycle} (hwf : c.wellFormed = true) (hlive : s.pwLive x = true)
  (hu : u = if c.continued then s else (s.closeWrite x).dropPrefetch x (·.inbound))
include hwf hlive hu

/-- A cycle that a window claims acts by its kind (R316). -/
theorem exec_inboundCycleClaim : exec (.inboundCycleClaim x c) s =
    .next (((u.pw x).inMatch c).elim (u.modPw x fun p => { p with answer := .none_ }) fun e => if c.rmw then u.claimRmw x e.1 e.2 c
      else if c.write then u.claimWrite x e.1 e.2 c else u.claimRead x e.1 e.2 c) := by
  change execInboundCycleClaim x c s = _
  simp only [execInboundCycleClaim, require, hwf, if_true, State.claimCycle_live hlive hu]

/-- A write is merged or sent (R329). -/
theorem exec_inboundWrite (hw : c.write = true) (hrmw : c.rmw = false) : exec (.inboundWrite x c) s =
    .next (((u.pw x).inMatch c).elim (u.modPw x fun p => { p with answer := .none_ }) fun e => u.claimWrite x e.1 e.2 c) := by
  change execInboundWrite x c s = _
  simp only [execInboundWrite, require, hwf, hw, hrmw, Bool.not_false, Bool.and_self, if_true, State.claimCycle_live hlive hu]

/-- A read is answered or issued (R325). -/
theorem exec_inboundRead (hw : c.write = false) (hrmw : c.rmw = false) : exec (.inboundRead x c) s =
    .next (((u.pw x).inMatch c).elim (u.modPw x fun p => { p with answer := .none_ }) fun e => u.claimRead x e.1 e.2 c) := by
  change execInboundRead x c s = _
  simp only [execInboundRead, require, hwf, hw, hrmw, Bool.not_false, Bool.and_self, if_true, State.claimCycle_live hlive hu]

/-- A VMEbus read-modify-write is a read and a posted write (R324). -/
theorem exec_inboundRmw (hrmw : c.rmw = true) (hvme : (s.pw x).personality = .vme) : exec (.inboundRmw x c) s =
    .next (((u.pw x).inMatch c).elim (u.modPw x fun p => { p with answer := .none_ }) fun e => u.claimRmw x e.1 e.2 c) := by
  change execInboundRmw x c s = _
  simp only [execInboundRmw, require, hwf, hrmw, hvme, Bool.and_self, if_true, State.claimCycle_live hlive hu]

/-- A repeat of a PCI delayed read is a read (R325). -/
theorem exec_pciDelayedRepeat (hw : c.write = false) (hrmw : c.rmw = false) (hpci : (s.pw x).personality = .pci) :
    exec (.pciDelayedRepeat x c) s =
      .next (((u.pw x).inMatch c).elim (u.modPw x fun p => { p with answer := .none_ }) fun e => u.claimRead x e.1 e.2 c) := by
  change execPciDelayedRepeat x c s = _
  simp only [execPciDelayedRepeat, require, hwf, hw, hrmw, hpci, Bool.not_false, Bool.and_self, if_true, State.claimCycle_live hlive hu]

end Cycle

/-! ### Entries, blocked reads and prefetch buffers (R325, R327, R330) -/

/-- Delayed read data that no master collects is discarded and counted (R325). -/
theorem exec_delayedDiscardTimeout {s : State} {x : PwPort} {e : BitVec 8} {y : PwEntry} {err : Bool}
    (hy : Tab.get none (s.pw x).entries e.toNat = some y) (hready : y.state = .ready err) :
    exec (.delayedDiscardTimeout x e) s =
      .next ((s.dropEntry x e.toNat).countPw x fun c => { c with delayedDiscard := inc48 c.delayedDiscard }) := by
  change execDelayedDiscardTimeout x e s = _
  simp only [execDelayedDiscardTimeout, hy, hready]

/-- A VMEbus port whose held read keeps its own cycles from the bus for YIELD_TIME gives the read up, or, without YIELD, tells of it once (R330). -/
theorem exec_yieldTimeout {s : State} {x : PwPort} {e : Nat} {y : PwEntry} (ns : BitVec 32) (hheld : (s.pw x).heldRead = some (e, y))
    (hvme : (s.pw x).personality = .vme) (hstore : (s.pw x).store ≠ []) (hseq : (s.pw x).sequence = none) : exec (.yieldTimeout x ns) s =
    .next (if (s.pw x).yieldOn then (s.giveUpRead x e y true).countPw x fun c => { c with yields := inc48 c.yields }
      else if (s.pw x).crossed then s
      else (s.modPw x fun p => { p with crossed := true }).raise 0x0900 [(pwIdx x, 1), (y.window, 1), (ns.toNat, 8)] [s.pwOwner x]) := by
  have hblocked : ¬((s.pw x).personality ≠ .vme ∨ (s.pw x).store = [] ∨ (s.pw x).sequence.isSome = true) := by
    rintro (h | h | h)
    · exact h hvme
    · exact hstore h
    · simp only [hseq, Option.isSome_none, Bool.false_eq_true] at h
  change execYieldTimeout x ns s = _
  simp only [execYieldTimeout, hheld, if_neg hblocked]
  split
  · rfl
  · split <;> rfl

/-- A buffer whose PREFETCH_HOLD passes is dropped (R327). -/
theorem exec_prefetchHoldExpiry {s : State} {x : PwPort} {n : BitVec 5} {b : PwPrefetch} (hb : (s.pw x).prefetch[n.toNat]? = some b) :
    exec (.prefetchHoldExpiry x n) s = .next (s.dropPrefetch x fun y => decide (y = b)) := by
  change execPrefetchHoldExpiry x n s = _
  simp only [execPrefetchHoldExpiry, hb]

/-- A write on the bus of a live port drops the buffers that it overlaps (R327). -/
theorem exec_busWriteObserved {s : State} {x : PwPort} {n : Nat} (sp : BitVec 2) (a : BitVec 64) (hn : 1 ≤ n) (hlive : s.pwLive x = true) :
    exec (.busWriteObserved x sp a n) s = .next (s.busWrite x sp a.toNat n) := by
  change execBusWriteObserved x sp a n s = _
  simp only [execBusWriteObserved, require, hn, hlive, decide_true, if_true]

/-! ### Supply and bus timer (R332) -/

/-- The loss of VDD_HB ends the port's work, is reported and raises EV_PW_SUPPLY. -/
theorem exec_vddHbLoss {s : State} {x : PwPort} (hv : (s.pw x).vddHb = true) (hrun : s.running = true) :
    exec (.vddHbLoss x) s =
      .next ((((s.pwEndWork x false).report (pwSource x) 0x05 0).modPw x fun p => { p with vddHb := false }).evSupply x) := by
  change execVddHbLoss x s = _
  simp only [execVddHbLoss, hv, hrun, Bool.true_eq_false, if_false, if_true]

section BusTimer

variable {s : State} {x : PwPort} (hlive : s.pwLive x = true) (hvme : (s.pw x).personality = .vme) (hsys : (s.pw x).syscon = true)
include hlive hvme hsys

/-- A system controller's timer watches the bus. -/
theorem busTimer_watches : ¬(s.pwLive x = false ∨ (s.pw x).personality ≠ .vme ∨ (s.pw x).syscon = false) := by
  simp only [hlive, hvme, hsys, Bool.true_eq_false, ne_eq, not_true_eq_false, or_self, not_false_eq_true]

/-- The bus timer ends the cycle of the port's own sequence. -/
theorem exec_busTimerExpiry_sequence {q : PwSeq} (hq : (s.pw x).sequence = some q) :
    exec (.busTimerExpiry x) s = .next ((s.report (pwSource x) 0x04 (BitVec.ofNat 64 q.record.window)).endCycle x .noResponse []) := by
  change execBusTimerExpiry x s = _
  simp only [execBusTimerExpiry, if_neg (busTimer_watches hlive hvme hsys), hq]

/-- The bus timer ends a read that the port holds on the bus. -/
theorem exec_busTimerExpiry_held {e : Nat} {y : PwEntry} (hq : (s.pw x).sequence = none) (hheld : (s.pw x).heldRead = some (e, y)) :
    exec (.busTimerExpiry x) s = .next ((s.report (pwSource x) 0x04 (BitVec.ofNat 64 y.window)).giveUpRead x e y false) := by
  change execBusTimerExpiry x s = _
  simp only [execBusTimerExpiry, if_neg (busTimer_watches hlive hvme hsys), hq, hheld]

end BusTimer

/-! ### Configuration cycles of the bus host (R316) -/

section DeviceConfig

variable {s u : State} {x : PwPort} {reg : BitVec 8} (hreg : reg.toNat % 4 = 0) (hlive : s.pwLive x = true)
  (hpci : (s.pw x).personality = .pci) (hdev : (s.pw x).hostBridge = false) (hu : u = (s.closeWrite x).dropPrefetch x (·.inbound))
include hlive hpci hdev

/-- A PCI port that is no host bridge has a device function. -/
theorem deviceFunction_answers : ¬(s.pwLive x = false ∨ (s.pw x).personality ≠ .pci ∨ (s.pw x).hostBridge = true) := by
  simp only [hlive, hpci, hdev, Bool.true_eq_false, Bool.false_eq_true, ne_eq, not_true_eq_false, or_self, not_false_eq_true]

include hreg hu

/-- A read returns the register of the device function. -/
theorem exec_deviceConfigCycle_read : exec (.deviceConfigCycle x reg none) s =
    .next (u.answerBus x (.data (bytesOf 4 ((s.pw x).deviceReg reg.toNat).toNat))) := by
  subst hu
  change execDeviceConfigCycle x reg none s = _
  simp only [execDeviceConfigCycle, require, hreg, decide_true, if_true, if_neg (deviceFunction_answers hlive hpci hdev)]

/-- A write to Command enables or disables the tied windows, one to a BAR moves its window, and each drops what they had prefetched. -/
theorem exec_deviceConfigCycle_write (v : BitVec 32) : exec (.deviceConfigCycle x reg (some v)) s =
    .next (if reg = 0x04 then ((u.dropPrefetch x fun b => decide (((s.pw x).window b.window).bar ≠ 0)).answerBus x .acknowledged).modPw x fun p =>
        { p with memEnable := v.getLsbD 1 }
      else if 0x10 ≤ reg.toNat ∧ reg.toNat < 0x28 then
        ((u.dropPrefetch x fun b => decide (((s.pw x).window b.window).bar ≠ 0)).answerBus x .acknowledged).modPw x fun p =>
          { p with bars := setAt p.bars ((reg.toNat - 0x10) / 4) (v &&& p.barMask ((reg.toNat - 0x10) / 4)) }
      else u.answerBus x .acknowledged) := by
  subst hu
  change execDeviceConfigCycle x reg (some v) s = _
  simp only [execDeviceConfigCycle, require, hreg, decide_true, if_true, if_neg (deviceFunction_answers hlive hpci hdev)]
  split
  · rfl
  · split <;> rfl

end DeviceConfig

/-! ### The events together -/

/-- Settles O39: every event acts on a port whose bus, entries or supply stand as its row asks; a pin of the host or the heritage side changes its own bit. -/
theorem patchworkBusSideActs : Obligations.PatchworkBusSideActs := by
  unfold Obligations.PatchworkBusSideActs
  refine ⟨fun s x c u hwf hlive hu => exec_inboundCycleClaim hwf hlive hu,
    fun s x c u hwf hw hrmw hlive hu => exec_inboundWrite hwf hlive hu hw hrmw,
    fun s x c u hwf hw hrmw hlive hu => exec_inboundRead hwf hlive hu hw hrmw,
    fun s x c u hwf hrmw hvme hlive hu => exec_inboundRmw hwf hlive hu hrmw hvme,
    fun s x c u hwf hw hrmw hpci hlive hu => exec_pciDelayedRepeat hwf hlive hu hw hrmw hpci,
    fun s x e y err hy hready => exec_delayedDiscardTimeout hy hready,
    ?yields, ?blocked,
    fun s x n b hb => exec_prefetchHoldExpiry hb,
    fun s x sp a n hn hlive => exec_busWriteObserved sp a hn hlive,
    fun s x hlive => next_of_guard hlive,
    fun s x => rfl,
    ?supplyLost, ?supplyReturns,
    fun s x q hlive hvme hsys hq => exec_busTimerExpiry_sequence hlive hvme hsys hq,
    fun s x e y hlive hvme hsys hq hheld => exec_busTimerExpiry_held hlive hvme hsys hq hheld,
    ?configRead, ?configWrite, ?hostPin, ?heritagePin⟩
  case yields =>
    intro s x ns e y hheld hvme hstore hseq hon
    rw [exec_yieldTimeout ns hheld hvme hstore hseq, if_pos hon]
  case blocked =>
    intro s x ns e y hheld hvme hstore hseq hoff hnew
    rw [exec_yieldTimeout ns hheld hvme hstore hseq, if_neg (Bool.eq_false_iff.1 hoff), if_neg (Bool.eq_false_iff.1 hnew)]
  case supplyLost =>
    rintro s x _ hv hrun rfl
    exact exec_vddHbLoss hv hrun
  case supplyReturns =>
    rintro s x five _ hv rfl
    exact if_neg (Bool.eq_false_iff.1 hv)
  case configRead =>
    rintro s x reg _ u hreg hlive hpci hdev hu rfl
    exact exec_deviceConfigCycle_read hreg hlive hpci hdev hu
  case configWrite =>
    rintro s x reg _ u v hreg hlive hpci hdev hu rfl
    exact exec_deviceConfigCycle_write hreg hlive hpci hdev hu v
  case hostPin =>
    rintro s _ asserted n rfl
    rfl
  case heritagePin =>
    rintro s _ asserted n rfl
    rfl

end Sys2Proof.Machine

/-! SUPPORT. O15: the commands of group 0x09. -/

namespace Sys2Proof.Machine

/-! ### What the body of a Patchwork command reads after the lease is renewed -/

/-- Renewing a lease changes no Patchwork port. -/
@[simp] theorem State.begun_pw (s : State) (n : Nat) (x : PwPort) : (s.begun n).pw x = s.pw x := rfl

/-- A command that names a Patchwork port of an owner whom its mailbox may name acts on that port once the lease is renewed (R339). -/
theorem State.Admits.onPw {s : State} {c : CmdSpec} {n pl : Nat} {b : Bool} {k : PwPort → CmdResult} (h : s.Admits c n pl)
    (hm : s.mayName n (s.pwOwner (pwOf b)) = true) : (s.begun n).onPw n b k = k (pwOf b) :=
  if_pos (h.mayName_begun hm)

/-! ### The commands together -/

/-- Settles O15: every command acts on the Patchwork port, PU or wire that its payload names, and passes the checks of its own body there. -/
theorem patchworkCommandsAct : Obligations.PatchworkCommandsAct := by
  unfold Obligations.PatchworkCommandsAct
  refine ⟨?config,
    fun s mb pl h hhome => obeys_of h rfl (if_pos hhome),
    ?windowSet,
    fun s mb pl h hm => obeys_of h rfl (h.onPw hm),
    ?query,
    ?sidebandSet,
    fun s mb pl h => obeys_of h rfl rfl,
    ?busReset, ?countersRead⟩
  case config =>
    intro s mb pl x e h hx he hunfenced huntested hkept hfit
    have hsame : ¬((s.pw x).personality ≠ .disabled ∧ e ≠ .disabled ∧
        (e ≠ (s.pw x).personality ∨ bitOf pl 3 ≠ (s.pw x).syscon ∨ bitOf pl 4 ≠ (s.pw x).hostBridge)) := by
      rintro ⟨hwas, hwill, hchange⟩
      obtain ⟨hpersonality, hsyscon, hbridge⟩ := hkept hwas hwill
      exact hchange.elim (· hpersonality) (·.elim (· hsyscon) (· hbridge))
    have husable : ¬(e ≠ .disabled ∧ (s.pw x).personality = .disabled ∧ s.marked (pwUnit x) = true) := by
      rintro ⟨hwill, hwas, hmarked⟩
      exact Bool.eq_false_iff.1 ((hfit hwill).2 hwas) hmarked
    have hsupplied : ¬(e ≠ .disabled ∧ (s.pw x).vddHb = false) := by
      rintro ⟨hwill, habsent⟩
      exact Bool.eq_false_iff.1 habsent (hfit hwill).1
    subst hx he
    exact obeys_of h rfl ((if_neg (Bool.eq_false_iff.1 hunfenced)).trans ((if_neg (Bool.eq_false_iff.1 huntested)).trans
      ((if_neg hsame).trans ((if_neg husable).trans (if_neg hsupplied)))))
  case windowSet =>
    rintro s mb pl x w h rfl rfl hok
    refine obeys_of h rfl ?_
    simp only [State.begun_pw, PwWindow.ofPayload, hok]
  case query =>
    rintro s mb pl p h rfl hm
    refine obeys_of h rfl ((h.onPw hm).trans ?_)
    simp only [State.begun_pw]
    cases (s.pw (pwOf (bitOf pl 0))).personality <;> rfl
  case sidebandSet =>
    rintro s mb pl w h rfl
    exact obeys_of h rfl rfl
  case busReset =>
    intro s mb pl x h hx hpersonality hcentral
    have hdrives : ¬((s.pw x).personality = .disabled ∨ ((s.pw x).syscon = false ∧ (s.pw x).hostBridge = false)) := by
      rintro (hdisabled | ⟨hsyscon, hbridge⟩)
      · exact hpersonality hdisabled
      · simp only [hsyscon, hbridge, Bool.or_self, Bool.false_eq_true] at hcentral
    subst hx
    exact obeys_of h rfl (if_neg hdrives)
  case countersRead =>
    rintro s mb pl c h rfl hm
    exact obeys_of h rfl (h.onPw hm)

end Sys2Proof.Machine

/-! SUPPORT. O16: the commands of group 0x0A. -/

namespace Sys2Proof.Machine

/-! ### Group 0x0A and the booth controller (Table 14.9) -/

/-- While the booth controller runs a command of the group is run as any other. -/
theorem runSlot_running {s : State} (c : CmdSpec) (body : State → Nat → Nat → CmdResult) (n : Nat) (hrun : s.slots.restarting = false) :
    runSlot c body n s = runCmd c body n s :=
  if_neg (Bool.eq_false_iff.1 hrun)

/-- While it restarts the command stays in its mailbox. -/
theorem runSlot_restarting {s : State} (c : CmdSpec) (body : State → Nat → Nat → CmdResult) (n : Nat) (hwait : s.slots.restarting = true) :
    runSlot c body n s = s :=
  if_pos hwait

/-- What has to be shown of a command of the group that is in order: what its own body comes to. -/
theorem obeys_of_runSlot {c : CmdSpec} {body : State → Nat → Nat → CmdResult} {i : Instr} {n pl : Nat} {s t : State} {resp : List Byte}
    (h : s.Admits c n pl) (hi : exec i s = .next (runSlot c body n s)) (hrun : s.slots.restarting = false)
    (hb : body (s.begun n) pl (s.mbox n).cmdHdr.length = .done t resp) : Obeys i s n t resp :=
  obeys_of h (hi.trans (congrArg Host.Outcome.next (runSlot_running c body n hrun))) hb

/-! ### What the body of a group 0x0A command reads after the lease is renewed -/

@[simp] theorem State.begun_chan (s : State) (n c : Nat) : (s.begun n).chan c = s.chan c := rfl
@[simp] theorem State.begun_portsOfSlot (s : State) (n c : Nat) : (s.begun n).portsOfSlot c = s.portsOfSlot c := rfl
@[simp] theorem State.begun_portOwner (s : State) (n p : Nat) : (s.begun n).portOwner p = s.portOwner p := rfl

/-- A command acts on a channel that its mailbox may name: any for a privileged one, else that of a port whose owner it may name (R365). -/
theorem State.Admits.onChan {s : State} {cmd : CmdSpec} {n pl c : Nat} {k : CmdResult} (h : s.Admits cmd n pl)
    (hm : (Machine.privilegedMb n || (s.portsOfSlot c).any fun p => s.mayName n (s.portOwner p)) = true) : (s.begun n).onChan n c k = k := by
  obtain ⟨hbusy, -⟩ := h
  refine if_pos ?_
  simp only [State.begun_portsOfSlot, State.begun_portOwner, State.mayName_begun hbusy, hm]

/-! ### SLOT_POWER (R367, Table 10.4) -/

section SlotPower

variable {s : State} {c : Nat}

/-- ON asks for the start of a channel that is READY, and leaves one that has power. -/
theorem State.slotPower_on (hg : (s.chan c).state = .ready ∨ (s.chan c).state.powered = true) :
    s.slotPower c 0 = .done (if (s.chan c).state = .ready then s.requestStart c else s) [] := by
  by_cases hready : (s.chan c).state = .ready
  · simp only [State.slotPower, hready, if_true]
  · simp only [State.slotPower, hready, hg.resolve_left hready, if_false, if_true]

/-- OFF zeroes the retry count and turns a channel off that has power or waits for its retry. -/
theorem State.slotPower_off : s.slotPower c 1 = .done
    (if (s.chan c).state.powered then (s.modChan c fun x => { x with retry := 0 }).warnOff c scCommand
      else if (s.chan c).state = .retryWait then (s.modChan c fun x => { x with retry := 0 }).chanTo c .ready scCommand else s) [] := by
  simp only [State.slotPower]
  split
  · rfl
  · split <;> rfl

/-- CLEAR of a latched channel. -/
theorem State.slotPower_clear (hg : (s.chan c).state = .latched) : s.slotPower c 2 =
    .done (((s.modChan c fun x => { x with retry := 0 }).chanTo c .ready scCommand).autoStart c) [] :=
  if_pos hg

/-- CLEAR_LOCKOUT of a channel in LOCKOUT. -/
theorem State.slotPower_clearLockout (hg : (s.chan c).state = .lockout) : s.slotPower c 3 = .done (s.clearLockout c) [] :=
  if_pos hg

/-- RETRY_NOW of a channel in RETRY_WAIT. -/
theorem State.slotPower_retryNow (hg : (s.chan c).state = .retryWait) :
    s.slotPower c 4 = .done ((s.chanTo c .ready scCommand).requestStart c) [] :=
  if_pos hg

end SlotPower

/-! ### The commands together -/

/-- Settles O16: every command of the group acts on the channel or the bus settings that its payload names, in a state that its row asks for,
and during a booth restart none runs. -/
theorem slotCommandsAct : Obligations.SlotCommandsAct := by
  unfold Obligations.SlotCommandsAct
  refine ⟨?config, ?on, ?off,
    fun s mb pl h hrun hact hg => obeys_of_runSlot h rfl hrun ((congrArg _ hact).trans (State.slotPower_clear hg)),
    fun s mb pl h hrun hact hg => obeys_of_runSlot h rfl hrun ((congrArg _ hact).trans (State.slotPower_clearLockout hg)),
    fun s mb pl h hrun hact hg => obeys_of_runSlot h rfl hrun ((congrArg _ hact).trans (State.slotPower_retryNow hg)),
    ?query, ?busConfig,
    fun s mb pl h hrun => obeys_of_runSlot h rfl hrun rfl,
    fun s mb pl h hrun hmapped => obeys_of_runSlot h rfl hrun (if_pos hmapped),
    ?profileSave, ?busCounters, ?chanCounters, ?waits⟩
  case config =>
    rintro s mb pl _ h hrun rfl
    exact obeys_of_runSlot h rfl hrun rfl
  case on =>
    rintro s mb pl _ h hrun rfl hact hg
    exact obeys_of_runSlot h rfl hrun ((congrArg _ hact).trans (State.slotPower_on hg))
  case off =>
    rintro s mb pl _ h hrun rfl hact
    exact obeys_of_runSlot h rfl hrun ((congrArg _ hact).trans State.slotPower_off)
  case query =>
    rintro s mb pl _ h hrun rfl hm
    exact obeys_of_runSlot h rfl hrun (h.onChan hm)
  case busConfig =>
    rintro s mb pl _ _ h hrun rfl rfl hapart
    exact obeys_of_runSlot h rfl hrun (if_neg (Nat.not_lt.2 hapart))
  case profileSave =>
    intro s mb pl h hrun
    refine obeys_of_runSlot h rfl hrun ?_
    simp only [State.modSlots, State.begun_slots, State.begun_chan]
    cases s.slots.profile <;> rfl
  case busCounters =>
    intro s mb pl h hrun hbus hmb
    exact obeys_of_runSlot h rfl hrun ((if_pos hbus).trans (if_pos hmb))
  case chanCounters =>
    rintro s mb pl _ h hrun hchan rfl hm
    exact obeys_of_runSlot h rfl hrun ((if_neg (Bool.eq_false_iff.1 hchan)).trans (h.onChan hm))
  case waits =>
    intro s mb c hwait hc
    simp only [List.mem_cons, List.not_mem_nil, or_false] at hc
    obtain rfl | rfl | rfl | rfl | rfl | rfl | rfl | rfl := hc <;> exact congrArg Host.Outcome.next (runSlot_restarting _ _ _ hwait)

end Sys2Proof.Machine

/-! SUPPORT. O40: presence, start, trips, retries and turn-offs of a slot channel. -/

namespace Sys2Proof.Machine

/-! ### Where an event of a channel acts -/

/-- An event of a channel acts while the booth controller runs and the channel is in a state that the event asks for. -/
theorem State.chanEvent_acts {s : State} {c : Nat} {ok : ChanState → Bool} {f : State → State} (hrun : s.boothRuns = true)
    (hok : ok (s.chan c).state = true) : s.chanEvent c ok f = .next (f s) :=
  next_of_guard (by simp only [hrun, hok, Bool.and_self])

/-- An event that asks for one state acts in that state. -/
theorem State.chanEvent_in {s : State} {c : Nat} {g : ChanState} {f : State → State} (hrun : s.boothRuns = true)
    (hg : (s.chan c).state = g) : s.chanEvent c (· == g) f = .next (f s) :=
  State.chanEvent_acts hrun (beq_iff_eq.2 hg)

/-- The powered states are PRECHARGE, GATE_RISE, STABILISING and ON (R348). -/
theorem ChanState.powered_iff (g : ChanState) : g.powered = true ↔ g = .precharge ∨ g = .gateRise ∨ g = .stabilising ∨ g = .on := by
  simp only [ChanState.powered, ChanState.starting, Bool.or_eq_true, beq_iff_eq, or_assoc]

/-! ### Presence (R352, R353) -/

section Presence

variable {s u : State} {c : Nat}

/-- The booth controller samples PRSNT_N in every state of a channel. -/
theorem exec_presenceChange {c : ChanNo} {high : Bool} (hrun : s.boothRuns = true) :
    exec (.presenceChange c high) s = .next (s.presenceLevel c.val high) := by
  change execPresenceChange c high s = _
  exact State.chanEvent_acts hrun rfl

/-- A level that PRSNT_N has already changes nothing. -/
theorem State.presenceLevel_same {high : Bool} (h : (s.chan c).prsntHigh = high) : s.presenceLevel c high = s := if_pos h

/-- PRSNT_N goes high: PFW_N is asserted where the channel has power, and INSERTING ends in EMPTY. -/
theorem State.presenceLevel_rises (h : (s.chan c).prsntHigh = false)
    (hu : u = s.modChan c fun x => { x with prsntHigh := true, absent := false, pfwPresence := x.pfwPresence || x.state.powered }) :
    s.presenceLevel c true = if (s.chan c).state = .inserting then u.chanTo c .empty 0 else u := by
  subst hu
  simp only [State.presenceLevel, h, Bool.false_eq_true, if_false, if_true]

/-- PRSNT_N goes low: a high level too short for an absence is counted, and EMPTY goes to INSERTING. -/
theorem State.presenceLevel_falls (h : (s.chan c).prsntHigh = true)
    (hu : u = s.modChan c fun x => { x with
      prsntHigh := false, absent := false
      counters := if x.absent then x.counters else { x.counters with shortAbsences := inc48 x.counters.shortAbsences } }) :
    s.presenceLevel c false = if (s.chan c).state = .empty then u.chanTo c .inserting 0 else u := by
  subst hu
  simp only [State.presenceLevel, h, Bool.true_eq_false, Bool.false_eq_true, if_false]

/-- Absence is declared of a channel that the controller holds present. -/
theorem exec_absenceDeclared {c : ChanNo} (hrun : s.boothRuns = true) (hhigh : (s.chan c.val).prsntHigh = true)
    (hnew : (s.chan c.val).absent = false) : exec (.absenceDeclared c) s = .next (s.absence c.val) := by
  change execAbsenceDeclared c s = _
  exact State.chanEvent_acts hrun (by simp only [hhigh, hnew, Bool.not_false, Bool.and_self])

variable (hu : u = (s.modChan c fun y => { y with absent := true }).setPresent c false)
include hu

/-- Absence ends a powered channel in EMPTY with no hold-off. -/
theorem State.absence_powered (hg : (s.chan c).state.powered = true) :
    s.absence c = (u.modChan c fun y => { y with holdOffEnd := 0, retry := 0 }).chanTo c .empty 0x07 := by
  obtain hg | hg | hg | hg := (ChanState.powered_iff _).1 hg <;> simp only [State.absence, hg, hu]

/-- Absence leaves LOCKOUT and EMPTY. -/
theorem State.absence_stays (hg : (s.chan c).state = .lockout ∨ (s.chan c).state = .empty) : s.absence c = u := by
  obtain hg | hg := hg <;> simp only [State.absence, hg, hu]

/-- Absence during RETRY_WAIT turns the rest of the off-time into a hold-off. -/
theorem State.absence_retryWait (hg : (s.chan c).state = .retryWait) :
    s.absence c = (u.modChan c fun y => { y with holdOffEnd := y.offEnd, retry := 0 }).chanTo c .empty 0x07 := by
  simp only [State.absence, hg, hu]

end Presence

/-! ### Start grants (R358) -/

/-- With no warning and a place below START_LIMIT the next request is granted. -/
theorem exec_startGrant_grants {s : State} {c : Nat} (hrun : s.boothRuns = true) (hwarn : s.slots.warning = false)
    (hbusy : ((List.range 48).filter fun c => (s.chan c).state == .precharge || (s.chan c).state == .gateRise).length < s.slots.bus.startLimit)
    (hnext : s.nextRequest = some c) :
    exec .startGrant s = .next ((s.modSlots fun x => { x with lastGrant := some s.now }).chanTo c .precharge 0) := by
  change execStartGrant s = _
  simp only [execStartGrant, hrun, hwarn, hbusy, hnext, decide_true, Bool.not_false, Bool.and_self, if_true]

/-- During a warning, or with no request, nothing is granted. -/
theorem exec_startGrant_waits {s : State} (h : s.slots.warning = true ∨ s.nextRequest = none) : exec .startGrant s = .next s := by
  change execStartGrant s = _
  obtain hwarn | hnone := h
  · simp only [execStartGrant, hwarn, Bool.not_true, Bool.and_false, Bool.false_and, Bool.false_eq_true, if_false]
  · simp only [execStartGrant, hnone, ite_self]

/-! ### Trips (R350) -/

/-- A trip of a powered channel is counted and adds to the retry count; it ends in RETRY_WAIT or, with the retries used up, in LATCHED. -/
theorem State.trip_powered {s u : State} {c : Nat} {cause : BitVec 8} (hg : (s.chan c).state.powered = true)
    (hu : u = (s.countTrip c cause).modChan c fun y => { y with retry := y.retry + 1 }) :
    s.trip c cause = if (s.chan c).retry + 1 ≤ (s.chan c).set.retryMax
      then (u.modChan c fun y => { y with offEnd := s.now + offTime (s.now - (s.chan c).onSince) }).chanTo c .retryWait cause
      else (u.chanTo c .latched scRetryLimit).report (slotSource c) 0x02 (scRetryLimit.setWidth 64) := by
  have hon : (s.chan c).state ≠ .warnOff := fun hoff => by simp [hoff, ChanState.powered_iff] at hg
  simp only [State.trip, hon, hg, hu, if_true, if_false, Bool.true_eq_false]

/-- The breaker timer that runs out trips a channel (R348). -/
theorem exec_breakerExpiry {s : State} {c : ChanNo} (hrun : s.boothRuns = true) (hg : (s.chan c.val).state.powered = true)
    (hon : (s.chan c.val).breakerOn = true) : exec (.breakerExpiry c) s = .next (s.trip c.val 0x01) := by
  change execBreakerExpiry c s = _
  exact State.chanEvent_acts hrun (by simp only [hg, hon, Bool.and_self])

/-- A fast trip acts on a channel that has power or turns off (R342). -/
theorem exec_fastTrip {s : State} {c : ChanNo} (hruns : s.slots.restarting = false) (hrun : s.boothRuns = true)
    (hg : (s.chan c.val).state.powered = true ∨ (s.chan c.val).state = .warnOff) : exec (.fastTrip c) s = .next (s.trip c.val 0x02) := by
  refine (if_neg (Bool.eq_false_iff.1 hruns)).trans (State.chanEvent_acts hrun ?_)
  simpa only [Bool.or_eq_true, beq_iff_eq] using hg

/-- During a booth restart it acts on the drives, and is latched (R359). -/
theorem exec_fastTrip_inRestart {s : State} {c : ChanNo} (hrestart : s.slots.restarting = true)
    (hdriven : (s.chan c.val).qp = true ∨ (s.chan c.val).qm = true) :
    exec (.fastTrip c) s = .next (s.modChan c.val fun x => { x with qp := false, qm := false, fastLatched := true }) :=
  (if_pos hrestart).trans (next_of_guard (Bool.or_eq_true_iff.2 hdriven))

/-! ### The events together -/

/-- Settles O40: every event acts on a channel in a state that its row asks for, and its operation comes to the case of its row. -/
theorem channelEventsAct : Obligations.ChannelEventsAct := by
  unfold Obligations.ChannelEventsAct
  refine ⟨?presenceKept, ?presenceRises, ?presenceFalls,
    fun s c hrun hg => show execInsertionDebounceEnd c s = _ from State.chanEvent_in hrun hg,
    ?absencePowered, ?absenceStays, ?absenceRetryWait,
    ?pfwRelease, ?holdOff,
    fun s c hrun hwarn hbusy hnext => exec_startGrant_grants hrun hwarn hbusy hnext,
    fun s _ h => exec_startGrant_waits h,
    fun s c hrun hg => show execPrechargeComplete c s = _ from State.chanEvent_in hrun hg,
    fun s c hrun hg => show execGateRiseComplete c s = _ from State.chanEvent_in hrun hg,
    ?powerGood,
    fun s c hrun hg => show execPrechargeTimeout c s = _ from State.chanEvent_in hrun hg,
    fun s c hrun hg => show execStabiliseTimeout c s = _ from State.chanEvent_in hrun hg,
    fun s c hrun hg => show execGateLoss c s = _ from State.chanEvent_in hrun hg,
    fun s c hrun hg => show execGateNoRise c s = _ from State.chanEvent_in hrun hg,
    ?breakerStart,
    fun s c hrun => show execBreakerReset c s = _ from State.chanEvent_acts hrun rfl,
    ?breakerExpiry,
    fun s c hruns hrun hg => exec_fastTrip hruns hrun hg,
    fun s c hrestart hdriven => exec_fastTrip_inRestart hrestart hdriven,
    fun s c hrun hg => show execPfwLeadExpiry c s = _ from State.chanEvent_in hrun hg,
    ?retryWaitEnds,
    fun s c hrestart => if_pos hrestart,
    fun s c hrun hg => show execRetryCountClear c s = _ from State.chanEvent_in hrun hg⟩
  case presenceKept =>
    intro s c high hrun hsame
    rw [exec_presenceChange hrun, State.presenceLevel_same hsame]
  case presenceRises =>
    rintro s c _ u hrun hlow rfl hu
    rw [exec_presenceChange hrun, State.presenceLevel_rises hlow hu]
  case presenceFalls =>
    rintro s c _ u hrun hhigh rfl hu
    rw [exec_presenceChange hrun, State.presenceLevel_falls hhigh hu]
  case absencePowered =>
    intro s c u hrun hhigh hnew hu hg
    rw [exec_absenceDeclared hrun hhigh hnew, State.absence_powered hu hg]
  case absenceStays =>
    intro s c u hrun hhigh hnew hu hg
    rw [exec_absenceDeclared hrun hhigh hnew, State.absence_stays hu hg]
  case absenceRetryWait =>
    intro s c u hrun hhigh hnew hu hg
    rw [exec_absenceDeclared hrun hhigh hnew, State.absence_retryWait hu hg]
  case pfwRelease =>
    intro s c hrun hlow
    change execPfwReleaseDelayEnd c s = _
    exact State.chanEvent_acts hrun (by simp only [hlow, Bool.not_false])
  case holdOff =>
    rintro s c _ rfl
    rfl
  case powerGood =>
    intro s c hrun hg hquiet
    change execPowerGood c s = _
    exact State.chanEvent_acts hrun (by simp only [hg, hquiet, beq_self_eq_true, Bool.not_false, Bool.and_self])
  case breakerStart =>
    rintro s c _ hrun hg rfl
    change execBreakerTimerStart c s = _
    exact State.chanEvent_acts hrun hg
  case breakerExpiry =>
    intro s c u hrun hg hon hu
    rw [exec_breakerExpiry hrun hg hon, State.trip_powered hg hu]
    rfl
  case retryWaitEnds =>
    intro s c hrun hruns hg
    exact (if_neg (Bool.eq_false_iff.1 hruns)).trans (State.chanEvent_in hrun hg)

end Sys2Proof.Machine

/-! SUPPORT. O41: the input bus, and the booth controller's restarts. -/

namespace Sys2Proof.Machine

/-! ### The input bus (R356, R357, R363) -/

section InputBus

variable {s : State} {v : BitVec 16} (hrun : s.boothRuns = true)
include hrun

/-- A warning that is not asserted yet is asserted, counted and reported. -/
theorem exec_inputBusWarning_asserts (hnew : s.slots.warning = false) : exec (.inputBusWarning v) s =
    .next ((((s.modSlots fun x => x.sampled v).modSlots fun x => { x with busWarnings := inc48 x.busWarnings }).assertWarning v false).report
      slotBusSource 0x10 0) :=
  (next_of_guard hrun).trans (next_of_not_guard (Bool.eq_false_iff.1 hnew))

/-- During a warning a further one is a sample. -/
theorem exec_inputBusWarning_again (hon : s.slots.warning = true) :
    exec (.inputBusWarning v) s = .next (s.modSlots fun x => x.sampled v) :=
  (next_of_guard hrun).trans (next_of_guard hon)

/-- The release of a warning tells of the lowest VFEED and of the duration. -/
theorem exec_warningRelease (hon : s.slots.warning = true) : exec (.warningRelease v) s =
    .next (((s.modSlots fun x => x.sampled v).modSlots fun x => { x with warning := false }).evSlotBus 1 false
      (s.modSlots fun x => x.sampled v).slots.warnMin ((s.now - s.slots.warnSince) / 1000000)) :=
  (next_of_guard hrun).trans (next_of_guard hon)

end InputBus

/-! ### Booth restart (R359, R466) -/

/-- A booth controller that runs starts to restart: counts of sampled conditions start again, and the restart is reported. -/
theorem State.boothRestart_running {s : State} (hrun : s.boothRuns = true) : s.boothRestart =
    ((s.modSlots fun x => { x with restarting := true, released := false, restartAt := s.now }).each (List.range 48) fun t c =>
      t.modChan c fun x => { x with breakerOn := false, debounced := false, fastLatched := false }).report 0xE00 0x01 0 := by
  have hruns : s.slots.restarting = false := by
    simp only [State.boothRuns, Bool.and_eq_true, Bool.not_eq_true'] at hrun
    exact hrun.2
  exact if_neg (Bool.eq_false_iff.1 hruns)

/-- After a cold reset a booth controller that resumes starts as at power-on; else it loads its trims. -/
theorem exec_boothResume {s : State} {prsnt : BitVec 48} {v : BitVec 16} (hrestart : s.slots.restarting = true) :
    exec (.boothResume prsnt v) s = .next (if s.power.boot = .cold ∧ s.power.plan = .idle ∧ s.power.inter = .no
      then (s.boothResume prsnt v).boothStart else (s.boothResume prsnt v).loadSlotTrims) :=
  next_of_guard hrestart

/-! ### The events together -/

/-- Settles O41: the events of the bus act while the booth controller runs, those of its restart where it starts or ends one. -/
theorem slotBusEventsAct : Obligations.SlotBusEventsAct := by
  unfold Obligations.SlotBusEventsAct
  refine ⟨?warningNew,
    fun s v hrun hon => exec_inputBusWarning_again hrun hon,
    ?warningReleased, ?cut, ?recovery,
    fun s c x v hrun => next_of_guard hrun,
    fun s hrestart => next_of_guard hrestart,
    ?watchdog,
    fun s prsnt v hrestart => exec_boothResume hrestart⟩
  case warningNew =>
    rintro s v _ hrun hnew rfl
    exact exec_inputBusWarning_asserts hrun hnew
  case warningReleased =>
    rintro s v _ hrun hon rfl
    exact exec_warningRelease hrun hon
  case cut =>
    rintro s v _ hrun rfl
    exact next_of_guard hrun
  case recovery =>
    rintro s v _ _ hrun rfl rfl
    exact next_of_guard hrun
  case watchdog =>
    rintro s _ hrun rfl
    exact (next_of_guard hrun).trans (congrArg Host.Outcome.next (State.boothRestart_running hrun))

end Sys2Proof.Machine

/-! SUPPORT. O50, O48, O49 and O46: one step, the bounds that it keeps, and what a command leaves alone. -/

namespace Sys2Proof.Machine

/-! ### Every command keeps the queue, the part, the clock and the bounds -/

/-- Row by row, in the order of `exec`: where the meaning of a command is a next state, that state keeps what a command keeps. -/
theorem exec_keeps {K : List Instr × Part × Nat} {s : State} (hs : s.Keeps K) : ∀ i : Instr, Kept K (exec i s)
  | .doorbell mb => execDoorbell_keeps mb s hs
  | .registerWrite pg off v => execRegisterWrite_keeps pg off v s hs
  | .evqHeadWrite mb v => execEvqHeadWrite_keeps mb v s hs
  | .evqOverflowClear mb => execEvqOverflowClear_keeps mb s hs
  | .forceStop => execForceStop_keeps s hs
  | .mailboxFrameAccess entry f => execMailboxFrameAccess_keeps entry f s hs
  | .serialBlockWrite ptr data pecOk => execSerialBlockWrite_keeps ptr data pecOk s hs
  | .serialSendByte pecOk => execSerialSendByte_keeps pecOk s hs
  | .serialWriteWord ptr pecOk => execSerialWriteWord_keeps ptr pecOk s hs
  | .serialBlockRead => execSerialBlockRead_keeps s hs
  | .remoteMailboxReceive f => execRemoteMailboxReceive_keeps f s hs
  | .sessionLeaseExpiry mb => execSessionLeaseExpiry_keeps mb s hs
  | .sysQuery mb => execSysQuery_keeps mb s hs
  | .sysHomeSet mb => execSysHomeSet_keeps mb s hs
  | .mbAccessSet mb => execMbAccessSet_keeps mb s hs
  | .eventLogRead mb => execEventLogRead_keeps mb s hs
  | .mbQuery mb => execMbQuery_keeps mb s hs
  | .sessionOpen mb => execSessionOpen_keeps mb s hs
  | .sessionClose mb => execSessionClose_keeps mb s hs
  | .eventSubscribe mb => execEventSubscribe_keeps mb s hs
  | .notifySet mb => execNotifySet_keeps mb s hs
  | .portConfigure mb => execPortConfigure_keeps mb s hs
  | .portAdmin mb => execPortAdmin_keeps mb s hs
  | .portQuery mb => execPortQuery_keeps mb s hs
  | .laneStatus mb => execLaneStatus_keeps mb s hs
  | .laneFirSet mb => execLaneFirSet_keeps mb s hs
  | .lanePrbs mb => execLanePrbs_keeps mb s hs
  | .laneLoopback mb => execLaneLoopback_keeps mb s hs
  | .laneCountersRead mb => execLaneCountersRead_keeps mb s hs
  | .laneAlarmSet mb => execLaneAlarmSet_keeps mb s hs
  | .linkConfig mb => execLinkConfig_keeps mb s hs
  | .linkCreditSet mb => execLinkCreditSet_keeps mb s hs
  | .linkQuery mb => execLinkQuery_keeps mb s hs
  | .linkCountersRead mb => execLinkCountersRead_keeps mb s hs
  | .linkErrorInject mb => execLinkErrorInject_keeps mb s hs
  | .fabricConfig mb => execFabricConfig_keeps mb s hs
  | .routeWrite mb => execRouteWrite_keeps mb s hs
  | .groupWrite mb => execGroupWrite_keeps mb s hs
  | .windowWrite mb => execWindowWrite_keeps mb s hs
  | .endpointWrite mb => execEndpointWrite_keeps mb s hs
  | .tableCommit mb => execTableCommit_keeps mb s hs
  | .tableDiscard mb => execTableDiscard_keeps mb s hs
  | .epochWait mb => execEpochWait_keeps mb s hs
  | .tableRead mb => execTableRead_keeps mb s hs
  | .partnerQuery mb => execPartnerQuery_keeps mb s hs
  | .topologyQuery mb => execTopologyQuery_keeps mb s hs
  | .fabricTimeConfig mb => execFabricTimeConfig_keeps mb s hs
  | .fabricTimeQuery mb => execFabricTimeQuery_keeps mb s hs
  | .fabricCountersRead mb => execFabricCountersRead_keeps mb s hs
  | .partnerSlotSet mb => execPartnerSlotSet_keeps mb s hs
  | .carouselQuery mb => execCarouselQuery_keeps mb s hs
  | .voqLimitSet mb => execVoqLimitSet_keeps mb s hs
  | .middleShareSet mb => execMiddleShareSet_keeps mb s hs
  | .pcieStoreSet mb => execPcieStoreSet_keeps mb s hs
  | .carouselCountersRead mb => execCarouselCountersRead_keeps mb s hs
  | .bufferHwmRead mb => execBufferHwmRead_keeps mb s hs
  | .schedConfig mb => execSchedConfig_keeps mb s hs
  | .shaperSet mb => execShaperSet_keeps mb s hs
  | .meterSet mb => execMeterSet_keeps mb s hs
  | .meterMapSet mb => execMeterMapSet_keeps mb s hs
  | .penaltyQueueSet mb => execPenaltyQueueSet_keeps mb s hs
  | .gateListSet mb => execGateListSet_keeps mb s hs
  | .gateQuery mb => execGateQuery_keeps mb s hs
  | .meterRead mb => execMeterRead_keeps mb s hs
  | .schedCountersRead mb => execSchedCountersRead_keeps mb s hs
  | .hwmRead mb => execHwmRead_keeps mb s hs
  | .partitionCreate mb => execPartitionCreate_keeps mb s hs
  | .partitionDestroy mb => execPartitionDestroy_keeps mb s hs
  | .partitionAssign mb => execPartitionAssign_keeps mb s hs
  | .partitionConfig mb => execPartitionConfig_keeps mb s hs
  | .partitionGrant mb => execPartitionGrant_keeps mb s hs
  | .portTrustSet mb => execPortTrustSet_keeps mb s hs
  | .partitionQuery mb => execPartitionQuery_keeps mb s hs
  | .vhCreate mb => execVhCreate_keeps mb s hs
  | .vhDestroy mb => execVhDestroy_keeps mb s hs
  | .vhBind mb => execVhBind_keeps mb s hs
  | .vhQuery mb => execVhQuery_keeps mb s hs
  | .sharedEndpointSet mb cap => execSharedEndpointSet_keeps mb cap s hs
  | .instanceCreate mb => execInstanceCreate_keeps mb s hs
  | .instanceDestroy mb => execInstanceDestroy_keeps mb s hs
  | .instanceShareSet mb => execInstanceShareSet_keeps mb s hs
  | .instanceQuiesce mb => execInstanceQuiesce_keeps mb s hs
  | .instanceResume mb => execInstanceResume_keeps mb s hs
  | .instanceReset mb => execInstanceReset_keeps mb s hs
  | .instanceResetForce mb => execInstanceResetForce_keeps mb s hs
  | .instanceXlateSet mb => execInstanceXlateSet_keeps mb s hs
  | .instanceQuery mb => execInstanceQuery_keeps mb s hs
  | .partCountersRead mb => execPartCountersRead_keeps mb s hs
  | .jugglerAlloc mb => execJugglerAlloc_keeps mb s hs
  | .jugglerQuery mb => execJugglerQuery_keeps mb s hs
  | .moverRingSet mb => execMoverRingSet_keeps mb s hs
  | .moverRingControl mb => execMoverRingControl_keeps mb s hs
  | .moverRingQuery mb => execMoverRingQuery_keeps mb s hs
  | .moverPlace mb => execMoverPlace_keeps mb s hs
  | .moverCountersRead mb => execMoverCountersRead_keeps mb s hs
  | .pwConfig mb => execPwConfig_keeps mb s hs
  | .pwHomeSet mb => execPwHomeSet_keeps mb s hs
  | .pwWindowSet mb => execPwWindowSet_keeps mb s hs
  | .pwWindowRead mb => execPwWindowRead_keeps mb s hs
  | .pwQuery mb => execPwQuery_keeps mb s hs
  | .sidebandSet mb => execSidebandSet_keeps mb s hs
  | .sidebandQuery mb => execSidebandQuery_keeps mb s hs
  | .pwBusReset mb => execPwBusReset_keeps mb s hs
  | .pwCountersRead mb => execPwCountersRead_keeps mb s hs
  | .slotConfig mb => execSlotConfig_keeps mb s hs
  | .slotPower mb => execSlotPower_keeps mb s hs
  | .slotQuery mb => execSlotQuery_keeps mb s hs
  | .slotBusConfig mb => execSlotBusConfig_keeps mb s hs
  | .slotBusQuery mb => execSlotBusQuery_keeps mb s hs
  | .slotAttention mb => execSlotAttention_keeps mb s hs
  | .slotProfileSave mb => execSlotProfileSave_keeps mb s hs
  | .slotCountersRead mb => execSlotCountersRead_keeps mb s hs
  | .faultQuery mb => execFaultQuery_keeps mb s hs
  | .faultLogRead mb => execFaultLogRead_keeps mb s hs
  | .faultClear mb => execFaultClear_keeps mb s hs
  | .faultSeveritySet mb => execFaultSeveritySet_keeps mb s hs
  | .faultFence mb => execFaultFence_keeps mb s hs
  | .faultRelease mb => execFaultRelease_keeps mb s hs
  | .fenceQuery mb => execFenceQuery_keeps mb s hs
  | .faultSupervise mb => execFaultSupervise_keeps mb s hs
  | .faultInject mb => execFaultInject_keeps mb s hs
  | .faultForwardSet mb => execFaultForwardSet_keeps mb s hs
  | .faultCountersRead mb => execFaultCountersRead_keeps mb s hs
  | .bistStart mb => execBistStart_keeps mb s hs
  | .bistAbort mb => execBistAbort_keeps mb s hs
  | .bistQuery mb => execBistQuery_keeps mb s hs
  | .bistUnmark mb => execBistUnmark_keeps mb s hs
  | .bistList mb => execBistList_keeps mb s hs
  | .pmonConfig mb => execPmonConfig_keeps mb s hs
  | .pmonRead mb => execPmonRead_keeps mb s hs
  | .pmonFreeze mb => execPmonFreeze_keeps mb s hs
  | .pmonSnapshot mb => execPmonSnapshot_keeps mb s hs
  | .pmonSnapshotRead mb => execPmonSnapshotRead_keeps mb s hs
  | .pmonSampleRead mb => execPmonSampleRead_keeps mb s hs
  | .pwrStateSet mb => execPwrStateSet_keeps mb s hs
  | .pwrQuery mb => execPwrQuery_keeps mb s hs
  | .sysReset mb => execSysReset_keeps mb s hs
  | .ringReset mb => execRingReset_keeps mb s hs
  | .portReset mb => execPortReset_keeps mb s hs
  | .vhReset mb => execVhReset_keeps mb s hs
  | .boothRestart mb => execBoothRestart_keeps mb s hs
  | .wakeConfig mb => execWakeConfig_keeps mb s hs
  | .sleepConfig mb => execSleepConfig_keeps mb s hs
  | .fwQuery mb => execFwQuery_keeps mb s hs
  | .fwWriteBegin mb => execFwWriteBegin_keeps mb s hs
  | .fwWrite mb => execFwWrite_keeps mb s hs
  | .fwWriteEnd mb => execFwWriteEnd_keeps mb s hs
  | .fwActivate mb => execFwActivate_keeps mb s hs
  | .fwConfirm mb => execFwConfirm_keeps mb s hs
  | .fwRestart mb => execFwRestart_keeps mb s hs
  | .calRead mb => execCalRead_keeps mb s hs
  | .calWrite mb => execCalWrite_keeps mb s hs
  | .calExport mb => execCalExport_keeps mb s hs
  | .calImport mb => execCalImport_keeps mb s hs
  | .detectAttempt p found => execDetectAttempt_keeps p found s hs
  | .trainingFrameReceive ln w => execTrainingFrameReceive_keeps ln w s hs
  | .forwardedClockLockTimeout p => execForwardedClockLockTimeout_keeps p s hs
  | .trainTimeout p => execTrainTimeout_keeps p s hs
  | .fecLock ln => execFecLock_keeps ln s hs
  | .alignmentMarkerReceive ln lip arrival => execAlignmentMarkerReceive_keeps ln lip arrival s hs
  | .lockComplete p => execLockComplete_keeps p s hs
  | .lockTimeout p => execLockTimeout_keeps p s hs
  | .fecLockLoss ln => execFecLockLoss_keeps ln s hs
  | .deskewLoss ln => execDeskewLoss_keeps ln s hs
  | .clockLaneLoss q => execClockLaneLoss_keeps q s hs
  | .lossOfSignal ln => execLossOfSignal_keeps ln s hs
  | .retrainSignalReceive p => execRetrainSignalReceive_keeps p s hs
  | .exchangeRecordSend p => execExchangeRecordSend_keeps p s hs
  | .exchangeBlockReceive p pl => execExchangeBlockReceive_keeps p pl s hs
  | .exchangeTimeout p => execExchangeTimeout_keeps p s hs
  | .linkUpHoldoffEnd p => execLinkUpHoldoffEnd_keeps p s hs
  | .firstBlockTimeout p => execFirstBlockTimeout_keeps p s hs
  | .trainFailWaitEnd p found => execTrainFailWaitEnd_keeps p found s hs
  | .serAlarmWindow ln => execSerAlarmWindow_keeps ln s hs
  | .fastRetrainTimeout p => execFastRetrainTimeout_keeps p s hs
  | .fastRetrainComplete p => execFastRetrainComplete_keeps p s hs
  | .prbsCheck ln errs => execPrbsCheck_keeps ln errs s hs
  | .pcieLinkDown p training ltssm => execPcieLinkDown_keeps p training ltssm s hs
  | .transmitBlockSlot p => execTransmitBlockSlot_keeps p s hs
  | .dataBlockReceive p h pl => execDataBlockReceive_keeps p h pl s hs
  | .badBlockReceive p => execBadBlockReceive_keeps p s hs
  | .idleBlockReceive p h => execIdleBlockReceive_keeps p h s hs
  | .nakBlockReceive p h pl => execNakBlockReceive_keeps p h pl s hs
  | .creditBlockReceive p h pl => execCreditBlockReceive_keeps p h pl s hs
  | .reservedTypeBlockReceive p h => execReservedTypeBlockReceive_keeps p h s hs
  | .replayTimerExpiry p => execReplayTimerExpiry_keeps p s hs
  | .creditReturnDue p => execCreditReturnDue_keeps p s hs
  | .syncSend p => execSyncSend_keeps p s hs
  | .syncTimeout p => execSyncTimeout_keeps p s hs
  | .npExpiry p req tag => execNpExpiry_keeps p req tag s hs
  | .completionTimeout requester tag => execCompletionTimeout_keeps requester tag s hs
  | .completionReceive f => execCompletionReceive_keeps f s hs
  | .frameLookup src vc => execFrameLookup_keeps src vc s hs
  | .voqAdmit src vc => execVoqAdmit_keeps src vc s hs
  | .commitInEffect pu => execCommitInEffect_keeps pu s hs
  | .firstStageSlot => execFirstStageSlot_keeps s hs
  | .secondStageSlot => execSecondStageSlot_keeps s hs
  | .periodStart => execPeriodStart_keeps s hs
  | .outputCellArrival o => execOutputCellArrival_keeps o s hs
  | .reseqGapSkip p src vc => execReseqGapSkip_keeps p src vc s hs
  | .middleBufferDrainEnd m => execMiddleBufferDrainEnd_keeps m s hs
  | .middleBufferReturn m => execMiddleBufferReturn_keeps m s hs
  | .fencedInputCleanup pu => execFencedInputCleanup_keeps pu s hs
  | .egressFrameBoundary p fc => execEgressFrameBoundary_keeps p fc s hs
  | .bucketRefill => execBucketRefill_keeps s hs
  | .penaltyQueueAdmit src vc => execPenaltyQueueAdmit_keeps src vc s hs
  | .gateEntryChange p => execGateEntryChange_keeps p s hs
  | .gateListStart p => execGateListStart_keeps p s hs
  | .orderHoldRelease p uid => execOrderHoldRelease_keeps p uid s hs
  | .routeComputation => execRouteComputation_keeps s hs
  | .routeCommitRetry => execRouteCommitRetry_keeps s hs
  | .linkStateSend => execLinkStateSend_keeps s hs
  | .linkStateReceive p r => execLinkStateReceive_keeps p r s hs
  | .linkStateAgeOut sw => execLinkStateAgeOut_keeps sw s hs
  | .epochDrained tab e => execEpochDrained_keeps tab e s hs
  | .timeSyncExchange p => execTimeSyncExchange_keeps p s hs
  | .timeMessageReceive p m => execTimeMessageReceive_keeps p m s hs
  | .ppsInEdge => execPpsInEdge_keeps s hs
  | .ppsOutSecond => execPpsOutSecond_keeps s hs
  | .jugglerStep j => execJugglerStep_keeps j s hs
  | .moverDoorbell f => execMoverDoorbell_keeps f s hs
  | .moverCompletionReceive f => execMoverCompletionReceive_keeps f s hs
  | .quiesceCheck p id icbQuiesced timedOut => execQuiesceCheck_keeps p id icbQuiesced timedOut s hs
  | .resetReqCleared p id => execResetReqCleared_keeps p id s hs
  | .resetTimeout p id => execResetTimeout_keeps p id s hs
  | .resettingLifetimePass p id => execResettingLifetimePass_keeps p id s hs
  | .hostTlpWrap p t => execHostTlpWrap_keeps p t s hs
  | .targetTlpWrap p inst t => execTargetTlpWrap_keeps p inst t s hs
  | .configEmulation vh fn reg wr poison => execConfigEmulation_keeps vh fn reg wr poison s hs
  | .slotControlWrite vh k v => execSlotControlWrite_keeps vh k v s hs
  | .secondaryBusReset vh k => execSecondaryBusReset_keeps vh k s hs
  | .hotResetReceive p => execHotResetReceive_keeps p s hs
  | .completionUnwrap p f => execCompletionUnwrap_keeps p f s hs
  | .patchworkFrameReceive x f => execPatchworkFrameReceive_keeps x f s hs
  | .outboundCycleRun x => execOutboundCycleRun_keeps x s hs
  | .busCycleEnd x st data => execBusCycleEnd_keeps x st data s hs
  | .inboundCycleClaim x c => execInboundCycleClaim_keeps x c s hs
  | .inboundWrite x c => execInboundWrite_keeps x c s hs
  | .inboundRead x c => execInboundRead_keeps x c s hs
  | .inboundRmw x c => execInboundRmw_keeps x c s hs
  | .pciDelayedRepeat x c => execPciDelayedRepeat_keeps x c s hs
  | .delayedDiscardTimeout x entry => execDelayedDiscardTimeout_keeps x entry s hs
  | .yieldTimeout x blockedNs => execYieldTimeout_keeps x blockedNs s hs
  | .prefetchHoldExpiry x buf => execPrefetchHoldExpiry_keeps x buf s hs
  | .busWriteObserved x space addr len => execBusWriteObserved_keeps x space addr len s hs
  | .heritageBusReset x => execHeritageBusReset_keeps x s hs
  | .pwBusResetEnd x => execPwBusResetEnd_keeps x s hs
  | .vddHbLoss x => execVddHbLoss_keeps x s hs
  | .sidebandInputChange pin asserted => execSidebandInputChange_keeps pin asserted s hs
  | .presenceChange c high => execPresenceChange_keeps c high s hs
  | .insertionDebounceEnd c => execInsertionDebounceEnd_keeps c s hs
  | .absenceDeclared c => execAbsenceDeclared_keeps c s hs
  | .pfwReleaseDelayEnd c => execPfwReleaseDelayEnd_keeps c s hs
  | .holdOffExpiry c => execHoldOffExpiry_keeps c s hs
  | .startGrant => execStartGrant_keeps s hs
  | .prechargeComplete c => execPrechargeComplete_keeps c s hs
  | .prechargeTimeout c => execPrechargeTimeout_keeps c s hs
  | .gateRiseComplete c => execGateRiseComplete_keeps c s hs
  | .gateNoRise c => execGateNoRise_keeps c s hs
  | .powerGood c => execPowerGood_keeps c s hs
  | .stabiliseTimeout c => execStabiliseTimeout_keeps c s hs
  | .breakerTimerStart c => execBreakerTimerStart_keeps c s hs
  | .breakerReset c => execBreakerReset_keeps c s hs
  | .breakerExpiry c => execBreakerExpiry_keeps c s hs
  | .fastTrip c => execFastTrip_keeps c s hs
  | .gateLoss c => execGateLoss_keeps c s hs
  | .pfwLeadExpiry c => execPfwLeadExpiry_keeps c s hs
  | .retryWaitExpiry c => execRetryWaitExpiry_keeps c s hs
  | .retryCountClear c => execRetryCountClear_keeps c s hs
  | .inputBusWarning vfeed => execInputBusWarning_keeps vfeed s hs
  | .warningRelease vfeed => execWarningRelease_keeps vfeed s hs
  | .busCut vfeed => execBusCut_keeps vfeed s hs
  | .busRecovery vfeed => execBusRecovery_keeps vfeed s hs
  | .slotSample c x vfeed => execSlotSample_keeps c x vfeed s hs
  | .boothResume prsnt vfeed => execBoothResume_keeps prsnt vfeed s hs
  | .latchRelease => execLatchRelease_keeps s hs
  | .boothWatchdogExpiry => execBoothWatchdogExpiry_keeps s hs
  | .errorDetect src code detail => execErrorDetect_keeps src code detail s hs
  | .pairChangeSeen src => execPairChangeSeen_keeps src s hs
  | .faultReportClassify src code => execFaultReportClassify_keeps src code s hs
  | .pairOnlyTimeout src => execPairOnlyTimeout_keeps src s hs
  | .wireFault src => execWireFault_keeps src s hs
  | .mergeIntervalEnd src code => execMergeIntervalEnd_keeps src code s hs
  | .faultFrameReceive f => execFaultFrameReceive_keeps f s hs
  | .aliveToggle => execAliveToggle_keeps s hs
  | .livenessRefresh => execLivenessRefresh_keeps s hs
  | .livenessExpiry => execLivenessExpiry_keeps s hs
  | .bistIsolationComplete u => execBistIsolationComplete_keeps u s hs
  | .bistEngineEnd u r => execBistEngineEnd_keeps u r s hs
  | .bistReinitComplete u => execBistReinitComplete_keeps u s hs
  | .bistNotIdleTimeout u => execBistNotIdleTimeout_keeps u s hs
  | .pmonCounterWrap mon k cycles ctx => execPmonCounterWrap_keeps mon k cycles ctx s hs
  | .snapshotCapture => execSnapshotCapture_keeps s hs
  | .powerOn => execPowerOn_keeps s hs
  | .coldReset => execColdReset_keeps s hs
  | .warmReset => execWarmReset_keeps s hs
  | .supplyBrownout => execSupplyBrownout_keeps s hs
  | .coldHoldCheck temp => execColdHoldCheck_keeps temp s hs
  | .preheatCheck temp => execPreheatCheck_keeps temp s hs
  | .preheatTimeout => execPreheatTimeout_keeps s hs
  | .railPowerGood r => execRailPowerGood_keeps r s hs
  | .railPowerGoodTimeout r => execRailPowerGoodTimeout_keeps r s hs
  | .railSequenceRetry => execRailSequenceRetry_keeps s hs
  | .railPowerFail r => execRailPowerFail_keeps r s hs
  | .coreRelease => execCoreRelease_keeps s hs
  | .imageSelect flashOk => execImageSelect_keeps flashOk s hs
  | .bootReady => execBootReady_keeps s hs
  | .weftResetEnd => execWeftResetEnd_keeps s hs
  | .ringResetDiscardEnd r => execRingResetDiscardEnd_keeps r s hs
  | .intermissionDrainEnd => execIntermissionDrainEnd_keeps s hs
  | .wakeNEdge => execWakeNEdge_keeps s hs
  | .wakeTimerExpiry => execWakeTimerExpiry_keeps s hs
  | .idleSleepTimeout p => execIdleSleepTimeout_keeps p s hs
  | .powerBlockReceive p h pl => execPowerBlockReceive_keeps p h pl s hs
  | .sleepAnswerTimeout p => execSleepAnswerTimeout_keeps p s hs
  | .sleepNakBackoffEnd p => execSleepNakBackoffEnd_keeps p s hs
  | .wakePulseDetect p => execWakePulseDetect_keeps p s hs
  | .sleepWake p => execSleepWake_keeps p s hs
  | .governorMeasure milliwatts => execGovernorMeasure_keeps milliwatts s hs
  | .vidUpdate => execVidUpdate_keeps s hs
  | .thermalCheck tj => execThermalCheck_keeps tj s hs
  | .railFault r => execRailFault_keeps r s hs
  | .refclkAoLoss => execRefclkAoLoss_keeps s hs
  | .refclkAoReturn => execRefclkAoReturn_keeps s hs
  | .refclkLoss r => execRefclkLoss_keeps r s hs
  | .refclkCoreLoss => execRefclkCoreLoss_keeps s hs
  | .jtagUnlock token => execJtagUnlock_keeps token s hs
  | .pcieLinkUp p width rate ltssm host => execPcieLinkUp_keeps p width rate ltssm host s hs
  | .vddHbReturn x fiveVolt => execVddHbReturn_keeps x fiveVolt s hs
  | .busTimerExpiry x => execBusTimerExpiry_keeps x s hs
  | .deviceConfigCycle x reg wr => execDeviceConfigCycle_keeps x reg wr s hs
  | .cycleStoreLifetimeExpiry x => execCycleStoreLifetimeExpiry_keeps x s hs
  | .railPwrOkFall r => execRailPwrOkFall_keeps r s hs
  | .preheatRetry => execPreheatRetry_keeps s hs
  | .refclkCoreStartTimeout => execRefclkCoreStartTimeout_keeps s hs

theorem keeps_of_exec_next {K : List Instr × Part × Nat} {i : Instr} {s t : State} (hs : s.Keeps K) (ht : exec i s = .next t) : t.Keeps K := by
  have hk := exec_keeps hs i
  rwa [ht] at hk

/-- A state within the bounds keeps its own queue, part and clock. -/
theorem State.Sound.keeps {s : State} (h : s.Sound) : s.Keeps (s.pending, s.part, s.now) := ⟨rfl, h⟩

/-! ### One step -/

theorem step_of_idle {s : State} (h : s.pending = []) : step s = .next s.tick := by simp only [step, h]

theorem step_of_pending {s : State} {c : Instr} {r : List Instr} (h : s.pending = c :: r) : step s = exec c { s with pending := r } := by
  simp only [step, h]

/-- Settles O50: an idle step is a tick, which keeps the bounds; any other is a command, and every command keeps them. -/
theorem soundKept : Obligations.SoundKept := by
  unfold Obligations.SoundKept
  intro s t hs hstep
  cases hp : s.pending with
  | nil =>
    rw [step_of_idle hp] at hstep
    cases hstep
    exact s.tick_sound hs
  | cons c r =>
    rw [step_of_pending hp] at hstep
    have hrest : { s with pending := r }.Sound := hs
    obtain ⟨-, hsound⟩ := keeps_of_exec_next hrest.keeps hstep
    exact hsound

/-- Settles O48: a command keeps the queue, the part and the clock of the state that it finds. -/
theorem commandsLeaveQueueClockAndPart : Obligations.CommandsLeaveQueueClockAndPart := by
  unfold Obligations.CommandsLeaveQueueClockAndPart
  intro i s t hs ht
  obtain ⟨hfixed, -⟩ := keeps_of_exec_next hs.keeps ht
  obtain ⟨hpending, hpart, hnow⟩ : t.pending = s.pending ∧ t.part = s.part ∧ t.now = s.now := by
    simpa only [Prod.mk.injEq] using hfixed
  exact ⟨hpending, hnow, hpart⟩

/-- Settles O49: after reset both logs and the booth record store are empty, fabric time is 0, and the XM5120 is not stopped. -/
theorem soundAtReset : Obligations.SoundAtReset := by
  unfold Obligations.SoundAtReset
  exact ⟨show 0 ≤ 512 by decide, show 0 < 1000000000 by decide, show 0 ≤ 1024 by decide, show 0 ≤ 64 by decide,
    fun hstopped : false = true => nomatch hstopped⟩

/-- Settles O46: `step` looks at the front of the queue, and a tick changes the clock and the time of a powered core die. -/
theorem stepRunsFront : Obligations.StepRunsFront := by
  unfold Obligations.StepRunsFront
  refine ⟨fun c rest s => step_of_pending rfl, fun s hidle => ?_⟩
  rw [step_of_idle hidle, State.tick]
  split <;> rfl

end Sys2Proof.Machine

/-! SUPPORT. O56, O54, O52 and O57: a command in its mailbox, from the checks that it meets first to the response that it leaves. -/

namespace Sys2Proof.Machine

/-! ### A command that waits (R374, R376, R397) -/

/-- Where a mailbox is not BUSY or not served, or holds another command, nothing runs. -/
theorem runCmd_waits {c : CmdSpec} {n : Nat} {s : State} (body : State → Nat → Nat → CmdResult)
    (h : (s.mbox n).busy = false ∨ s.serves n = false ∨ (s.mbox n).cmdHdr.opcode ≠ c.opcode) : runCmd c body n s = s := if_pos h

theorem runSlot_waits {c : CmdSpec} {n : Nat} {s : State} (body : State → Nat → Nat → CmdResult)
    (h : (s.mbox n).busy = false ∨ s.serves n = false ∨ (s.mbox n).cmdHdr.opcode ≠ c.opcode) : runSlot c body n s = s := by
  cases hslots : s.slots.restarting with
  | false => rw [runSlot_running c body n hslots, runCmd_waits body h]
  | true => exact runSlot_restarting c body n hslots

/-- Settles O56: every command of a mailbox is run by `runCmd` or `runSlot`, which first look for it there. -/
theorem commandWaits : Obligations.CommandWaits := by
  unfold Obligations.CommandWaits
  intro i s mb op priv hi h
  obtain ⟨c, body, rfl, -, -, hrun | ⟨-, hrun⟩⟩ := commandOf_exec hi
  · rw [hrun, runCmd_waits body h]
  · rw [hrun, runSlot_waits body h]

/-! ### A command that begins (R377) -/

/-- A command that begins is run by `runCmd`, one of group 0x0A too. -/
theorem State.Begins.exec_eq {i : Instr} {s : State} {mb : Mb} {op : Nat} {priv : Bool} (h : s.Begins mb op)
    (hi : commandOf i = some (mb, op, priv)) :
    ∃ (c : CmdSpec) (body : State → Nat → Nat → CmdResult), c.opcode = op ∧ c.open_ = sessionless op ∧ exec i s = .next (runCmd c body mb s) := by
  obtain ⟨-, -, -, -, hslots⟩ := h
  obtain ⟨c, body, hop, -, hopen, hrun | ⟨hgroup, hrun⟩⟩ := commandOf_exec hi
  · exact ⟨c, body, hop, hopen, hrun s⟩
  · exact ⟨c, body, hop, hopen, (hrun s).trans (congrArg Host.Outcome.next (runSlot_running c body mb (hslots hgroup)))⟩

section Begins

variable {s : State} {mb : Mb} {c : CmdSpec} (body : State → Nat → Nat → CmdResult)

/-- A command without the token of its mailbox's session is answered NO_SESSION (R382). -/
theorem State.Begins.runCmd_noSession (h : s.Begins mb c.opcode) (hopen : c.open_ = false)
    (htoken : (s.mbox mb).tokenOk (s.mbox mb).cmdHdr.session = false) :
    runCmd c body mb s = s.complete mb (s.mbox mb).cmdHdr stNoSession 0 [] := by
  obtain ⟨hbusy, hserved, hop, hlen, -⟩ := h
  simp only [runCmd, hbusy, hserved, hop, hopen, htoken, if_neg (Nat.not_lt.2 hlen), Bool.true_eq_false, ne_eq, not_true_eq_false, or_self,
    Bool.or_self, if_false, if_true]

/-- A repeat of the stored command is answered with the stored response, REPEATED set (R378). -/
theorem State.Begins.runCmd_repeated {r : List Host.Cell} (h : s.Begins mb c.opcode)
    (haccepted : (c.open_ || (s.mbox mb).tokenOk (s.mbox mb).cmdHdr.session) = true)
    (hrepeat : (s.mbox mb).repeated (s.mbox mb).cmdHdr = some r) :
    runCmd c body mb s =
      (s.begun mb).respond mb (cellsRead (Tab.put 0 r 6 (Tab.get 0 r 6 ||| 1)) 0 (16 + fld (cellsNat r 4 2) 0 12)) none := by
  obtain ⟨hbusy, hserved, hop, hlen, -⟩ := h
  simp only [runCmd, hbusy, hserved, hop, haccepted, hrepeat, if_neg (Nat.not_lt.2 hlen), Bool.true_eq_false, ne_eq, not_true_eq_false, or_self,
    if_false]
  rfl

end Begins

/-! ### What a completed command leaves (R374, R378) -/

/-- What is stored of a response: nothing of a dry run's (R378, R379). -/
def CmdHdr.storedResp (h : CmdHdr) (resp : List Byte) : Option StoredResp :=
  if h.dryRun then none
  else some { opcode := BitVec.ofNat 16 h.opcode, tag := h.tag, session := h.session, resp := cellsWrite [] 0 resp }

/-- A mailbox after its command completes. -/
theorem State.mbox_complete (s : State) (n : Nat) (h : CmdHdr) (status detail : Nat) (payload : List Byte) :
    (s.complete n h status detail payload).mbox n =
      (s.mbox n).answered (respBytes h status detail payload) (h.storedResp (respBytes h status detail payload)) :=
  State.mbox_respond s n _ _

/-- Settles O54: the check for a repeat stands before the command's own body, and what is stored is the response. -/
theorem repeatedCommandNotRun : Obligations.RepeatedCommandNotRun := by
  unfold Obligations.RepeatedCommandNotRun
  refine ⟨?repeated, ?stored⟩
  case repeated =>
    intro i s mb op priv r hi hbegins haccepted hrepeat
    obtain ⟨c, body, rfl, hopen, hrun⟩ := hbegins.exec_eq hi
    rw [hrun, hbegins.runCmd_repeated body (by simpa only [hopen, Bool.or_eq_true] using haccepted) hrepeat]
  case stored =>
    rintro s n status detail h payload _ rfl
    rw [State.mbox_complete]
    simp only [Mailbox.answered, CmdHdr.storedResp]
    cases h.dryRun <;> rfl

/-! ### The response header (Table 11.5) -/

/-- The fields of Table 11.5 with their widths, REPEATED and the reserved ones 0. -/
def respHdrFields (h : CmdHdr) (status detail len : Nat) : List (Nat × Nat) :=
  [(h.opcode, 16), (h.tag.toNat, 16), (len, 12), (0, 4), (0, 1), (b2n h.dryRun, 1), (0, 6), (status, 8), (detail, 32)]

theorem respBytes_eq (h : CmdHdr) (status detail : Nat) (payload : List Byte) :
    respBytes h status detail payload = bytesOf 16 (packBits (respHdrFields h status detail payload.length)) ++ payload := rfl

/-- The widths of Table 11.5. -/
def respHdrWidths : List Nat := [16, 16, 12, 4, 1, 1, 6, 8, 32]

theorem respHdrFields_widths (h : CmdHdr) (status detail len : Nat) : (respHdrFields h status detail len).map Prod.snd = respHdrWidths := rfl

theorem respBytes_length (h : CmdHdr) (status detail : Nat) (payload : List Byte) :
    (respBytes h status detail payload).length = 16 + payload.length := by
  rw [respBytes_eq, List.length_append, bytesOf_length]

/-- The bytes from `a` upward of a number are those of the number without its `a` low bytes. -/
theorem bytesOf_drop_take {n v a k : Nat} (h : a + k ≤ n) : ((bytesOf n v).drop a).take k = bytesOf k (v >>> (8 * a)) := by
  refine List.ext_getElem (by simp only [List.length_take, List.length_drop, bytesOf_length]; omega) fun i _ _ => ?_
  simp only [bytesOf, List.getElem_take, List.getElem_drop, List.getElem_map, List.getElem_range, ← Nat.shiftRight_add, Nat.mul_add]

/-- The `k` low bytes of a number are those of its low `8 * k` bits. -/
theorem bytesOf_toNat_ofNat (k v : Nat) : bytesOf k v = bytesOf k (BitVec.ofNat (8 * k) v).toNat := by
  refine List.ext_getElem (by simp only [bytesOf_length]) fun i hi _ => ?_
  have hk : i < k := by simpa only [bytesOf_length] using hi
  simp only [bytesOf, List.getElem_map, List.getElem_range]
  refine BitVec.eq_of_getLsbD_eq fun j hj => ?_
  simp only [BitVec.getLsbD_ofNat, Nat.testBit_shiftRight, BitVec.toNat_ofNat, Nat.testBit_mod_two_pow]
  rw [decide_eq_true (show 8 * i + j < 8 * k by omega), Bool.true_and]

/-- A field of `k` whole bytes of the response header is read in RESP at its place. -/
theorem cellsRead_respBytes {h : CmdHdr} {status detail : Nat} {payload : List Byte} {i v a k : Nat} (ha : a + k ≤ 16)
    (hi : (respHdrFields h status detail payload.length)[i]? = some (v, 8 * k)) (hlo : (respHdrWidths.take i).sum = 8 * a) :
    cellsRead (cellsWrite [] 0 (respBytes h status detail payload)) a k = bytesOf k v := by
  have hplace := fbv_packBits_at (respHdrFields_widths h status detail payload.length) hi hlo
  rw [cellsRead_cellsWrite _ _ _ (by rw [respBytes_length]; omega), respBytes_eq,
    List.drop_append_of_le_length (by rw [bytesOf_length]; omega),
    List.take_append_of_le_length (by rw [List.length_drop, bytesOf_length]; omega), bytesOf_drop_take ha, bytesOf_toNat_ofNat, bytesOf_toNat_ofNat k v,
    ← hplace, fbv]

/-- Settles O57: a completed command leaves its mailbox `answered`, whose RESP holds the bytes of the response alone. -/
theorem responseInPlace : Obligations.ResponseInPlace := by
  unfold Obligations.ResponseInPlace
  rintro s n status detail h payload _ rfl
  simp only [State.mbox_complete, Mailbox.answered]
  refine ⟨trivial, trivial, trivial, ?whole, ?statusByte, ?detailBytes, fun j hj => State.mbox_complete_other s h status detail payload hj⟩
  case whole =>
    rw [cellsRead_cellsWrite _ 0 _ (by rw [respBytes_length, Nat.zero_add]), List.drop_zero,
      List.take_of_length_le (respBytes_length h status detail payload).le]
  case statusByte =>
    have hbyte : bytesOf 1 status = [BitVec.ofNat 8 status] := rfl
    rw [← hbyte, cellsRead_respBytes (i := 7) (v := status) (by decide) rfl rfl]
  case detailBytes => rw [cellsRead_respBytes (i := 8) (v := detail) (by decide) rfl rfl]

end Sys2Proof.Machine

/-! SUPPORT. O25 and O26: doorbells, register writes and the management serial port. -/

namespace Sys2Proof.Machine

/-! ### Doorbells (R374, R377) -/

/-- A doorbell of a BUSY mailbox sets COLLISION. -/
theorem State.ring_busy {s : State} {n : Nat} (h : (s.mbox n).busy = true) :
    s.ring n = s.setMbox n { s.mbox n with collision := true } := if_pos h

/-- The state in which the doorbell of mailbox `n` has submitted the command in CMD. -/
def State.submitted (s : State) (n : Nat) : State := s.setMbox n { s.mbox n with busy := true }

theorem State.mbox_submitted (s : State) (n : Nat) : (s.submitted n).mbox n = { s.mbox n with busy := true } := State.mbox_setMbox_busy s n rfl

/-- Submitting the command of a mailbox leaves its header. -/
theorem State.cmdHdr_submitted (s : State) (n : Nat) : ((s.submitted n).mbox n).cmdHdr = (s.mbox n).cmdHdr := by
  rw [State.mbox_submitted]
  rfl

/-- A doorbell of a mailbox that is not BUSY submits its command; one whose opcode no table gives is answered. -/
theorem State.ring_idle {s : State} {n : Nat} (h : (s.mbox n).busy = false) :
    s.ring n = if opcodeKnown (s.mbox n).cmdHdr.opcode then s.submitted n else (s.submitted n).unknownCmd n := by
  rw [← State.cmdHdr_submitted]
  exact if_neg (Bool.eq_false_iff.1 h)

section UnknownOpcode

variable {s : State} {n : Nat} (hserved : s.serves n = true) (hlen : (s.mbox n).cmdHdr.length ≤ 4080)
include hserved hlen

/-- An opcode that no table gives is refused with NO_SESSION first (R377, R382). -/
theorem State.unknownCmd_submitted_noSession (htoken : (s.mbox n).tokenOk (s.mbox n).cmdHdr.session = false) :
    (s.submitted n).unknownCmd n = (s.submitted n).complete n (s.mbox n).cmdHdr stNoSession 0 [] := by
  have hserves : (s.submitted n).serves n = true := hserved
  have htok : ((s.submitted n).mbox n).tokenOk (s.mbox n).cmdHdr.session = false := by
    rw [State.mbox_submitted]
    exact htoken
  have hbusy : ((s.submitted n).mbox n).busy = true := by rw [State.mbox_submitted]
  simp only [State.unknownCmd, State.cmdHdr_submitted, hserves, hbusy, htok, if_neg (Nat.not_lt.2 hlen), Bool.true_eq_false, or_self, if_false,
    if_true]

/-- An opcode that no table gives is answered INVALID_OPCODE where the session is accepted and nothing is repeated. -/
theorem State.unknownCmd_submitted_refused (htoken : (s.mbox n).tokenOk (s.mbox n).cmdHdr.session = true)
    (hrepeat : (s.mbox n).repeated (s.mbox n).cmdHdr = none) :
    (s.submitted n).unknownCmd n =
      ((s.submitted n).renewLease n (s.mbox n).cmdHdr.session).complete n (s.mbox n).cmdHdr stInvalidOpcode 0 [] := by
  have hserves : (s.submitted n).serves n = true := hserved
  have htok : ((s.submitted n).mbox n).tokenOk (s.mbox n).cmdHdr.session = true := by
    rw [State.mbox_submitted]
    exact htoken
  have hrep : ((s.submitted n).mbox n).repeated (s.mbox n).cmdHdr = none := by
    rw [State.mbox_submitted]
    exact hrepeat
  have hbusy : ((s.submitted n).mbox n).busy = true := by rw [State.mbox_submitted]
  simp only [State.unknownCmd, State.cmdHdr_submitted, hserves, hbusy, htok, hrep, if_neg (Nat.not_lt.2 hlen), Bool.true_eq_false, or_self,
    if_false]

end UnknownOpcode

/-! ### Registers (Tables 11.2 and 11.3) -/

/-- The W1C bits of STATUS clear DONE, EVQ_OVERFLOW with EVQ_LOST, and COLLISION (R9, R384). -/
theorem Mailbox.clearStatus_eq (m : Mailbox) (v : Byte) : m.clearStatus v =
    { m with done := m.done && !v.getLsbD 1, evqOverflow := m.evqOverflow && !v.getLsbD 3, evqLost := if v.getLsbD 3 then 0 else m.evqLost,
             collision := m.collision && !v.getLsbD 5 } := by
  unfold Mailbox.clearStatus
  cases v.getLsbD 1 <;> cases v.getLsbD 3 <;> cases v.getLsbD 5 <;>
    simp only [Bool.not_false, Bool.not_true, Bool.and_true, Bool.and_false, Bool.false_eq_true, if_true, if_false]

theorem Mailbox.setHead_eq (m : Mailbox) (v : BitVec 6) :
    m.setHead v = { m with evqHead := if v - m.evqHead ≤ m.evqTail - m.evqHead then v else m.evqHead } := by
  unfold Mailbox.setHead
  split <;> rfl

/-- A register write to a mailbox page acts on DOORBELL, on STATUS and on EVQ_HEAD, and on nothing else (Table 11.3). -/
theorem exec_registerWrite_mailbox (s : State) (mb : Mb) (off : BitVec 12) (v : BitVec 64) :
    exec (.registerWrite (.mailbox mb) off v) s = .next (
      if off = 0x000 then (if v.getLsbD 0 then s.ring mb else s)
      else if off = 0x008 then s.modMbox mb (·.clearStatus (v.setWidth 8))
      else if off = 0x010 then s.modMbox mb (·.setHead (v.setWidth 6))
      else s) := by
  have hplace (a : Nat) (k : BitVec 12) (ha : a = 0x2000 + k.toNat) : 0x2000 + off.toNat = a ↔ off = k := by
    rw [ha, Nat.add_left_cancel_iff, BitVec.toNat_inj]
  have hdoorbell : v.toNat % 2 = 1 ↔ v.getLsbD 0 = true := by rw [BitVec.getLsbD, Nat.testBit_zero, decide_eq_true_eq]
  change Host.Outcome.next (s.writeMbReg mb.val (0x2000 + off.toNat) v.toNat) = _
  simp only [State.writeMbReg, hplace 0x2000 0x000 rfl, hplace 0x2008 0x008 rfl, hplace 0x2010 0x010 rfl, hdoorbell, BitVec.ofNat_toNat]

/-- A register write to the global page acts on FORCE_STOP alone (Table 11.2). -/
theorem exec_registerWrite_global (s : State) (off : BitVec 12) (v : BitVec 64) :
    exec (.registerWrite .global off v) s = .next (if off = 0x018 ∧ v.getLsbD 4 then s.forceStop else s) := by
  have hplace : off.toNat = 0x018 ↔ off = 0x018 := BitVec.toNat_inj (y := 0x018)
  change Host.Outcome.next (s.writeGlobal off.toNat v.toNat) = _
  simp only [State.writeGlobal, hplace, BitVec.getLsbD]

/-- Settles O25: a doorbell and a register write each come to the operation of their register; the bits of STATUS are the low ones of the word written. -/
theorem mailboxRegistersAct : Obligations.MailboxRegistersAct := by
  unfold Obligations.MailboxRegistersAct
  refine ⟨fun s mb hbusy => congrArg Host.Outcome.next (State.ring_busy hbusy),
    ?submits, ?unknownOpcode, ?doorbellRegister, ?statusRegister, ?headRegister, ?otherRegister,
    fun s off v => exec_registerWrite_global s off v,
    ?evqHeadWrite,
    fun s mb => rfl,
    fun s hon => congrArg Host.Outcome.next (if_pos hon)⟩
  case submits =>
    intro s mb hidle hknown
    exact congrArg Host.Outcome.next ((State.ring_idle hidle).trans (if_pos hknown))
  case unknownOpcode =>
    rintro s mb _ rfl hidle hunknown hserved hlen htoken hrepeat
    refine ⟨_, congrArg Host.Outcome.next ((State.ring_idle hidle).trans (if_neg (Bool.eq_false_iff.1 hunknown))), ?_⟩
    exact State.unknownCmd_submitted_refused hserved hlen htoken hrepeat
  case doorbellRegister =>
    rintro s mb off v rfl
    exact exec_registerWrite_mailbox s mb 0x000 v
  case statusRegister =>
    rintro s mb off v _ rfl rfl
    rw [exec_registerWrite_mailbox, if_neg (by decide), if_pos rfl, State.modMbox, Mailbox.clearStatus_eq]
    simp only [BitVec.getLsbD_setWidth, show (1 : Nat) < 8 by decide, show (3 : Nat) < 8 by decide, show (5 : Nat) < 8 by decide, decide_true,
      Bool.true_and]
  case headRegister =>
    rintro s mb off v rfl
    rw [exec_registerWrite_mailbox, if_neg (by decide), if_neg (by decide), if_pos rfl, State.modMbox]
  case otherRegister =>
    intro s mb off v hdoorbell hstatus hhead
    rw [exec_registerWrite_mailbox, if_neg hdoorbell, if_neg hstatus, if_neg hhead]
  case evqHeadWrite =>
    rintro s mb v _ rfl
    exact congrArg (fun m => Host.Outcome.next (s.setMbox mb m)) (Mailbox.setHead_eq _ v)

/-! ### The management serial port (R390, R391, R397) -/

/-- A block that is not of 1 to 240 bytes, or comes with a wrong PEC or during a booth restart, is not acknowledged. -/
theorem exec_serialBlockWrite_refused {s : State} {ptr : BitVec 16} {data : List Byte} {pecOk : Bool}
    (h : s.slots.restarting = true ∨ pecOk = false ∨ data = [] ∨ 240 < data.length) :
    exec (.serialBlockWrite ptr data pecOk) s = .next (s.serialAck false) := if_pos h

/-- A block in order is written, where the stage takes writes, and acknowledged. -/
theorem exec_serialBlockWrite_ok {s : State} {ptr : BitVec 16} {data : List Byte} (hrun : s.slots.restarting = false) (hpos : 1 ≤ data.length)
    (hmax : data.length ≤ 240) :
    exec (.serialBlockWrite ptr data true) s = if s.serialWrites = false then .next (s.serialAck true) else
      .next ((data.foldl (fun (t : State × Nat) b => (if t.2 < 0x4000 then t.1.writePageByte 63 t.2 b else t.1, t.2 + 1))
        (s, ptr.toNat)).1.serialAck true) := by
  have hdata : data ≠ [] := List.ne_nil_of_length_pos hpos
  refine if_neg ?_
  simp only [hrun, hdata, Nat.not_lt.2 hmax, Bool.false_eq_true, Bool.true_eq_false, or_self, not_false_eq_true]

/-- Settles O26: a transaction is refused in front of its effect, and a block in order is written where the stage takes writes. -/
theorem serialPortActs : Obligations.SerialPortActs := by
  unfold Obligations.SerialPortActs
  refine ⟨?blockWritten, ?blockRefused, ?blockIgnored, ?doorbell,
    fun s pecOk h => if_pos h,
    ?wordWritten,
    fun s ptr pecOk h => if_pos h,
    fun s hrun => if_neg (Bool.eq_false_iff.1 hrun)⟩
  case blockWritten =>
    rintro s ptr data _ hrun hwrites hpos hmax rfl
    exact (exec_serialBlockWrite_ok hrun hpos hmax).trans (if_neg (ne_false_of_eq_true hwrites))
  case blockRefused =>
    rintro s ptr data pecOk h
    refine exec_serialBlockWrite_refused ?_
    rcases h with hpec | hempty | hlong | hrestart
    · exact .inr (.inl hpec)
    · exact .inr (.inr (.inl hempty))
    · exact .inr (.inr (.inr hlong))
    · exact .inl hrestart
  case blockIgnored =>
    intro s ptr data hrun hwrites hpos hmax
    exact (exec_serialBlockWrite_ok hrun hpos hmax).trans (if_pos hwrites)
  case doorbell =>
    intro s hrun hstage
    have hgo : ¬(s.slots.restarting = true ∨ true = false) := by simp only [hrun, Bool.false_eq_true, Bool.true_eq_false, or_self, not_false_eq_true]
    exact ⟨_, (if_neg hgo).trans (if_neg hstage), rfl⟩
  case wordWritten =>
    intro s ptr hrun
    exact if_neg (by simp only [hrun, Bool.false_eq_true, Bool.true_eq_false, or_self, not_false_eq_true])

end Sys2Proof.Machine

/-! SUPPORT. O1, O2, O23 and O52: the commands of groups 0x00, 0x01 and 0x0F, and the session that a command needs. -/

namespace Sys2Proof.Machine

/-! ### What the body of a command reads after the lease is renewed -/

@[simp] theorem State.begun_portNamed (s : State) (n q sub : Nat) : (s.begun n).portNamed q sub = s.portNamed q sub := rfl
@[simp] theorem State.begun_portList (s : State) (n : Nat) : (s.begun n).mgmt.portList = s.mgmt.portList := rfl
@[simp] theorem State.begun_switchList (s : State) (n : Nat) : (s.begun n).mgmt.switchList = s.mgmt.switchList := rfl
@[simp] theorem State.begun_update (s : State) (n : Nat) : (s.begun n).mgmt.update = s.mgmt.update := rfl
@[simp] theorem State.begun_imageOk (s : State) (n : Nat) (b : Bool) : (s.begun n).mgmt.imageOk b = s.mgmt.imageOk b := rfl
@[simp] theorem State.begun_toActivate (s : State) (n : Nat) : (s.begun n).mgmt.toActivate = s.mgmt.toActivate := rfl

/-! ### Group 0x00 -/

/-- The first sequence number that EVENT_LOG_READ returns is that of its first entry, or the one asked for. -/
theorem head_getD_eq_match (l : List LogEntry) (first : BitVec 16) :
    (l.head?.map fun e => e.entry.eseq).getD first = match l with | e :: _ => e.entry.eseq | [] => first := by
  cases l <;> rfl

/-- Settles O1: each query returns what it names, and each setting passes the checks of its own body. -/
theorem systemCommandsAct : Obligations.SystemCommandsAct := by
  unfold Obligations.SystemCommandsAct
  refine ⟨fun s mb pl h => obeys_of h rfl rfl,
    fun s mb pl h hhome => obeys_of h rfl (if_pos hhome),
    ?portAdded, ?portRemoved, ?switchAdded, ?switchRemovedAndSaved, ?logRead, ?mbQuery⟩
  case portAdded =>
    intro s mb pl p l h hport hadd hsave hp hl
    refine obeys_of h rfl ?_
    simp only [hport, hadd, hsave, State.begun_portNamed, State.begun_portList, hp, hl, Bool.false_eq_true, if_false, if_true]
  case portRemoved =>
    intro s mb pl h hport hremove hsave
    refine obeys_of h rfl ?_
    simp only [hport, hremove, hsave, Bool.false_eq_true, if_false, if_true]
    rfl
  case switchAdded =>
    intro s mb pl l h hswitch hadd hsave hl
    refine obeys_of h rfl ?_
    simp only [hswitch, hadd, hsave, State.begun_switchList, hl, Bool.false_eq_true, Bool.true_eq_false, if_false, if_true]
  case switchRemovedAndSaved =>
    intro s mb pl h hswitch hremove hsave
    refine obeys_of h rfl ?_
    simp only [hswitch, hremove, hsave, Bool.false_eq_true, Bool.true_eq_false, if_false, if_true]
    rfl
  case logRead =>
    rintro s mb pl _ h rfl
    rw [head_getD_eq_match]
    exact obeys_of h rfl rfl
  case mbQuery =>
    rintro s mb pl _ h rfl
    exact obeys_of h rfl rfl

/-! ### Sessions (R380 to R382) -/

theorem tokenOf_ne_zero (w : BitVec 64) : tokenOf w ≠ 0 := by
  unfold tokenOf
  split
  · decide
  · assumption

/-- What R377 needs to know of SESSION_OPEN. -/
def sessionOpenSpec : CmdSpec :=
  { opcode := 0x0100, priv := false, open_ := true, recovery := true, stopped := true, len := fun _ => 4, fields := [(0, 1), (16, 12)],
    checks := fun pl => [(16, decide (fld pl 16 12 ≤ 3600))] }

/-- The lease that SESSION_OPEN asks for, in s. -/
def leaseAsked (pl : Nat) : Nat := if fld pl 16 12 = 0 then 60 else fld pl 16 12

/-- The state in which mailbox `n` has opened session `x`, with a free value used for its token. -/
def State.openSession (s : State) (n : Nat) (x : Session) : State :=
  ({ s with free := s.free + 1 }).modMbox n fun m => { m with session := some x }

theorem State.session_openSession (s : State) (n : Nat) (x : Session) : ((s.openSession n x).mbox n).session = some x := by
  have hne : ({ s.mbox n with session := some x } : Mailbox) ≠ mbDefault n := by
    intro he
    have hsession := congrArg Mailbox.session he
    simp only [mbDefault] at hsession
    split at hsession <;> exact nomatch hsession
  exact congrArg Mailbox.session (Tab.get_put_self_of_ne hne s.mgmt.mbox n)

/-- Opening a session breaks no isolation (R272). -/
theorem breaksTiming_openSession (s : State) (n : Nat) (x : Session) : breaksTiming s (s.openSession n x) = false := breaksTiming_self s

/-- A mailbox without a session has none to end. -/
theorem State.endSession_of_none {s : State} {n : Nat} (h : (s.mbox n).session = none) (cause : Nat) : s.endSession n cause = s := by
  simp only [State.endSession, h]

/-- Renewing a lease opens and ends no session. -/
theorem State.Admits.session_isSome {s : State} {c : CmdSpec} {n pl : Nat} (h : s.Admits c n pl) :
    ((s.begun n).mbox n).session.isSome = (s.mbox n).session.isSome := by
  obtain ⟨hbusy, -⟩ := h
  rw [State.begun_mbox s n hbusy, Option.isSome_map]

/-- SESSION_OPEN on a mailbox with no session, or with FORCE, opens one with a non-zero token (R380). -/
theorem sessionOpen_opens {s : State} {mb : Mb} {pl : Nat} (h : s.Admits sessionOpenSpec mb pl)
    (hfree : (s.mbox mb).session = none ∨ bitOf pl 0 = true) :
    ∃ token : BitVec 32, token ≠ 0 ∧ Obeys (.sessionOpen mb) s mb
      (((s.begun mb).endSession mb 2).openSession mb ⟨token, leaseAsked pl, s.now + leaseAsked pl * 1000000000⟩) (bytesOf 4 token.toNat) := by
  refine ⟨_, tokenOf_ne_zero (Config.freeWord ((s.begun mb).endSession mb 2).free), obeys_of h rfl (if_neg ?_)⟩
  rw [h.session_isSome]
  rintro ⟨hopen, hforce⟩
  rcases hfree with hnone | hasked
  · rw [hnone] at hopen
    exact nomatch hopen
  · rw [hasked] at hforce
    exact nomatch hforce

/-- Settles O2: SESSION_OPEN is `sessionOpen_opens`; the other three commands have no check of their own. -/
theorem sessionCommandsAct : Obligations.SessionCommandsAct := by
  unfold Obligations.SessionCommandsAct
  refine ⟨?sessionOpen,
    fun s mb pl h => obeys_of h rfl rfl,
    fun s mb pl h => obeys_of h rfl rfl,
    fun s mb pl h => obeys_of h rfl rfl⟩
  case sessionOpen =>
    rintro s mb pl _ h hfree rfl
    exact sessionOpen_opens h hfree

/-! ### The session that a command needs (R382) -/

/-- A query that changes nothing is answered SUCCESS. -/
theorem Obeys.exec_eq_of_begun {c : Instr} {s : State} {n : Nat} {resp : List Byte} (h : Obeys c s n (s.begun n) resp) :
    exec c s = .next (s.ended (s.begun n) n resp) := h (breaksTiming_self _)

/-- Settles O52: the check of the session stands before the command's own body, and three commands are exempt from it. -/
theorem commandNeedsSession : Obligations.CommandNeedsSession := by
  unfold Obligations.CommandNeedsSession
  refine ⟨?refused, ?unknownRefused, ?sysQuery, ?mbQuery, ?sessionOpen⟩
  case refused =>
    intro i s mb op priv hi hneeds hbegins htoken
    obtain ⟨c, body, rfl, hopen, hrun⟩ := hbegins.exec_eq hi
    rw [hrun, hbegins.runCmd_noSession body (hopen.trans hneeds) htoken]
  case unknownRefused =>
    intro s mb hidle hunknown hserved hlen htoken
    have hring := (State.ring_idle hidle).trans (if_neg (Bool.eq_false_iff.1 hunknown))
    exact congrArg Host.Outcome.next (hring.trans (State.unknownCmd_submitted_noSession hserved hlen htoken))
  case sysQuery =>
    intro s mb pl h
    exact ⟨_, (obeys_of h rfl rfl : Obeys (.sysQuery mb) s mb (s.begun mb) _).exec_eq_of_begun⟩
  case mbQuery =>
    intro s mb pl h
    exact ⟨_, (obeys_of h rfl rfl : Obeys (.mbQuery mb) s mb (s.begun mb) _).exec_eq_of_begun⟩
  case sessionOpen =>
    rintro s mb pl _ h hnone rfl
    obtain ⟨token, htoken, hobeys⟩ := sessionOpen_opens h (.inl hnone)
    have hbegun : ((s.begun mb).mbox mb).session = none := by
      rw [← Option.not_isSome_iff_eq_none, h.session_isSome, hnone]
      exact Bool.false_ne_true
    rw [State.endSession_of_none hbegun] at hobeys
    exact ⟨_, token, _, htoken, hobeys (breaksTiming_openSession _ _ _), State.session_openSession _ _ _⟩

/-! ### Group 0x0F (R402 to R404) -/

/-- FW_ACTIVATE names the image that FW_WRITE_END checked. -/
theorem Mgmt.toActivate_eq {m : Mgmt} {b : Bool} (hb : b = if m.stage = stageRecovery then m.lastChecked else !m.image)
    (hchecked : (m.slot b).checked = true) : m.toActivate = some b := by
  subst hb
  exact if_pos hchecked

/-- The 64 KiB sectors that hold `n` bytes (R403). -/
theorem ceilDiv_sector (n : Nat) : ceilDiv n 65536 = (n + 65535) / 65536 := by rw [ceilDiv, Nat.add_sub_assoc (by decide)]

/-- Settles O23: every command finds the update or the image that its row asks for, in a stage in which it may act. -/
theorem firmwareCommandsAct : Obligations.FirmwareCommandsAct := by
  unfold Obligations.FirmwareCommandsAct
  refine ⟨?fwQuery, ?fwWriteBegin, ?fwWrite, ?fwWriteEnd, ?activateTrial, ?activateHitless, ?fwConfirm,
    fun s mb pl h => obeys_of h rfl rfl⟩
  case fwQuery =>
    rintro s mb pl _ h rfl
    exact obeys_of h rfl rfl
  case fwWriteBegin =>
    intro s mb pl h hfree
    rw [← ceilDiv_sector]
    refine obeys_of h rfl (if_neg ?_)
    rintro ⟨hstage, hbusy⟩
    obtain hrecovery | ⟨hother, htrial⟩ := hfree
    · exact hstage hrecovery
    · rcases hbusy with hruns | hontrial
      · exact hother hruns
      · exact Bool.false_ne_true (htrial.symm.trans hontrial)
  case fwWrite =>
    rintro s mb pl u _ h rfl hu hnext hroom
    refine obeys_of h rfl ?_
    simp only [State.begun_update, hu, hnext, Nat.not_lt.2 hroom, ne_eq, not_true_eq_false, or_self, if_false]
  case fwWriteEnd =>
    intro s mb pl u h hu hok
    refine obeys_of h rfl ?_
    simp only [State.begun_update, State.begun_imageOk, hu, hok, if_true]
  case activateTrial =>
    intro s mb pl b h hb hchecked htrial
    refine obeys_of h rfl ?_
    simp only [State.begun_toActivate, Mgmt.toActivate_eq hb hchecked, htrial, if_true]
  case activateHitless =>
    intro s mb pl h hstage hchecked hrestart hmin
    have hnot : ¬(s.mgmt.stage = stageRecovery ∨ s.mgmt.fwVersion < (s.mgmt.slot (!s.mgmt.image)).info.hitlessMin) := by
      rintro (hrecovery | hbelow)
      · exact hstage hrecovery
      · exact BitVec.not_lt.2 hmin hbelow
    refine obeys_of h rfl ?_
    simp only [State.begun_toActivate, Mgmt.toActivate_eq (if_neg hstage).symm hchecked, hrestart, Bool.true_eq_false, if_false]
    exact if_neg hnot
  case fwConfirm =>
    rintro s mb pl _ h htrial rfl
    exact obeys_of h rfl (if_neg (ne_false_of_eq_true htrial))

end Sys2Proof.Machine

/-! SUPPORT. O58, O59 and O60: event queues and the event log, and the values at reset. -/

namespace Sys2Proof.Machine

/-! ### Event queues (R375, R384) -/

/-- Going up cyclically from one entry of a queue to another. -/
theorem toNat_sub_entry (a b : BitVec 6) : (a - b).toNat = (a.toNat + 64 - b.toNat) % 64 := by bv_omega

theorem Mailbox.event_eq_false_iff (m : Mailbox) : m.event = false ↔ m.evqHead = m.evqTail := by
  simp only [Mailbox.event, decide_eq_false_iff_not, ne_eq, not_not]

/-- A queue with room holds one entry more after an event. -/
theorem Mailbox.queued_append {m : Mailbox} (h : m.queued < 63) (e : Tab EvEntry) :
    ({ m with evq := e, evqTail := m.evqTail + 1 } : Mailbox).queued = m.queued + 1 := by
  simp only [Mailbox.queued] at h ⊢
  bv_omega

/-- An entry that is not blank, or of a queue in canonical form, is read where it was written. -/
theorem get_put_entry {e : EvEntry} {q : Tab EvEntry} (h : e ≠ {} ∨ Tab.wf {} q = true) (k : Nat) : Tab.get {} (Tab.put {} q k e) k = e := by
  rcases h with hne | hwf
  · exact Tab.get_put_self_of_ne hne q k
  · exact Tab.get_put_self {} e k hwf

/-- Settles O58: the mailbox after an event is that of `mbox_deliver_room` or of `mbox_deliver_full`, and a write of EVQ_HEAD is `setHead`. -/
theorem eventQueueHead : Obligations.EventQueueHead := by
  unfold Obligations.EventQueueHead
  refine ⟨fun m => ⟨m.event_eq_false_iff, toNat_sub_entry _ _⟩, ?room, ?full, ?head⟩
  case room =>
    intro s n e h
    rw [State.mbox_deliver_room s n e h]
    exact ⟨rfl, Mailbox.queued_append h _, fun he => get_put_entry he _⟩
  case full =>
    intro s n e h
    rw [State.mbox_deliver_full s n e h]
    exact ⟨rfl, rfl, rfl⟩
  case head =>
    rintro s mb v _ rfl
    rw [← toNat_sub_entry, ← toNat_sub_entry, ← apply_ite]
    rfl

/-! ### The event log (R383) -/

theorem getLast?_keepLast_append {α : Type} {n : Nat} (hn : 0 < n) (l : List α) (x : α) : (keepLast n (l ++ [x])).getLast? = some x := by
  rw [keepLast, List.drop_append_of_le_length (by simp only [List.length_append, List.length_singleton]; omega), List.getLast?_concat]

/-- Delivering an event to mailboxes leaves the event log. -/
theorem State.log_forAll_deliver (e : EvEntry) (l : List Nat) (s : State) : (forAll l s fun n t => t.deliver e n).mgmt.log = s.mgmt.log := by
  induction l generalizing s with
  | nil => rfl
  | cons n r ih => exact (ih (s.deliver e n)).trans (State.log_deliver s e n)

theorem State.log_logEvent (s : State) (e : EvEntry) (owners : List (BitVec 8)) :
    (s.logEvent e owners).mgmt.log = keepLast 512 (s.mgmt.log ++ [{ entry := e, owners := owners }]) := by
  simp only [State.logEvent, State.modMgmt]

/-- An event that is raised is the newest entry of the log, whether the mailboxes are served or not. -/
theorem State.log_raise (s : State) (code : BitVec 16) (data : List (Nat × Nat)) (owners : List (BitVec 8)) :
    (s.raise code data owners).mgmt.log =
      keepLast 512 (s.mgmt.log ++ [{ entry := s.eventEntry code (packVals data), owners := owners }]) := by
  rw [← State.log_logEvent]
  unfold State.raise State.raiseTo
  dsimp only
  split
  · rw [State.log_forAll_deliver]
  · rfl

/-- Settles O59: a full queue counts the event lost, and the log takes every event. -/
theorem eventFindsFullQueue : Obligations.EventFindsFullQueue := by
  unfold Obligations.EventFindsFullQueue
  refine ⟨?full, fun s code data owners => ⟨?logged, rfl⟩⟩
  case full =>
    intro s n e h
    rw [State.mbox_deliver_full s n e h]
    exact ⟨rfl, rfl, fun j hj => State.mbox_deliver_full_other s e h hj⟩
  case logged =>
    rw [State.log_raise, getLast?_keepLast_append (by decide)]

/-! ### After reset -/

theorem mbDefault_eq (n : Nat) : mbDefault n = { subs := if n = 0 ∨ n = 63 then 0xFFFF else 0 } := by
  simp only [mbDefault, privilegedMb, Bool.or_eq_true, beq_iff_eq]
  split <;> rfl

theorem queueDefault_eq (k : Nat) : queueDefault k = { band := if k = 8 then 0 else 1 } := by
  unfold queueDefault
  split <;> rfl

/-- At reset a mailbox is as `mbDefault` gives it. -/
theorem State.mbox_reset (n : Nat) : State.reset.mbox n = { subs := if n = 0 ∨ n = 63 then 0xFFFF else 0 } := mbDefault_eq n

/-- At reset a queue is as `queueDefault` gives it. -/
theorem State.queue_reset (p k : Nat) : (State.reset.schedOf p).queue k = { band := if k = 8 then 0 else 1 } := queueDefault_eq k

/-- Settles O60: no table lists a unit at reset, so each unit reads as its default; a mailbox and a queue read by their number. -/
theorem resetValues : Obligations.ResetValues := by
  unfold Obligations.ResetValues
  refine ⟨?mailboxes, ⟨rfl, rfl, rfl, rfl⟩, fun p => ⟨rfl, rfl, rfl, rfl, rfl⟩, fun p => ⟨rfl, rfl, rfl, rfl, rfl⟩, ⟨rfl, rfl, rfl⟩, ?queues,
    ⟨rfl, rfl⟩, fun c => ⟨rfl, rfl⟩⟩
  case mailboxes =>
    intro n
    rw [State.mbox_reset]
    exact ⟨rfl, rfl, rfl, rfl⟩
  case queues =>
    intro p k
    rw [State.queue_reset]
    exact ⟨rfl, rfl, rfl, rfl⟩

end Sys2Proof.Machine

/-! SUPPORT. O17 and O18: the commands of group 0x0B. -/

namespace Sys2Proof.Machine

/-! ### Commands that read and clear fault records (R416, R421, R423, R433, R434) -/

/-- Settles O17: only FAULT_SUPERVISE has a check of its own; the FRSEQ that the queries return is that of a first record, where there is one. -/
theorem faultRecordCommandsAct : Obligations.FaultRecordCommandsAct := by
  unfold Obligations.FaultRecordCommandsAct
  refine ⟨?query, ?logRead,
    fun s mb pl h => obeys_of h rfl rfl,
    ?forwardSet, ?countersRead,
    fun s mb pl h hvalid => obeys_of h rfl (if_neg hvalid)⟩
  case query =>
    rintro s mb pl _ h rfl
    refine obeys_of h rfl ?_
    simp only [State.begun_faults]
    cases s.faults.log <;> rfl
  case logRead =>
    rintro s mb pl _ h rfl
    refine obeys_of h rfl ?_
    simp only [State.begun_faults]
    cases (s.faults.log.filter fun r => atOrAfter (fbv pl 0 16) r.frseq).take (fld pl 16 7) <;> rfl
  case forwardSet =>
    rintro s mb pl _ h rfl
    exact obeys_of h rfl rfl
  case countersRead =>
    rintro s mb pl _ _ h rfl rfl
    exact obeys_of h rfl rfl

/-! ### Commands that classify, fence and inject (R413, R424, R426, R435) -/

/-- FAULT_INJECT with CONFIRM_FATAL, or of an error that is not Fatal, is not refused (R435). -/
theorem faultInject_allowed {s : State} {src : BitVec 12} {code : BitVec 8} {confirm : Bool}
    (h : confirm = true ∨ (s.currentSeverity src code ≠ svFatal ∧ (code = 0xFE → s.fallbackSeverity src ≠ svFatal))) :
    ¬(confirm = false ∧ (s.currentSeverity src code = svFatal ∨ (code = 0xFE ∧ s.fallbackSeverity src = svFatal))) := by
  rintro ⟨hunconfirmed, hfatal⟩
  rcases h with hconfirm | ⟨hsev, hfallback⟩
  · exact Bool.eq_false_iff.1 hunconfirmed hconfirm
  · exact hfatal.elim hsev fun ⟨hcode, hsevere⟩ => hfallback hcode hsevere

/-- Settles O18: each command meets its own checks, and FAULT_INJECT tells a pair alone from one with a report. -/
theorem fenceCommandsAct : Obligations.FenceCommandsAct := by
  unfold Obligations.FenceCommandsAct
  refine ⟨fun s mb pl h hcode => obeys_of h rfl (if_neg hcode),
    fun s mb pl h hwire => obeys_of h rfl (if_pos hwire),
    ?fence,
    fun s mb pl h hfenced => obeys_of h rfl (if_pos hfenced),
    ?release, ?fenceQuery, ?injectPair, ?injectReport⟩
  case fence =>
    rintro s mb pl _ h rfl hfree
    exact obeys_of h rfl (if_neg (Bool.eq_false_iff.1 hfree))
  case release =>
    rintro s mb pl _ h rfl hinst hchan hmark
    exact obeys_of h rfl ((if_neg (not_or.2 ⟨hinst, hchan⟩)).trans (if_neg (Bool.eq_false_iff.1 hmark)))
  case fenceQuery =>
    rintro s mb pl _ h rfl
    exact obeys_of h rfl rfl
  case injectPair =>
    rintro s mb pl _ _ h rfl rfl hallowed honly
    exact obeys_of h rfl ((if_neg (faultInject_allowed hallowed)).trans
      (if_pos (by rwa [Bool.or_eq_true, decide_eq_true_eq])))
  case injectReport =>
    rintro s mb pl _ _ h rfl rfl hallowed hreport hcode
    have hlet := faultInject_allowed (hallowed.imp_right fun hsev => ⟨hsev, fun hpair => absurd hpair hcode⟩)
    exact obeys_of h rfl ((if_neg hlet).trans
      (if_neg (by rw [hreport, Bool.false_or, decide_eq_true_eq]; exact hcode)))

end Sys2Proof.Machine

/-! SUPPORT. O42: errors from their detection to the record of them, FAULT frames, and ALIVE. -/

namespace Sys2Proof.Machine

/-- An event whose operands are ones that the hardware can carry is judged by its own meaning. -/
theorem require_of {wf : Bool} (h : wf = true) (o : Out) : require wf o = o := if_pos h

/-! ### Detecting and seeing errors (R414, R416, R418) -/

section Source

variable {s : State} {src : BitVec 12}

/-- A source whose collector runs, or a core-die source of a powered core die, queues a report of its error (R414, R415). -/
theorem State.report_queues {code : BitVec 8} {detail : BitVec 64}
    (h : s.collectorOn = true ∨ (selvedgeSource src = false ∧ s.power.coreOn = true)) :
    s.report src code detail = s.queueReport src { code := code, detail := detail } := by
  unfold State.report
  split
  · rfl
  next hoff =>
    obtain ⟨hcore, hpower⟩ := h.resolve_left hoff
    rw [if_neg (Bool.eq_false_iff.1 hcore), if_pos hpower]

/-- A detected error is reported, and one of an SRAM also names its memory (log entry 52). -/
theorem exec_errorDetect {code : BitVec 8} (detail : BitVec 64) (hsrc : sourceExists src = true) (hcode : (errorRow src code).isSome = true) :
    exec (.errorDetect src code detail) s = .next (if src.toNat / 256 % 16 = 5 ∧ code = 2 then
      (if detail.toNat % 4 = 0 then (s.report src code detail).modCar fun c => { c with badIn := Tab.put false c.badIn (src.toNat % 256) true }
        else if detail.toNat % 4 = 2 then (s.report src code detail).modMid (src.toNat % 256) fun b => { b with bad := true }
        else s.report src code detail) else s.report src code detail) := by
  change execErrorDetect src code detail s = _
  have hkind : fld src.toNat 8 4 = src.toNat / 256 % 16 := by simp only [fld, Nat.shiftRight_eq_div_pow, Nat.reducePow]
  unfold execErrorDetect
  rw [require_of (by rw [hsrc, hcode, Bool.and_self]), hkind]
  simp only [fld, Nat.shiftRight_zero, Nat.reducePow]
  split
  · generalize detail.toNat % 4 = region
    match region with
    | 0 | 1 | 2 | _ + 3 => rfl
  · rfl

/-- The collector takes the time of a pair change that it has not seen (R418). -/
theorem exec_pairChangeSeen_pending (hsrc : sourceExists src = true) (hon : s.collectorOn = true) (hpair : (s.source src).pair = .pending)
    (hsup : (s.source src).unsupervised = false) (hnew : (s.source src).seenAt = none) :
    exec (.pairChangeSeen src) s = .next (s.modSource src fun y => { y with seenAt := some s.timeNow, noReport := true }) := by
  change execPairChangeSeen src s = _
  unfold execPairChangeSeen
  rw [require_of hsrc]
  simp only [hon, hpair, hsup, hnew, and_self, reduceCtorEq, if_false, if_true]

/-- An invalid pair shows a valid code again (R416). -/
theorem exec_pairChangeSeen_invalid (hsrc : sourceExists src = true) (hon : s.collectorOn = true) (hpair : (s.source src).pair = .invalid) :
    exec (.pairChangeSeen src) s = .next (s.modSource src fun y => { y with pair := if y.reports = [] then .idle else .pending }) := by
  change execPairChangeSeen src s = _
  exact (require_of hsrc _).trans ((if_neg (ne_false_of_eq_true hon)).trans (if_pos hpair))

end Source

/-! ### Classification (R411, R418) -/

/-- An error that is not Contained is logged with no unit, and stops the XM5120 where it is Fatal. -/
theorem State.classify_not_contained (s : State) {r : FaultRec} (named : Option UnitId) (h : r.severity ≠ svContained) :
    s.classify r named = if r.severity = svFatal then (s.logError { r with unit := 0xFFFFF, multi := false }).fatalStop 1
      else s.logError { r with unit := 0xFFFFF, multi := false } := by
  simp only [State.classify, if_neg h]
  rfl

/-- A Contained error is logged with the first of its units, and all of them are fenced. -/
theorem State.classify_contained (s : State) {r : FaultRec} (named : Option UnitId) (h : r.severity = svContained) :
    s.classify r named = (fencedBy r.source r.error r.detail named).foldl
      (fun t u => t.applyFence { unit := u, source := r.source, error := r.error } (decide (r.source = 0xF01)))
      (s.logError { r with
        unit := ((fencedBy r.source r.error r.detail named).head?.map UnitId.bits).getD 0xFFFFF
        multi := decide (1 < (fencedBy r.source r.error r.detail named).length) }) := by
  simp only [State.classify, if_pos h]
  cases fencedBy r.source r.error r.detail named <;> rfl

/-- The next report of a source leaves it and is classified (R418). -/
theorem exec_faultReportClassify {s : State} {src : BitVec 12} {code : BitVec 8} {r : Report} (hgiven : errorGiven src code = true)
    (hnext : s.nextReport src = some r) (hon : s.collectorOn = true) (hcode : r.code = code) :
    exec (.faultReportClassify src code) s = .next ((s.modSource src fun y =>
        ({ y with reports := y.reports.filter (fun z => decide (z.code ≠ code)), noReport := false }).settle).classify
      { source := src, error := code, severity := s.severityOf src code, count := r.count, detail := r.detail, injected := r.injected,
        unsupervised := (s.source src).unsupervised,
        seconds := (if (s.source src).unsupervised then s.timeNow else (s.source src).seenAt.getD s.timeNow).1,
        ns := (if (s.source src).unsupervised then s.timeNow else (s.source src).seenAt.getD s.timeNow).2 } none) := by
  change execFaultReportClassify src code s = _
  unfold execFaultReportClassify
  rw [require_of hgiven, hnext]
  exact if_neg (not_or.2 ⟨ne_false_of_eq_true hon, not_not.2 hcode⟩)

/-- A pair change with no report is PAIR_ONLY at the fallback severity (R418). -/
theorem exec_pairOnlyTimeout {s : State} {src : BitVec 12} {t : BitVec 32 × BitVec 30} (hsrc : sourceExists src = true)
    (hseen : (s.source src).seenAt = some t) (hon : s.collectorOn = true) (hno : (s.source src).noReport = true) :
    exec (.pairOnlyTimeout src) s = .next (((s.modSource src fun y => ({ y with noReport := false }).settle).modFaults fun f =>
        { f with pairOnly := inc48 f.pairOnly }).classify
      { source := src, error := 0xFE, severity := s.fallbackSeverity src, pairOnly := true, injected := (s.source src).pairInjected,
        seconds := t.1, ns := t.2 } none) := by
  change execPairOnlyTimeout src s = _
  unfold execPairOnlyTimeout
  rw [require_of hsrc]
  simp only [hseen]
  exact if_neg (not_or.2 ⟨ne_false_of_eq_true hon, ne_false_of_eq_true hno⟩)

/-- A pair that stays invalid is WIRE_FAULT, and its source is no longer supervised (R416). -/
theorem exec_wireFault {s : State} {src : BitVec 12} (hsrc : sourceExists src = true) (hsup : (s.source src).unsupervised = false)
    (hon : s.collectorOn = true) :
    exec (.wireFault src) s = .next ((s.modSource src fun y => { y with pair := .invalid, unsupervised := true, seenAt := none, noReport := false }).classify
      { source := src, error := 0xFF, severity := svDegraded, seconds := s.timeNow.1, ns := s.timeNow.2 } none) := by
  change execWireFault src s = _
  exact (require_of hsrc _).trans ((if_neg (Bool.eq_false_iff.1 hsup)).trans (if_pos hon))

/-! ### Merge intervals (R420) -/

/-- The record that ends an interval with the occurrences merged in it. -/
def State.mergedRecord (s : State) (src : BitVec 12) (code : BitVec 8) (m : Merge) : FaultRec :=
  { source := src, error := code, severity := m.severity, count := BitVec.ofNat 16 m.total, detail := m.detail, injected := m.injected,
    unsupervised := m.unsupervised, pairOnly := decide (code = 0xFE), seconds := s.timeNow.1, ns := s.timeNow.2 }

/-- An interval of the collector ends: with nothing merged it is over, else one record is written and its interval begins. -/
theorem exec_mergeIntervalEnd {s : State} {src : BitVec 12} {code : BitVec 8} {m : Merge} (hsrc : sourceExists src = true)
    (hon : s.collectorOn = true) (hm : Tab.get none s.faults.merges (mergeKey src code) = some m) :
    exec (.mergeIntervalEnd src code) s = if m.total = 0
      then .next (s.modFaults fun f => { f with merges := Tab.put none f.merges (mergeKey src code) none })
      else .next ((s.writeRecord (s.mergedRecord src code m)).modFaults fun f =>
        { f with merges := Tab.put none f.merges (mergeKey src code) (some {}) }) := by
  change execMergeIntervalEnd src code s = _
  unfold execMergeIntervalEnd
  rw [require_of hsrc]
  simp only [hon, hm, if_true]
  rfl

/-! ### FAULT frames and ALIVE (R423, R430 to R432) -/

/-- A FAULT frame that is whole and not poisoned raises its event with the fields of its record (R423). -/
theorem exec_faultFrameReceive {s : State} {f : Frame} (hwf : f.wellFormed = true) (hrun : s.running = true) (hpoison : f.hdr.poison = false)
    (hlen : 40 ≤ f.payload.length) :
    exec (.faultFrameReceive f) s = .next ((s.takeInbox 3 f).raise 0x0B02 [(fld (natOf (f.payload.take 3)) 0 20, 3),
      (fld (natOf (f.payload.drop 8)) 0 12, 2), (fld (natOf (f.payload.drop 8)) 12 8, 1), (fld (natOf (f.payload.drop 8)) 20 3, 1),
      (fld (natOf (f.payload.drop 8)) 48 16, 2), (fld (natOf (f.payload.drop 8)) 128 64, 8)] []) := by
  change execFaultFrameReceive f s = _
  exact (require_of hwf _).trans ((if_neg (ne_false_of_eq_true hrun)).trans
    (if_neg (not_or.2 ⟨Bool.eq_false_iff.1 hpoison, Nat.not_lt.2 hlen⟩)))

/-- Settles O42: every event acts on the source, the interval or the frame that it names, and a classified error is logged before its units are fenced. -/
theorem faultEventsAct : Obligations.FaultEventsAct := by
  unfold Obligations.FaultEventsAct
  refine ⟨?errorDetect,
    fun s src hsrc hon hpair hsup hnew => exec_pairChangeSeen_pending hsrc hon hpair hsup hnew,
    fun s src hsrc hon hpair => exec_pairChangeSeen_invalid hsrc hon hpair,
    ?classify, ?notContained, ?contained, ?pairOnly, ?wireFault,
    fun s src code m hsrc hon hm hzero => (exec_mergeIntervalEnd hsrc hon hm).trans (if_pos hzero),
    fun s src code m hsrc hon hm hsome => (exec_mergeIntervalEnd hsrc hon hm).trans (if_neg hsome),
    ?faultFrame,
    fun s halive => next_of_guard halive,
    fun s hrun => next_of_guard hrun,
    ?livenessExpiry⟩
  case errorDetect =>
    rintro s src code detail _ hsrc hcode hon rfl
    rw [exec_errorDetect detail hsrc hcode, State.report_queues hon]
    rfl
  case classify =>
    rintro s src code r _ _ hgiven hnext hon hcode rfl rfl
    exact exec_faultReportClassify hgiven hnext hon hcode
  case notContained =>
    rintro s r named _ hsev rfl
    exact s.classify_not_contained named hsev
  case contained =>
    rintro s r named _ _ hsev rfl rfl
    exact s.classify_contained named hsev
  case pairOnly =>
    rintro s src t _ hsrc hseen hon hno rfl
    exact exec_pairOnlyTimeout hsrc hseen hon hno
  case wireFault =>
    rintro s src _ hsrc hsup hon rfl
    exact exec_wireFault hsrc hsup hon
  case faultFrame =>
    rintro s f _ hwf hrun hpoison hlen rfl
    rw [exec_faultFrameReceive hwf hrun hpoison hlen]
    simp only [fld, Nat.shiftRight_eq_div_pow, Nat.pow_zero, Nat.div_one]
  case livenessExpiry =>
    rintro s _ hlapse rfl
    exact next_of_guard hlapse

end Sys2Proof.Machine

/-! SUPPORT. O19: the commands of group 0x0C. -/

namespace Sys2Proof.Machine

/-- Renewing the lease leaves the refusals of R441. -/
@[simp] theorem State.begun_testRefusal (s : State) (n : Nat) (u : UnitId) : (s.begun n).testRefusal u = s.testRefusal u := rfl

/-- Settles O19: BIST_START meets the refusals of R441 first, and BIST_UNMARK tells a marked unit from one that is not. -/
theorem bistCommandsAct : Obligations.BistCommandsAct := by
  unfold Obligations.BistCommandsAct
  refine ⟨?start,
    fun s mb pl h => obeys_of h rfl rfl,
    fun s mb pl h => obeys_of h rfl rfl,
    ?unmark, ?list⟩
  case start =>
    rintro s mb pl _ h rfl hfree
    refine obeys_of h rfl ?_
    simp only [unitField, State.begun_testRefusal, hfree]
  case unmark =>
    rintro s mb pl _ h rfl
    exact obeys_of h rfl (apply_ite (CmdResult.done · []) _ _ _).symm
  case list =>
    rintro s mb pl _ h rfl
    exact obeys_of h rfl rfl

end Sys2Proof.Machine

/-! SUPPORT. O20: the commands of group 0x0D. -/

namespace Sys2Proof.Machine

/-- The first whole us that is at least 2 us ahead (R456). -/
theorem ceilDiv_two_us_ahead (now : Nat) : ceilDiv (now + 2000) 1000 * 1000 = (now + 2999) / 1000 * 1000 := by
  rw [ceilDiv, Nat.add_sub_assoc (by decide), Nat.add_assoc]

/-- Settles O20: PMON_SNAPSHOT meets the checks of its time and of a snapshot that is pending, and PMON_SNAPSHOT_READ tells a monitor from a port. -/
theorem monitorCommandsAct : Obligations.MonitorCommandsAct := by
  unfold Obligations.MonitorCommandsAct
  refine ⟨fun s mb pl h => obeys_of h rfl rfl,
    ?read,
    fun s mb pl h => obeys_of h rfl rfl,
    ?snapshot,
    fun s mb pl h hmon => obeys_of h rfl (if_neg (Bool.eq_false_iff.1 hmon)),
    ?marksRead, ?sampleRead⟩
  case read =>
    rintro s mb pl _ h rfl
    exact obeys_of h rfl rfl
  case snapshot =>
    rintro s mb pl _ h hfree rfl hahead
    have hfuture : ¬(fld pl 0 48 * 1000000000 + fld pl 48 30 ≠ 0 ∧ fld pl 0 48 * 1000000000 + fld pl 48 30 < s.fabNs + 2000) := by omega
    have hnone : ¬(s.begun mb).bist.pending.isSome = true := by
      rw [State.begun_bist, hfree]
      exact Bool.false_ne_true
    rw [← ceilDiv_two_us_ahead]
    exact obeys_of h rfl ((if_neg hfuture).trans (if_neg hnone))
  case marksRead =>
    rintro s mb pl p _ h hport hp rfl
    exact obeys_of h rfl ((if_pos hport).trans (h.onPort rfl hp))
  case sampleRead =>
    rintro s mb pl _ h rfl
    exact obeys_of h rfl rfl

end Sys2Proof.Machine

/-! SUPPORT. O43: the phases and the end of a self-test, the wraps of counters, and snapshots. -/

namespace Sys2Proof.Machine

/-! ### The phases of a self-test (R438, R439, R444) -/

section Phases

variable {s : State} {u : UnitId} {r : BistRec}

/-- A test whose target is isolated runs from here (R439). -/
theorem exec_bistIsolationComplete (hu : testable u = true) (hr : s.bistRec u = some r) (hon : r.active = true) (hwait : r.result = 1)
    (hiso : s.isolated u = true) :
    exec (.bistIsolationComplete u) s = .next (s.setBistRec u { r with result := 2, startSec := s.timeNow.1, startNs := s.timeNow.2 }) := by
  change execBistIsolationComplete u s = _
  unfold execBistIsolationComplete
  rw [require_of hu]
  simp only [hr]
  exact if_pos (by simp only [hon, hwait, hiso, beq_self_eq_true, Bool.and_self])

/-- The record of a test whose engine has ended (R444). -/
def BistRec.atEnd (r : BistRec) (x : EngineResult) (pass : Bool) : BistRec :=
  { r with result := if pass then 3 else 4, sigValid := true, verified := pass, signature := x.signature,
           failPart := if pass then 0 else x.failPart, failAddr := if pass then 0 else x.failAddr }

/-- The engine's end of a running test is PASS or FAIL, and FAIL marks the unit (R444, R446). -/
theorem exec_bistEngineEnd {x : EngineResult} {pass : Bool} (hu : testable u = true) (hr : s.bistRec u = some r) (hon : r.active = true)
    (hrun : r.result = 2) (hpass : pass = (decide (x.signature = r.expected) && x.comparesOk)) :
    exec (.bistEngineEnd u x) s =
      .next (if pass then s.setBistRec u (r.atEnd x pass) else (s.setBistRec u (r.atEnd x pass)).markUnit u) := by
  subst hpass
  change execBistEngineEnd u x s = _
  unfold execBistEngineEnd
  rw [require_of hu]
  simp only [hr]
  exact if_pos (by simp only [hon, hrun, beq_self_eq_true, Bool.and_self])

/-- A target that is not isolated in time ends its test with NOT_IDLE (R438). -/
theorem exec_bistNotIdleTimeout (hu : testable u = true) (hr : s.bistRec u = some r) (hon : r.active = true) (hwait : r.result = 1)
    (hiso : s.isolated u = false) :
    exec (.bistNotIdleTimeout u) s = .next (s.abortTests (fun v => decide (v = u)) 4) := by
  change execBistNotIdleTimeout u s = _
  unfold execBistNotIdleTimeout
  rw [require_of hu]
  simp only [hr]
  exact next_of_guard (by simp only [hon, hwait, hiso, beq_self_eq_true, Bool.not_false, Bool.and_self])

end Phases

/-! ### Wraps of counters (R450, R451, R453) -/

/-- Counter `k` of monitor `mon` wraps: it is enabled, its monitor runs, and of an event that the model counts a wrap is due. -/
def State.CounterWraps (s : State) (mon k : Nat) : Prop :=
  ((s.pmonOf mon).counter k).enabled = true ∧ (s.pmonOf mon).frozen = false ∧ s.pmonClocked mon = true ∧
    (eventCounted ((s.pmonOf mon).counter k).event = false ∨ 0 < ((s.pmonOf mon).counter k).wraps)

theorem State.CounterWraps.acts {s : State} {mon k : Nat} (h : s.CounterWraps mon k) :
    ¬(((s.pmonOf mon).counter k).enabled = false ∨ (s.pmonOf mon).frozen = true ∨ s.pmonClocked mon = false ∨
      (eventCounted ((s.pmonOf mon).counter k).event = true ∧ ((s.pmonOf mon).counter k).wraps = 0)) := by
  obtain ⟨henabled, hfrozen, hclock, hdue⟩ := h
  rintro (hoff | hheld | hstopped | ⟨hcounted, hnone⟩)
  · exact Bool.eq_false_iff.1 hoff henabled
  · exact Bool.eq_false_iff.1 hfrozen hheld
  · exact Bool.eq_false_iff.1 hstopped hclock
  · exact hdue.elim (Bool.eq_false_iff.1 · hcounted) fun hsome => Nat.ne_of_gt hsome hnone

/-- The state in which that counter has wrapped. -/
def State.wrapCounter (s : State) (mon k : Nat) : State := s.modPmon mon fun m => m.modCounter k PmonCounter.wrap

section Wraps

variable {s : State} {mon : BitVec 9} {k : BitVec 3} (cyc : BitVec 64) (ctx : BitVec 128)
  (hmon : pmonExists mon.toNat = true) (hwraps : s.CounterWraps mon.toNat k.toNat)

include hmon hwraps

/-- A counter without OVF_SAMPLE only wraps. -/
theorem exec_pmonCounterWrap_plain (hplain : ((s.pmonOf mon.toNat).counter k.toNat).samples = false) :
    exec (.pmonCounterWrap mon k cyc ctx) s = .next (s.wrapCounter mon.toNat k.toNat) := by
  change execPmonCounterWrap mon k cyc ctx s = _
  exact (require_of hmon _).trans ((if_neg hwraps.acts).trans (if_pos hplain))

/-- A sample that finds 64 records waiting is counted lost. -/
theorem exec_pmonCounterWrap_lost (hsamples : ((s.pmonOf mon.toNat).counter k.toNat).samples = true)
    (hfull : 64 ≤ (s.pmonOf mon.toNat).samples.length) :
    exec (.pmonCounterWrap mon k cyc ctx) s = .next ((s.wrapCounter mon.toNat k.toNat).modPmon mon.toNat fun m =>
      { m with samplesLost := inc48 m.samplesLost }) := by
  change execPmonCounterWrap mon k cyc ctx s = _
  exact (require_of hmon _).trans ((if_neg hwraps.acts).trans ((if_neg (ne_false_of_eq_true hsamples)).trans (if_pos hfull)))

/-- A sample joins those that wait; but for the 32nd it raises no event. -/
theorem exec_pmonCounterWrap_sampled (hsamples : ((s.pmonOf mon.toNat).counter k.toNat).samples = true)
    (hroom : (s.pmonOf mon.toNat).samples.length < 64) (hnot : (s.pmonOf mon.toNat).samples.length ≠ 31) :
    exec (.pmonCounterWrap mon k cyc ctx) s = .next ((s.wrapCounter mon.toNat k.toNat).modPmon mon.toNat fun m =>
      { m with samples := m.samples ++ [{ cycles := cyc, k := k.setWidth 8,
                                          event := BitVec.ofNat 16 ((s.pmonOf mon.toNat).counter k.toNat).event, ctx := ctx }] }) := by
  change execPmonCounterWrap mon k cyc ctx s = _
  exact (require_of hmon _).trans ((if_neg hwraps.acts).trans ((if_neg (ne_false_of_eq_true hsamples)).trans
    ((if_neg (Nat.not_le.2 hroom)).trans (if_neg fun hfirst => hnot hfirst.1))))

end Wraps

/-! ### The events together -/

/-- A snapshot that is due is captured, numbered and told (R456, R457). -/
theorem exec_snapshotCapture {s : State} {t : Nat} {clear : Bool} (hpending : s.bist.pending = some (t, clear)) (hrun : s.running = true)
    (hdue : t ≤ s.fabNs) : exec .snapshotCapture s = .next (s.capture true) := by
  change execSnapshotCapture s = _
  unfold execSnapshotCapture
  rw [hpending]
  exact next_of_guard (by rw [hrun, decide_eq_true hdue, Bool.and_self])

/-- Settles O43: each phase of a test finds the record that the phase before left, and a wrap or a capture finds its monitor running. -/
theorem testAndMonitorEventsAct : Obligations.TestAndMonitorEventsAct := by
  unfold Obligations.TestAndMonitorEventsAct
  refine ⟨fun s u r hu hr hon hwait hiso => exec_bistIsolationComplete hu hr hon hwait hiso,
    ?pass, ?fail, ?reinit,
    fun s u r hu hr hon hwait hiso => exec_bistNotIdleTimeout hu hr hon hwait hiso,
    ?wrapPlain, ?wrapSampled, ?wrapLost, ?snapshot⟩
  case pass =>
    intro s u x r hu hr hon hrun hsignature hcompares
    exact exec_bistEngineEnd (pass := true) hu hr hon hrun (by rw [decide_eq_true hsignature, hcompares, Bool.and_self])
  case fail =>
    intro s u x r hu hr hon hrun hdiffers
    refine exec_bistEngineEnd (pass := false) hu hr hon hrun ?_
    rcases hdiffers with hsignature | hcompares
    · rw [decide_eq_false hsignature, Bool.false_and]
    · rw [hcompares, Bool.and_false]
  case reinit =>
    intro s u hu hended
    change execBistReinitComplete u s = _
    exact (require_of hu _).trans (next_of_guard (List.contains_iff_mem.2 hended))
  case wrapPlain =>
    rintro s mon k cyc ctx _ _ _ hmon rfl rfl henabled hfrozen hclock hdue rfl hplain
    exact exec_pmonCounterWrap_plain cyc ctx hmon ⟨henabled, hfrozen, hclock, hdue⟩ hplain
  case wrapSampled =>
    rintro s mon k cyc ctx _ _ _ hmon rfl rfl henabled hfrozen hclock hdue rfl hsamples hroom hnot
    exact exec_pmonCounterWrap_sampled cyc ctx hmon ⟨henabled, hfrozen, hclock, hdue⟩ hsamples hroom hnot
  case wrapLost =>
    rintro s mon k cyc ctx _ _ _ hmon rfl rfl henabled hfrozen hclock hdue rfl hsamples hfull
    exact exec_pmonCounterWrap_lost cyc ctx hmon ⟨henabled, hfrozen, hclock, hdue⟩ hsamples hfull
  case snapshot =>
    intro s t clear u v w hpending hrun hdue hu hv hw
    rw [exec_snapshotCapture hpending hrun hdue]
    simp only [State.capture, hpending, hw, hv, hu]
    rfl

end Sys2Proof.Machine

/-! SUPPORT. O21: PWR_STATE_SET and PWR_QUERY. -/

namespace Sys2Proof.Machine

/-! ### The actions of PWR_STATE_SET (R28, R470, R471, R474, R482) -/

section Actions

variable {s : State}

/-- A port that sleeps stays, and one that may sleep asks for it (R471). -/
theorem State.sleepPort_asks {p : Nat} (h : (s.port p).stage = .sleep ∨
      (s.portHeld s.underTest p = false ∧ (s.port p).pcie = false ∧ (s.port p).stage = .active ∧ (s.link p).maySleep = true)) :
    s.sleepPort p = .done (if (s.port p).stage = .sleep then s else s.modLink p Link.sleepRequest) [] := by
  by_cases hsleep : (s.port p).stage = .sleep
  · simp only [State.sleepPort, hsleep, if_true]
  · obtain ⟨hfree, hnative, hactive, hmay⟩ := h.resolve_left hsleep
    simp only [State.sleepPort, hfree, hnative, hactive, hmay, reduceCtorEq, ne_eq, not_true_eq_false, Bool.true_eq_false, Bool.false_eq_true,
      or_self, if_false]

/-- A quad that is neither fenced nor marked, in a Ring that is on, is powered where a port uses it. -/
theorem State.quadOnCmd_powers {q : Nat} (hfence : quadHeld s.fenced q = false) (hmark : quadHeld s.marked q = false)
    (hring : s.ringIsOff (ringOf q) = false) : s.quadOnCmd q = .done (if (s.portsOfQuad q).isEmpty then s else s.powerQuad q) [] := by
  simp only [State.quadOnCmd, hfence, hmark, hring, Bool.false_eq_true, or_self, if_false]
  exact (apply_ite (CmdResult.done · []) _ _ _).symm

/-- A quad not under test whose ports are idle is switched off where it is on. -/
theorem State.quadOffCmd_switches {q : Nat} (htest : quadHeld s.underTest q = false)
    (h : Tab.get false s.power.quadOn q = false ∨ s.quadIdle q = true) :
    s.quadOffCmd q = .done (if Tab.get false s.power.quadOn q then s.quadOff q else s) [] := by
  cases hon : Tab.get false s.power.quadOn q with
  | false => simp only [State.quadOffCmd, htest, hon, Bool.false_eq_true, if_false, if_true]
  | true =>
    have hidle : s.quadIdle q = true := h.resolve_left (ne_false_of_eq_true hon)
    simp only [State.quadOffCmd, htest, hon, hidle, Bool.true_eq_false, Bool.false_eq_true, if_false, if_true]

/-- A Ring with no test and no quad on goes off, and one that is off stays. -/
theorem State.ringOffCmd_switches {r : Nat} (htest : (s.testsActive.any fun u => testRing u == some r) = false)
    (h : s.ringIsOff r = true ∨ ((ringPus r).any fun q => Tab.get false s.power.quadOn q) = false) :
    s.ringOffCmd r = .done (if s.ringIsOff r then s else s.ringDown r) [] := by
  cases hoff : s.ringIsOff r with
  | true => simp only [State.ringOffCmd, htest, hoff, Bool.false_eq_true, if_false, if_true]
  | false =>
    have hquads := h.resolve_left (Bool.eq_false_iff.1 hoff)
    simp only [State.ringOffCmd, htest, hoff, hquads, Bool.false_eq_true, if_false]

/-- With no test, update or import under way the module begins to enter Intermission. -/
theorem State.enterInter_begins (htests : s.testsActive = []) (hupdate : s.mgmt.update = none) (himport : s.mgmt.cal.importCount = 0) {t : State}
    (ht : t = (s.modPower fun x => { x with inter := .entering }).raise 0x0E00 [(3, 1), (0, 1), (4, 1)] []) :
    s.enterInter = .done (((t.each t.allPorts fun t p => (t.disable p rsAdmin).clearDiag p).pwEndWork .a true).pwEndWork .b true) [] := by
  subst ht
  simp only [State.enterInter, htests, hupdate, himport, ne_eq, not_true_eq_false, Option.isSome_none, Bool.false_eq_true, or_self, if_false]

end Actions

/-- Settles O21: TARGET and ACTION choose the branch of each body, and the action there passes its own checks. -/
theorem powerStateCommandsAct : Obligations.PowerStateCommandsAct := by
  unfold Obligations.PowerStateCommandsAct
  refine ⟨?portOn, ?portSleep, ?quadOn, ?quadOff, ?ringOn, ?ringOff, ?moduleOn, ?intermission, ?queryPort, ?queryQuad, ?queryRing, ?queryModule⟩
  case portOn =>
    intro s mb pl p h htarget hp hon
    refine obeys_of h rfl ?_
    simp only [htarget, hon, decide_true, if_true]
    exact h.onPort rfl hp
  case portSleep =>
    intro s mb pl p h htarget hp hsleep hready
    refine obeys_of h rfl ?_
    simp only [htarget, hsleep, one_ne_zero, decide_false, Bool.false_eq_true, if_false]
    exact (h.onPort rfl hp).trans (State.sleepPort_asks hready)
  case quadOn =>
    rintro s mb pl _ h htarget hon rfl hfence hmark hring
    refine obeys_of h rfl ?_
    simp only [htarget, hon, decide_true, if_true]
    exact State.quadOnCmd_powers hfence hmark hring
  case quadOff =>
    rintro s mb pl _ h htarget hoff rfl htest hidle
    refine obeys_of h rfl ?_
    simp only [htarget, hoff, OfNat.ofNat_ne_zero, decide_false, Bool.false_eq_true, if_false]
    exact State.quadOffCmd_switches htest hidle
  case ringOn =>
    intro s mb pl h htarget hon
    refine obeys_of h rfl ?_
    simp only [htarget, hon, decide_true, if_true]
    rfl
  case ringOff =>
    rintro s mb pl _ h htarget hoff rfl htest hquads
    refine obeys_of h rfl ?_
    simp only [htarget, hoff, OfNat.ofNat_ne_zero, decide_false, Bool.false_eq_true, if_false]
    exact State.ringOffCmd_switches htest hquads
  case moduleOn =>
    intro s mb pl h htarget hon
    refine obeys_of h rfl ?_
    simp only [htarget, hon, decide_true, if_true]
  case intermission =>
    intro s mb pl t h htarget hinter htests hupdate himport ht
    refine obeys_of h rfl ?_
    simp only [htarget, hinter, OfNat.ofNat_ne_zero, decide_false, Bool.false_eq_true, if_false]
    exact State.enterInter_begins (s := s.begun mb) htests hupdate himport ht
  case queryPort =>
    intro s mb pl p h htarget hp hm
    refine obeys_of h rfl ?_
    simp only [htarget]
    exact h.onPort_owned hp hm
  case queryQuad =>
    intro s mb pl h htarget hmb
    refine obeys_of h rfl ?_
    simp only [htarget]
    exact State.onPu_privileged hmb
  case queryRing =>
    intro s mb pl h htarget hmb
    refine obeys_of h rfl ?_
    simp only [htarget]
    exact if_pos hmb
  case queryModule =>
    intro s mb pl h htarget hmb
    refine obeys_of h rfl ?_
    simp only [htarget]
    exact if_pos hmb

end Sys2Proof.Machine

/-! SUPPORT. O45: resets, brownout, Intermission and waking, the governor, the clocks and JTAG. -/

namespace Sys2Proof.Machine

/-! ### Resets (R400, R461, R477, R478) -/

/-- A weft reset ends with its tests finished, the image in force, and the mailboxes served again (R400). -/
theorem exec_weftResetEnd {s : State} {u v : State} (hreset : s.mgmt.weftReset = true)
    (hu : u = s.finishTests.modMgmt fun m =>
      { m with image := if m.newImage then !m.image else m.image
               fwVersion := if m.newImage then (m.slot (if m.newImage then !m.image else m.image)).info.version else m.fwVersion
               trial := m.trial || m.newImage, fallback := m.fallback && !m.newImage, stage := stageReady, weftReset := false, newImage := false })
    (hv : v = u.serveMailboxes.modFaults fun f => { f with suspended := false, refreshed := s.now }) :
    exec .weftResetEnd s = .next (((v.raise 0x0003 [(v.mgmt.fwVersion.toNat, 3), (b2n s.mgmt.stagedDropped, 1)] []).modMgmt fun m =>
      { m with stagedDropped := false }).answerHeld) := by
  subst hu hv
  change execWeftResetEnd s = _
  exact if_neg (ne_false_of_eq_true hreset)

/-! ### Wake sources (R474, R476) -/

/-- A wake source that is enabled wakes the module from Intermission. -/
theorem State.wake_asleep {s : State} {src : Nat} (hon : s.wakeOn src = true) (htries : s.power.plan ≠ .gaveUp) (hasleep : s.power.inter = .asleep) :
    s.wake src = (s.modPower fun x => { x with inter := .waking, wakeSrc := some src }).railStart := by
  simp only [State.wake, hon, htries, hasleep, Bool.true_eq_false, if_false]

/-! ### The governor (R493, R497 to R499) -/

/-- The supply is adjusted where the coefficients are valid and the ladder has rested for 1 ms (R493). -/
theorem exec_vidUpdate {s : State} (hruns : s.govRuns = true) (hvalid : 4 ∉ s.mgmt.cal.invalid) (hrest : 50 ≤ s.power.gov.sinceLadder) :
    exec .vidUpdate s = .next (s.modGov fun g => { g with vid := vidStep g.vid (Config.vidTarget (s.mgmt.cal.read 0x8F00 0x400) g.tj) }) := by
  have hcontains : s.mgmt.cal.invalid.contains 4 = false := by
    rw [← Bool.not_eq_true, List.contains_iff_mem]
    exact hvalid
  exact next_of_guard (by simp only [hruns, hcontains, hrest, Bool.not_false, decide_true, Bool.and_self])

/-! ### The events together -/

/-- Settles O45: every event acts in the state that its row asks for; a reset leaves what its column of Table 14.8 keeps. -/
theorem resetAndPowerEventsAct : Obligations.ResetAndPowerEventsAct := by
  unfold Obligations.ResetAndPowerEventsAct
  refine ⟨?coldReset,
    fun s hon => next_of_guard hon,
    ?brownout, ?weftEnd,
    fun s r => rfl,
    ?drainEnd, ?wakeEdge, ?wakeTimer, ?governor,
    fun s hruns hvalid hrest => exec_vidUpdate hruns hvalid hrest,
    ?thermal,
    fun s r hon => next_of_guard hon,
    fun s hclock => next_of_guard hclock,
    fun s => rfl,
    ?refclkLoss, ?refclkCoreLoss,
    fun s token => rfl⟩
  case coldReset =>
    rintro s _ hstarted rfl
    exact next_of_guard hstarted
  case brownout =>
    rintro s _ rfl
    rfl
  case weftEnd =>
    rintro s _ u v hreset hu rfl hv
    exact exec_weftResetEnd hreset hu hv
  case drainEnd =>
    rintro s _ hrun hentering rfl
    exact next_of_guard (by rw [hrun, decide_eq_true hentering, Bool.and_self])
  case wakeEdge =>
    intro s hon htries hasleep
    exact congrArg Host.Outcome.next (State.wake_asleep hon htries hasleep)
  case wakeTimer =>
    intro s htimer hasleep hon htries
    have hinter : s.power.inter ≠ .no := by rw [hasleep]; exact nofun
    exact (next_of_guard ⟨htimer, hinter⟩).trans (congrArg Host.Outcome.next (State.wake_asleep hon htries hasleep))
  case governor =>
    rintro s mw _ hruns rfl
    exact next_of_guard hruns
  case thermal =>
    rintro s tj _ _ hruns rfl rfl
    exact next_of_guard hruns
  case refclkLoss =>
    intro s r hon hring
    exact next_of_guard (by rw [hon, hring]; rfl)
  case refclkCoreLoss =>
    rintro s _ hon rfl
    exact next_of_guard hon

end Sys2Proof.Machine
